-- ==== Sys2Proof/Word.lean ====
section
/-! DEFINITION. The words of frames and pages, and the fixed-length tables the blocks keep. -/

namespace Sys2Proof

/-- One byte of a frame, or one companded code (R3, R178). -/
abbrev Byte := BitVec 8

/-- A two-byte field (R178). -/
abbrev Half := BitVec 16

/-- A four-byte field (R178). -/
abbrev Wide := BitVec 32

/-- A fixed number of like things, numbered from 0 (00_scope.md, "Object numbers"). -/
abbrev Table (n : Nat) (α : Type) := Vector α n

/-- The 256 codes of one page (00_scope.md, "Clip memory"). -/
abbrev PageCodes := Table 256 Byte

/-- The 32 linear samples of one frame (00_scope.md, "Time" and "Samples"). -/
abbrev Frame := Table 32 Int

/-- The level of one line in each of the 512 bit periods of a cycle (R3). -/
abbrev LineBits := Table 512 Bool

/-- Entry `i` of a table. -/
def Table.cell {n : Nat} {α : Type} (t : Table n α) (i : Fin n) : α := t[i.val]

/-- The table with entry `i` replaced. -/
def Table.put {n : Nat} {α : Type} (t : Table n α) (i : Fin n) (x : α) : Table n α := t.set i.val x i.isLt

/-- The table whose every entry is `x`. -/
def Table.fill {α : Type} (n : Nat) (x : α) : Table n α := Vector.replicate n x

/-- The table whose entry `i` is `f i`. -/
def Table.build {n : Nat} {α : Type} (f : Fin n → α) : Table n α := ⟨⟨(List.finRange n).map f⟩, by simp⟩

/-- Entry `i` when the number is in the table, and `d` otherwise. -/
def Table.nth {n : Nat} {α : Type} (t : Table n α) (i : Nat) (d : α) : α :=
  if h : i < n then t.cell ⟨i, h⟩ else d

/-- The table of the first `n` members of a list, filled up with `d`. -/
def Table.ofList {α : Type} (n : Nat) (d : α) (l : List α) : Table n α := Table.build fun i => l.getD i.val d

/-- The object of a given number, when the number is in range (00_scope.md, "Object numbers"). -/
def number? (n : Nat) (b : Byte) : Option (Fin n) :=
  if h : b.toNat < n then some ⟨b.toNat, h⟩ else none

end Sys2Proof
end

