-- ==== Sys2Proof/Config.lean ====
section
/-! DEFINITION. What the part fixes once and for all, and the values its manual leaves open. -/

namespace Sys2Proof

/-- A byte whose value the manual leaves open: the bytes of a field that holds no meaning in a reply
(R178: "An absent field's bytes are still sent, and are ignored"). It is applied to a counter of
State, so each use is fresh. DESIGN CHOICE, log entry 14; safe, since nothing constrains it. -/
opaque Config.freeByte : Nat → Byte

/-- How the part reads a flag byte that is neither 0 nor 1: R178 gives the meaning of 0 and 1 only.
DESIGN CHOICE, log entry 15; safe, since nothing constrains it. -/
opaque Config.otherFlag : Byte → Bool

/-- The part code of PORT STATUS (R175). -/
def Config.partCode : Half := 0x0640

/-- The revision code of PORT STATUS (R175). -/
def Config.revisionCode : Byte := 0x01

/-- The companding law (R13). -/
inductive Law where
  | mu   -- μ-law
  | a    -- A-law
  deriving DecidableEq, Repr

/-- The fairness mode of the memory arbiter (R129). -/
inductive Fairness where
  | alternate
  | cp0First
  deriving DecidableEq, Repr

/-- The memory size (R177, 00_scope.md "Clip memory"). -/
inductive MemorySize where
  | mib4
  | mib8
  | mib16
  deriving DecidableEq, Repr

/-- The number of pages of a memory size (00_scope.md "Clip memory"). -/
def MemorySize.pages : MemorySize → Nat
  | .mib4 => 16384
  | .mib8 => 32768
  | .mib16 => 65536

/-- The refresh interval (R131). -/
inductive RefreshInterval where
  | slow   -- 15.6 µs
  | fast   -- 7.8 µs
  deriving DecidableEq, Repr

/-- What the start-up word fixes until the next pin reset (R177). -/
structure StartUp where
  law        : Law
  fairness   : Fairness
  memorySize : MemorySize
  cp1Enabled : Bool
  refresh    : RefreshInterval
  deriving DecidableEq, Repr

end Sys2Proof
end

