-- ==== Sys2Proof/Syntax.lean ====
section
/-! DEFINITION. The commands: one constructor for each row of spec/opcode_table.json. A request's
operands are its payload's fields in R178's layout; an event's operands are what the world outside
the part adds to it. -/

namespace Sys2Proof

/-- The two control ports (R168). -/
inductive Port where
  | cp0
  | cp1
  deriving DecidableEq, Repr

/-- The port that did not make the request (00_scope.md, "Ownership"). -/
def Port.other : Port → Port
  | .cp0 => .cp1
  | .cp1 => .cp0

/-- What has befallen one ECC word of the page an operation reads, since it was last written or read
(R133). `undetected` is an error the check bits cannot detect, which leaves eight other codes there.
DESIGN CHOICE that the DRAM's errors come as an operand: log entry 13. -/
inductive Upset where
  | correctable
  | uncorrectable
  | undetected (codes : Table 8 Byte)
  deriving DecidableEq, Repr

/-- An upset of one of the 32 ECC words of a page. -/
structure WordUpset where
  word  : Fin 32
  upset : Upset
  deriving DecidableEq, Repr

/-- One item of a playlist as a request carries it: clip and gain (R141). -/
structure ItemArg where
  clip : Byte
  gain : Half
  deriving DecidableEq, Repr

/-- One loop of a playlist as a request carries it (R141). -/
structure LoopArg where
  enabled : Bool
  top     : Byte
  bottom  : Byte
  count   : Byte
  deriving DecidableEq, Repr

/-- A playlist as START STREAM and LOAD STREAM carry it (R141, R178). -/
structure PlaylistArg where
  items : List ItemArg
  inner : LoopArg
  outer : LoopArg
  deriving DecidableEq, Repr

/-- The optional prompt of CONNECT (R26). -/
structure PromptArg where
  clip : Byte
  gain : Half
  deriving DecidableEq, Repr

/-- The optional parameters of SET POSITION, in the order R34 lists them. -/
structure ParamsArg where
  duck    : Option Half
  profile : Option Byte
  mode    : Option Byte
  step    : Option Byte
  reg     : Option Byte
  hang    : Option Byte
  nlp     : Option Bool
  shift   : Option Byte
  deriving DecidableEq, Repr

/-- A command of the part. -/
inductive Instr where
  /-- R177. -/
  | pinReset
  /-- R177: the sixteen samples of CFGIN, the first in bit 0. -/
  | startUpWordShifted (word : Half)
  /-- R138. -/
  | startUpMemoryPreparationComplete
  /-- R3, R18: what TRK_RX, AGT_RX and AGT_SIG carry in the bit periods of the cycle. -/
  | cycle (trunkRx agentRx agentSig : LineBits)
  /-- R18, R19: the agent timeslot whose counters have reached 24. -/
  | debounceCountExpiry (slot : Fin 64)
  /-- R4. -/
  | frameCompletion
  /-- R9. -/
  | syncLossMissingPulse
  /-- R9, R11: the bit position of the pulse, counted in periods of HW_BCLK (log entry 8). -/
  | fsPulse (bit : Nat)
  /-- R131. -/
  | refreshTimerExpiry
  /-- R128. -/
  | pageFetchCompletion (upsets : List WordUpset)
  /-- R118. -/
  | portPageWriteCompletion
  /-- R119. -/
  | portPageReadCompletion (upsets : List WordUpset)
  /-- R132. -/
  | scrubStepCompletion (upsets : List WordUpset)
  /-- R169. -/
  | ignoredRequestFrame (port : Port)
  /-- R170: a frame the port cannot read, its code not in the table or its payload not of the length the
  code requires (log entry 20). -/
  | unknownRequestCode (port : Port) (code : Byte)
  /-- R175. -/
  | portStatus (port : Port)
  /-- R176. -/
  | resetPort (port : Port)
  /-- R24. -/
  | openPosition (port : Port) (position slot tail profile : Byte)
  /-- R25. -/
  | closePosition (port : Port) (position : Byte)
  /-- R26. -/
  | connect (port : Port) (position trunk : Byte) (prompt : Option PromptArg) (stream : Option Byte)
  /-- R28. -/
  | hold (port : Port) (position : Byte) (stream : Option Byte)
  /-- R29. -/
  | retrieve (port : Port) (position : Byte)
  /-- R30. -/
  | release (port : Port) (position : Byte)
  /-- R34. -/
  | setPosition (port : Port) (position : Byte) (params : ParamsArg)
  /-- R35. -/
  | setTail (port : Port) (position tail : Byte)
  /-- R37: OFFER POSITION with the choice 0, or with a choice that is neither 0 nor 1 (log entry 16). -/
  | offerPositionOffer (port : Port) (position choice : Byte)
  /-- R38: OFFER POSITION with the choice 1. -/
  | offerPositionWithdraw (port : Port) (position : Byte)
  /-- R39. -/
  | acceptPosition (port : Port) (position : Byte)
  /-- R44. -/
  | positionInfo (port : Port) (position : Byte)
  /-- R45. -/
  | positionStats (port : Port) (position : Byte) (clear : Bool)
  /-- R58. -/
  | writeProfile (port : Port) (profile : Byte) (gains : Table 16 Half) (threshold : Byte) (nmin : Wide)
  /-- R97. -/
  | addTap (port : Port) (listener target kind : Byte) (gain : Half)
  /-- R99. -/
  | removeTap (port : Port) (tap : Byte)
  /-- R100. -/
  | listTaps (port : Port)
  /-- R108. -/
  | defineClip (port : Port) (clip : Byte) (base length fill : Half) (key0 key1 : Byte)
  /-- R110. -/
  | setKeys (port : Port) (clip key0 key1 : Byte)
  /-- R111. -/
  | freeClip (port : Port) (clip : Byte)
  /-- R112. -/
  | clipInfo (port : Port) (clip : Byte)
  /-- R117. -/
  | writePage (port : Port) (clip : Byte) (index : Half) (codes : PageCodes)
  /-- R119. -/
  | readPage (port : Port) (clip : Byte) (index : Half)
  /-- R122. -/
  | readFault (port : Port)
  /-- R122. -/
  | clearFault (port : Port)
  /-- R137. -/
  | memoryStatus (port : Port)
  /-- R142. -/
  | startStream (port : Port) (stream : Byte) (playlist : PlaylistArg)
  /-- R143. -/
  | loadStream (port : Port) (stream : Byte) (playlist : PlaylistArg)
  /-- R144. -/
  | stopStream (port : Port) (stream : Byte)
  /-- R145. -/
  | streamInfo (port : Port) (stream : Byte) (clear : Bool)
  /-- R158. -/
  | whisper (port : Port) (position clip : Byte) (gain : Half)
  /-- R160. -/
  | cancelWhisper (port : Port) (position : Byte)
  /-- R183. -/
  | readEvent (port : Port)
  /-- R180. -/
  | routeEvent (port : Port) (kind cls : Byte)
  /-- R181. -/
  | maskEvents (port : Port) (mask : Byte)
  deriving DecidableEq, Repr

end Sys2Proof
end

