-- ==== Sys2Proof/WellFormed.lean ====
section
/-! DEFINITION. The checks on a command's operands that its type does not already make. A command that
fails them is one that no controller, highway or DRAM can send. -/

namespace Sys2Proof

/-- A playlist's item count is one byte of the frame (R178), so it has at most 255 items. -/
def PlaylistArg.wf (p : PlaylistArg) : Bool := p.items.length ≤ 255

/-- A page's ECC word suffers at most one upset between two operations (R133). -/
def upsetsWf (upsets : List WordUpset) : Bool := (upsets.map WordUpset.word).Nodup

/-- The first byte that makes a chip-select period a read period, and so is no request code (R168). -/
def readMarker : Byte := 0xC3

/-- A command that can be sent to the part. -/
def Instr.wellFormed : Instr → Bool
  | .pageFetchCompletion upsets => upsetsWf upsets
  | .portPageReadCompletion upsets => upsetsWf upsets
  | .scrubStepCompletion upsets => upsetsWf upsets
  | .unknownRequestCode _ code => code != readMarker
  | .offerPositionOffer _ _ choice => choice != 1
  | .startStream _ _ playlist => playlist.wf
  | .loadStream _ _ playlist => playlist.wf
  | .pinReset => true
  | .startUpWordShifted _ => true
  | .startUpMemoryPreparationComplete => true
  | .cycle _ _ _ => true
  | .debounceCountExpiry _ => true
  | .frameCompletion => true
  | .syncLossMissingPulse => true
  | .fsPulse _ => true
  | .refreshTimerExpiry => true
  | .portPageWriteCompletion => true
  | .ignoredRequestFrame _ => true
  | .portStatus _ => true
  | .resetPort _ => true
  | .openPosition _ _ _ _ _ => true
  | .closePosition _ _ => true
  | .connect _ _ _ _ _ => true
  | .hold _ _ _ => true
  | .retrieve _ _ => true
  | .release _ _ => true
  | .setPosition _ _ _ => true
  | .setTail _ _ _ => true
  | .offerPositionWithdraw _ _ => true
  | .acceptPosition _ _ => true
  | .positionInfo _ _ => true
  | .positionStats _ _ _ => true
  | .writeProfile _ _ _ _ _ => true
  | .addTap _ _ _ _ _ => true
  | .removeTap _ _ => true
  | .listTaps _ => true
  | .defineClip _ _ _ _ _ _ _ => true
  | .setKeys _ _ _ _ => true
  | .freeClip _ _ => true
  | .clipInfo _ _ => true
  | .writePage _ _ _ _ => true
  | .readPage _ _ _ => true
  | .readFault _ => true
  | .clearFault _ => true
  | .memoryStatus _ => true
  | .stopStream _ _ => true
  | .streamInfo _ _ _ => true
  | .whisper _ _ _ _ => true
  | .cancelWhisper _ _ => true
  | .readEvent _ => true
  | .routeEvent _ _ _ => true
  | .maskEvents _ _ => true

end Sys2Proof
end

