-- ==== Sys2Proof/Decode.lean ====
section
/-! DEFINITION. Request frames as bytes (R168, R170, R178): the table of request codes, the decoder that
reads a frame and the encoder that writes one. The rows of spec/opcode_table.json give no bits, so
`decodeTableWord` reads none. -/

namespace Sys2Proof

/-! ## Byte order: "Multi-byte fields go most significant byte first" (R178) -/

/-- The more significant byte of a two-byte field. -/
def Half.high (h : Half) : Byte := h.extractLsb' 8 8

/-- The less significant byte of a two-byte field. -/
def Half.low (h : Half) : Byte := h.extractLsb' 0 8

/-- The two-byte field of two bytes, most significant first. -/
def half (high low : Byte) : Half := high ++ low

/-- The four-byte field of four bytes, most significant first. -/
def wide (b3 b2 b1 b0 : Byte) : Wide := (b3 ++ b2) ++ (b1 ++ b0)

/-- The bytes of a two-byte field in the order they travel. -/
def Half.bytes (h : Half) : List Byte := [h.high, h.low]

/-- The bytes of a four-byte field in the order they travel. -/
def Wide.bytes (w : Wide) : List Byte :=
  [w.extractLsb' 24 8, w.extractLsb' 16 8, w.extractLsb' 8 8, w.extractLsb' 0 8]

/-- A flag byte: 0 is off or clear, 1 is on or set (R178); any other byte is open (log entry 15). -/
def flag (b : Byte) : Bool := if b = 0 then false else if b = 1 then true else Config.otherFlag b

/-- The byte of a flag (R178). -/
def flagByte (f : Bool) : Byte := if f then 1 else 0

/-! ## Request codes (R178) -/

def Code.portStatus : Byte := 0x01
def Code.resetPort : Byte := 0x02
def Code.openPosition : Byte := 0x10
def Code.closePosition : Byte := 0x11
def Code.connect : Byte := 0x12
def Code.hold : Byte := 0x13
def Code.retrieve : Byte := 0x14
def Code.release : Byte := 0x15
def Code.setPosition : Byte := 0x16
def Code.setTail : Byte := 0x17
def Code.offerPosition : Byte := 0x18
def Code.acceptPosition : Byte := 0x19
def Code.positionInfo : Byte := 0x1A
def Code.positionStats : Byte := 0x1B
def Code.writeProfile : Byte := 0x20
def Code.addTap : Byte := 0x28
def Code.removeTap : Byte := 0x29
def Code.listTaps : Byte := 0x2A
def Code.defineClip : Byte := 0x30
def Code.setKeys : Byte := 0x31
def Code.freeClip : Byte := 0x32
def Code.writePage : Byte := 0x33
def Code.readPage : Byte := 0x34
def Code.clipInfo : Byte := 0x35
def Code.readFault : Byte := 0x36
def Code.clearFault : Byte := 0x37
def Code.memoryStatus : Byte := 0x38
def Code.startStream : Byte := 0x40
def Code.loadStream : Byte := 0x41
def Code.stopStream : Byte := 0x42
def Code.streamInfo : Byte := 0x43
def Code.whisper : Byte := 0x48
def Code.cancelWhisper : Byte := 0x49
def Code.readEvent : Byte := 0x50
def Code.routeEvent : Byte := 0x51
def Code.maskEvents : Byte := 0x52

/-! ## Reading payloads -/

/-- An optional field under its presence bit (R178): an absent field's bytes are ignored. So are the bits of a
presence byte that stand for no field (log entry 30). -/
def present {α : Type} (presence : Byte) (bit : Nat) (x : α) : Option α :=
  if presence.getLsbD bit then some x else none

/-- The items of a playlist, three bytes each (R178). -/
def readItems : Nat → List Byte → Option (List ItemArg × List Byte)
  | 0, rest => some ([], rest)
  | n + 1, clip :: gh :: gl :: rest =>
    match readItems n rest with
    | some (items, rest') => some (⟨clip, half gh gl⟩ :: items, rest')
    | none => none
  | _ + 1, _ => none

/-- A playlist as laid out in R178: item count, items, inner loop, outer loop. A payload of any length
but 10 + 3N (with the stream number before it) is refused (R170). -/
def readPlaylist : List Byte → Option PlaylistArg
  | count :: rest =>
    match readItems count.toNat rest with
    | some (items, [ie, it, ib, ic, oe, ot, ob, oc]) =>
      some ⟨items, ⟨flag ie, it, ib, ic⟩, ⟨flag oe, ot, ob, oc⟩⟩
    | _ => none
  | [] => none

/-- The command of a request code and its payload; none when the code is not in the table or the payload
has not the length the code requires (R170, R178). -/
def readPayload (port : Port) (code : Byte) (payload : List Byte) : Option Instr :=
  if code = Code.portStatus then match payload with | [] => some (.portStatus port) | _ => none
  else if code = Code.resetPort then match payload with | [] => some (.resetPort port) | _ => none
  else if code = Code.openPosition then
    match payload with | [p, a, t, q] => some (.openPosition port p a t q) | _ => none
  else if code = Code.closePosition then match payload with | [p] => some (.closePosition port p) | _ => none
  else if code = Code.connect then
    match payload with
    | [p, t, f, c, gh, gl, k] => some (.connect port p t (present f 0 ⟨c, half gh gl⟩) (present f 1 k))
    | _ => none
  else if code = Code.hold then match payload with | [p, f, k] => some (.hold port p (present f 0 k)) | _ => none
  else if code = Code.retrieve then match payload with | [p] => some (.retrieve port p) | _ => none
  else if code = Code.release then match payload with | [p] => some (.release port p) | _ => none
  else if code = Code.setPosition then
    match payload with
    | [p, f, dh, dl, pr, mo, m, d, h, n, q] =>
      some (.setPosition port p ⟨present f 0 (half dh dl), present f 1 pr, present f 2 mo, present f 3 m,
        present f 4 d, present f 5 h, present f 6 (flag n), present f 7 q⟩)
    | _ => none
  else if code = Code.setTail then match payload with | [p, t] => some (.setTail port p t) | _ => none
  else if code = Code.offerPosition then
    match payload with
    | [p, c] => some (if c = 1 then .offerPositionWithdraw port p else .offerPositionOffer port p c)
    | _ => none
  else if code = Code.acceptPosition then match payload with | [p] => some (.acceptPosition port p) | _ => none
  else if code = Code.positionInfo then match payload with | [p] => some (.positionInfo port p) | _ => none
  else if code = Code.positionStats then
    match payload with | [p, c] => some (.positionStats port p (flag c)) | _ => none
  else if code = Code.writeProfile then
    match payload with
    | p :: rest =>
      if rest.length = 37 then
        some (.writeProfile port p
          (Table.build fun i => half (rest.getD (2 * i.val) 0) (rest.getD (2 * i.val + 1) 0))
          (rest.getD 32 0) (wide (rest.getD 33 0) (rest.getD 34 0) (rest.getD 35 0) (rest.getD 36 0)))
      else none
    | [] => none
  else if code = Code.addTap then
    match payload with | [l, t, k, gh, gl] => some (.addTap port l t k (half gh gl)) | _ => none
  else if code = Code.removeTap then match payload with | [t] => some (.removeTap port t) | _ => none
  else if code = Code.listTaps then match payload with | [] => some (.listTaps port) | _ => none
  else if code = Code.defineClip then
    match payload with
    | [c, bh, bl, lh, ll, fh, fl, k0, k1] =>
      some (.defineClip port c (half bh bl) (half lh ll) (half fh fl) k0 k1)
    | _ => none
  else if code = Code.setKeys then match payload with | [c, k0, k1] => some (.setKeys port c k0 k1) | _ => none
  else if code = Code.freeClip then match payload with | [c] => some (.freeClip port c) | _ => none
  else if code = Code.writePage then
    match payload with
    | c :: ih :: il :: codes =>
      if codes.length = 256 then some (.writePage port c (half ih il) (Table.ofList 256 0 codes)) else none
    | _ => none
  else if code = Code.readPage then
    match payload with | [c, ih, il] => some (.readPage port c (half ih il)) | _ => none
  else if code = Code.clipInfo then match payload with | [c] => some (.clipInfo port c) | _ => none
  else if code = Code.readFault then match payload with | [] => some (.readFault port) | _ => none
  else if code = Code.clearFault then match payload with | [] => some (.clearFault port) | _ => none
  else if code = Code.memoryStatus then match payload with | [] => some (.memoryStatus port) | _ => none
  else if code = Code.startStream then
    match payload with
    | k :: rest => match readPlaylist rest with | some l => some (.startStream port k l) | none => none
    | [] => none
  else if code = Code.loadStream then
    match payload with
    | k :: rest => match readPlaylist rest with | some l => some (.loadStream port k l) | none => none
    | [] => none
  else if code = Code.stopStream then match payload with | [k] => some (.stopStream port k) | _ => none
  else if code = Code.streamInfo then
    match payload with | [k, c] => some (.streamInfo port k (flag c)) | _ => none
  else if code = Code.whisper then
    match payload with | [p, c, gh, gl] => some (.whisper port p c (half gh gl)) | _ => none
  else if code = Code.cancelWhisper then match payload with | [p] => some (.cancelWhisper port p) | _ => none
  else if code = Code.readEvent then match payload with | [] => some (.readEvent port) | _ => none
  else if code = Code.routeEvent then match payload with | [k, c] => some (.routeEvent port k c) | _ => none
  else if code = Code.maskEvents then match payload with | [m] => some (.maskEvents port m) | _ => none
  else none

/-- The command that the complete bytes of one chip-select period on a port spell (R168, R170): none for a
period that carries no byte and for a read period; a frame the port cannot read (unknown code, length
field incomplete or wrong) is the command it answers BAD_REQUEST. -/
def decodeRequest (port : Port) : List Byte → Option Instr
  | [] => none
  | code :: rest =>
    if code = readMarker then none
    else match rest with
      | lh :: ll :: payload =>
        if payload.length = (half lh ll).toNat then
          match readPayload port code payload with
          | some i => some i
          | none => some (.unknownRequestCode port code)
        else some (.unknownRequestCode port code)
      | _ => some (.unknownRequestCode port code)

/-! ## Chip-select periods (R168) -/

/-- A byte from the bits of its eight clocks, most significant first (R168). -/
def byteOfBits (b7 b6 b5 b4 b3 b2 b1 b0 : Bool) : Byte :=
  BitVec.ofBool b7 ++ BitVec.ofBool b6 ++ BitVec.ofBool b5 ++ BitVec.ofBool b4 ++ BitVec.ofBool b3 ++ BitVec.ofBool b2
    ++ BitVec.ofBool b1 ++ BitVec.ofBool b0

/-- The complete bytes of a period's bits; the bits of an incomplete last byte are dropped (R168). -/
def bytesOfBits : List Bool → List Byte
  | b7 :: b6 :: b5 :: b4 :: b3 :: b2 :: b1 :: b0 :: rest => byteOfBits b7 b6 b5 b4 b3 b2 b1 b0 :: bytesOfBits rest
  | _ => []

/-- The command that the bits sampled on SDI in one chip-select period spell (R168): none for a read period and for
a period of fewer than eight clocks. -/
def decodePeriod (port : Port) (sdi : List Bool) : Option Instr := decodeRequest port (bytesOfBits sdi)

/-! ## Writing frames -/

/-- The bits of a byte in the order they travel (R168). -/
def Byte.bits (b : Byte) : List Bool := (List.range 8).map b.getMsbD

/-- The bits of bytes in the order they travel (R168). -/
def bitsOfBytes (bytes : List Byte) : List Bool := bytes.flatMap Byte.bits

/-- The byte of an optional one-byte field; the byte of an absent field is ignored (R178), so any will
do. -/
def optionByte (x : Option Byte) : Byte := x.getD 0

/-- One bit of a presence byte (R178). -/
def presenceBit {α : Type} (x : Option α) (bit : Nat) : Byte := if x.isSome then 1#8 <<< bit else 0

/-- The bytes of a loop (R178). -/
def LoopArg.bytes (l : LoopArg) : List Byte := [flagByte l.enabled, l.top, l.bottom, l.count]

/-- The bytes of a playlist (R178). -/
def PlaylistArg.bytes (p : PlaylistArg) : List Byte :=
  BitVec.ofNat 8 p.items.length :: (p.items.flatMap fun i => i.clip :: i.gain.bytes) ++ p.inner.bytes ++ p.outer.bytes

/-- The code and payload of a request command (R178); none for a command that is no readable request. -/
def Instr.codeAndPayload : Instr → Option (Port × Byte × List Byte)
  | .portStatus port => some (port, Code.portStatus, [])
  | .resetPort port => some (port, Code.resetPort, [])
  | .openPosition port p a t q => some (port, Code.openPosition, [p, a, t, q])
  | .closePosition port p => some (port, Code.closePosition, [p])
  | .connect port p t prompt stream =>
    some (port, Code.connect, [p, t, presenceBit prompt 0 ||| presenceBit stream 1,
      (prompt.map PromptArg.clip).getD 0] ++ ((prompt.map PromptArg.gain).getD 0).bytes ++ [optionByte stream])
  | .hold port p stream => some (port, Code.hold, [p, presenceBit stream 0, optionByte stream])
  | .retrieve port p => some (port, Code.retrieve, [p])
  | .release port p => some (port, Code.release, [p])
  | .setPosition port p a =>
    some (port, Code.setPosition,
      [p, presenceBit a.duck 0 ||| presenceBit a.profile 1 ||| presenceBit a.mode 2 ||| presenceBit a.step 3
        ||| presenceBit a.reg 4 ||| presenceBit a.hang 5 ||| presenceBit a.nlp 6 ||| presenceBit a.shift 7]
      ++ (a.duck.getD 0).bytes ++ [optionByte a.profile, optionByte a.mode, optionByte a.step, optionByte a.reg,
        optionByte a.hang, flagByte (a.nlp.getD false), optionByte a.shift])
  | .setTail port p t => some (port, Code.setTail, [p, t])
  | .offerPositionOffer port p c => some (port, Code.offerPosition, [p, c])
  | .offerPositionWithdraw port p => some (port, Code.offerPosition, [p, 1])
  | .acceptPosition port p => some (port, Code.acceptPosition, [p])
  | .positionInfo port p => some (port, Code.positionInfo, [p])
  | .positionStats port p c => some (port, Code.positionStats, [p, flagByte c])
  | .writeProfile port p gains threshold nmin =>
    some (port, Code.writeProfile, p :: (gains.toList.flatMap Half.bytes) ++ [threshold] ++ nmin.bytes)
  | .addTap port l t k g => some (port, Code.addTap, [l, t, k] ++ g.bytes)
  | .removeTap port t => some (port, Code.removeTap, [t])
  | .listTaps port => some (port, Code.listTaps, [])
  | .defineClip port c base length fill k0 k1 =>
    some (port, Code.defineClip, c :: base.bytes ++ length.bytes ++ fill.bytes ++ [k0, k1])
  | .setKeys port c k0 k1 => some (port, Code.setKeys, [c, k0, k1])
  | .freeClip port c => some (port, Code.freeClip, [c])
  | .clipInfo port c => some (port, Code.clipInfo, [c])
  | .writePage port c index codes => some (port, Code.writePage, c :: index.bytes ++ codes.toList)
  | .readPage port c index => some (port, Code.readPage, c :: index.bytes)
  | .readFault port => some (port, Code.readFault, [])
  | .clearFault port => some (port, Code.clearFault, [])
  | .memoryStatus port => some (port, Code.memoryStatus, [])
  | .startStream port k l => some (port, Code.startStream, k :: l.bytes)
  | .loadStream port k l => some (port, Code.loadStream, k :: l.bytes)
  | .stopStream port k => some (port, Code.stopStream, [k])
  | .streamInfo port k c => some (port, Code.streamInfo, [k, flagByte c])
  | .whisper port p c g => some (port, Code.whisper, [p, c] ++ g.bytes)
  | .cancelWhisper port p => some (port, Code.cancelWhisper, [p])
  | .readEvent port => some (port, Code.readEvent, [])
  | .routeEvent port k c => some (port, Code.routeEvent, [k, c])
  | .maskEvents port m => some (port, Code.maskEvents, [m])
  | .pinReset => none
  | .startUpWordShifted _ => none
  | .startUpMemoryPreparationComplete => none
  | .cycle _ _ _ => none
  | .debounceCountExpiry _ => none
  | .frameCompletion => none
  | .syncLossMissingPulse => none
  | .fsPulse _ => none
  | .refreshTimerExpiry => none
  | .pageFetchCompletion _ => none
  | .portPageWriteCompletion => none
  | .portPageReadCompletion _ => none
  | .scrubStepCompletion _ => none
  | .ignoredRequestFrame _ => none
  | .unknownRequestCode _ _ => none

/-- The bytes of one request frame (R168, R178): code, length, payload. -/
def requestFrame (code : Byte) (payload : List Byte) : List Byte :=
  code :: Half.bytes (BitVec.ofNat 16 payload.length) ++ payload

/-- The port a request command goes to and the bytes of its frame. -/
def encodeRequest (i : Instr) : Option (Port × List Byte) :=
  match i.codeAndPayload with
  | some (port, code, payload) => some (port, requestFrame code payload)
  | none => none

/-- The command a word of spec/opcode_table.json spells: no row of that table gives bits, so no word
spells one. -/
def decodeTableWord (_nbits _w : Nat) : Option Instr := none

end Sys2Proof
end

