-- ==== Sys2Proof/Machine/State.lean ====
section
/-! DEFINITION. Everything the manual gives the part to hold, block by block (00_scope.md, "Block
overview"), the reasons a step can stop, and the part right after pin reset. INVENTORY.md lists each
piece with its rule and its reset value. -/

namespace Sys2Proof.Machine

/-- One value for each control port. -/
structure PerPort (α : Type) where
  cp0 : α
  cp1 : α
  deriving DecidableEq, Repr

/-- The value of a port. -/
def PerPort.cell {α : Type} (x : PerPort α) : Port → α
  | .cp0 => x.cp0
  | .cp1 => x.cp1

/-- The values with that of one port replaced. -/
def PerPort.put {α : Type} (x : PerPort α) (p : Port) (v : α) : PerPort α :=
  match p with
  | .cp0 => ⟨v, x.cp1⟩
  | .cp1 => ⟨x.cp0, v⟩

/-- How far the part has come since pin reset (R138, R169, R177). -/
inductive Phase where
  | shifting    -- the start-up word is being shifted in
  | preparing   -- start-up memory preparation runs
  | running
  deriving DecidableEq, Repr

/-! ## Highway interface (01_highways_and_sample_coding.md) -/

/-- The sync monitor (R9 to R12). LOST keeps the bit position of the last pulse, or none. LOCKED knows the
bit position at which the current cycle begins and the cycle counter, which has no value while LOST (R3). -/
inductive Sync where
  | lost (held : Option Nat)
  | locked (cycleStart : Nat) (cycle : Fin 32)
  deriving DecidableEq, Repr

/-- What the interface keeps for a bound timeslot: the position (R7), the codes received so far in this
frame, or none while the slot is not assembling one (R5, R8), and the transmit buffer (R6). -/
structure Line where
  position : Fin 64
  received : Option (List Byte)
  transmit : Table 32 Byte
  deriving DecidableEq, Repr

/-- A bound trunk timeslot also keeps the codes it has sent in this frame (R6). -/
structure TrunkLine where
  line : Line
  sent : List Byte
  deriving DecidableEq, Repr

/-- The debounced values of an agent timeslot and their counters, 0 to 23 (R18). A counter of 24 is one
whose expiry has still to be taken (log entry 7). -/
structure Debounce where
  present      : Bool
  mute         : Bool
  presentCount : Nat
  muteCount    : Nat
  deriving DecidableEq, Repr

/-- The highway interface. -/
structure Highway where
  sync         : Sync
  frameDue     : Bool                      -- cycle 31 has ended, its completion is to be taken (log entry 7)
  lockedBefore : Bool                      -- the monitor has been LOCKED since start-up (R12)
  firstFrame   : Bool                      -- the frame in progress is the first since LOCKED (R11, R67)
  stamp        : Wide                      -- the frame stamp (R20)
  agent        : Table 64 (Option Line)    -- none: the timeslot is bound to no position (R7)
  trunk        : Table 64 (Option TrunkLine)
  debounce     : Table 64 Debounce
  agentOut     : Table 64 (Option Byte)    -- AGT_TX in the last cycle; none: high impedance (R3, R7)
  trunkOut     : Table 64 (Option Byte)    -- TRK_TX in the last cycle
  deriving DecidableEq, Repr

/-! ## Position controller (02_agent_positions.md) -/

/-- The state of a position (R21). -/
inductive PositionState where
  | closed
  | idle
  | announce
  | connected
  | held
  deriving DecidableEq, Repr

/-- The mode of the echo canceller (R21, R78, R79). -/
inductive EcMode where
  | adapt
  | frozen
  | bypass
  deriving DecidableEq, Repr

/-- The statistics of a position (R21); each stops at its saturation value. -/
structure Stats where
  echoResets      : Nat
  clipped         : Nat
  doubleTalk      : Nat
  nlpFrames       : Nat
  whisperUnderrun : Nat
  deriving DecidableEq, Repr

/-- A position record (R21). -/
structure Position where
  state           : PositionState
  owner           : Option Port
  agentSlot       : Option (Fin 64)
  trunkSlot       : Option (Fin 64)
  stream          : Option (Fin 16)
  announcePending : Bool
  offer           : Bool                   -- outstanding to the port that is not the owner
  duck            : Nat
  profile         : Fin 4
  tail            : Nat
  mode            : EcMode
  step            : Nat                    -- step exponent m
  reg             : Nat                    -- regularisation exponent D
  hang            : Nat                    -- double-talk hangover H
  nlp             : Bool
  shift           : Nat                    -- NLP shift q
  stats           : Stats
  deriving DecidableEq, Repr

/-- Statistics all zero (R21). -/
def Stats.zero : Stats := ⟨0, 0, 0, 0, 0⟩

/-- The closed contents of R21. -/
def Position.closedContents : Position :=
  ⟨.closed, none, none, none, none, false, false, 8192, 2, 2, .adapt, 3, 20, 8, true, 5, Stats.zero⟩

/-! ## Noise suppressor (03_microphone_noise_suppression.md) -/

/-- A suppression profile (R57). -/
structure Profile where
  gains     : Table 16 Nat
  threshold : Nat
  nmin      : Nat
  deriving DecidableEq, Repr

/-- What the suppressor keeps for a position (R46, R55). -/
structure Suppressor where
  floor         : Nat
  index         : Nat
  gain          : Nat                      -- the previous gain g_prev
  firstFrame    : Bool
  send          : Frame
  speech        : Bool
  wasConnected  : Bool
  deriving DecidableEq, Repr

/-- The noise suppressor. -/
structure Suppression where
  positions : Table 64 Suppressor
  profiles  : Table 4 Profile
  deriving DecidableEq, Repr

/-- A frame of linear zeros. -/
def Frame.zero : Frame := Table.fill 32 0

/-- The suppressor state of a closed or newly opened position under a profile (R46). -/
def Suppressor.fresh (p : Profile) : Suppressor := ⟨p.nmin, 0, p.gains.cell 0, true, Frame.zero, false, false⟩

/-- The profiles at pin reset (R57). -/
def Profile.atReset : Table 4 Profile :=
  ⟨#[⟨⟨#[32768, 32768, 32768, 32768, 32768, 32768, 32768, 32768,
        32768, 32768, 32768, 32768, 32768, 32768, 32768, 32768], rfl⟩, 4, 512⟩,
     ⟨⟨#[16384, 16384, 20643, 26008, 32768, 32768, 32768, 32768,
        32768, 32768, 32768, 32768, 32768, 32768, 32768, 32768], rfl⟩, 3, 512⟩,
     ⟨⟨#[8192, 8192, 11585, 16384, 23170, 32768, 32768, 32768,
        32768, 32768, 32768, 32768, 32768, 32768, 32768, 32768], rfl⟩, 4, 512⟩,
     ⟨⟨#[3277, 4096, 6500, 10362, 16384, 26008, 32768, 32768,
        32768, 32768, 32768, 32768, 32768, 32768, 32768, 32768], rfl⟩, 5, 512⟩], rfl⟩

/-! ## Echo canceller (04_line_echo_cancellation.md) -/

/-- What the canceller keeps for a position: its segment list (R63) and the items of R66. -/
structure Canceller where
  segments   : List (Fin 128)
  history    : Table 512 Int               -- newest first
  power      : Nat
  window     : Nat
  hangover   : Nat
  divergence : Nat
  deriving DecidableEq, Repr

/-- The items of R66 all zero, over a segment list. -/
def Canceller.zeroed (segments : List (Fin 128)) : Canceller := ⟨segments, Table.fill 512 0, 0, 0, 0, 0⟩

/-- The echo canceller: coefficient memory, free-segment pool (in ascending order, without repeats) and
what it keeps for each position (R62, R63, R66). -/
structure Echo where
  coefficients : Table 128 (Table 128 Int)
  free         : List (Fin 128)
  positions    : Table 64 Canceller
  deriving DecidableEq, Repr

/-! ## Mixer and tap table (05_ear_and_line_mixing_monitor_and_coach_taps.md) -/

/-- The kind of a tap (R96). -/
inductive TapKind where
  | monitor
  | coach
  deriving DecidableEq, Repr

/-- A tap record (R96). -/
structure Tap where
  listener : Fin 64
  target   : Fin 64
  kind     : TapKind
  gain     : Nat
  owner    : Port
  deriving DecidableEq, Repr

/-- The mixer. -/
structure Mixer where
  taps      : Table 16 (Option Tap)        -- none: the entry is free
  coachDuck : Table 64 Nat                 -- coach-duck hangover (R93)
  deriving DecidableEq, Repr

/-! ## Clip store (06_the_clip_store.md) -/

/-- A clip key (R106). -/
inductive Key where
  | noAccess
  | play
  | playNote
  | write
  | writeNote
  deriving DecidableEq, Repr

/-- A clip descriptor (R104). -/
structure Clip where
  defined   : Bool
  owner     : Option Port
  base      : Nat
  length    : Nat
  fill      : Nat
  keys      : PerPort Key
  accessed  : Bool
  written   : Bool
  plays     : Nat
  writeBusy : Nat
  deriving DecidableEq, Repr

/-- The free contents of R104. -/
def Clip.freeContents : Clip := ⟨false, none, 0, 0, 0, ⟨.noAccess, .noAccess⟩, false, false, 0, 0⟩

/-- The kinds of fault a reference check can find (R113). -/
structure FaultKinds where
  undefined : Bool
  noAccess  : Bool
  length    : Bool
  readOnly  : Bool
  deriving DecidableEq, Repr

/-- A filled fault record (R121). -/
structure FaultRecord where
  kinds : FaultKinds
  clip  : Fin 256
  index : Option Nat
  code  : Byte
  stamp : Wide
  deriving DecidableEq, Repr

/-- The fault record of a port and its second-fault count (R121). -/
structure FaultState where
  record  : Option FaultRecord
  seconds : Nat
  deriving DecidableEq, Repr

/-- The clip store controller. -/
structure ClipStore where
  clips  : Table 256 Clip
  faults : PerPort FaultState
  deriving DecidableEq, Repr

/-! ## Memory arbiter, scrubber and DRAM (07_clip_memory_arbitration_and_scrubbing.md) -/

/-- A player: a stream player or a prompt player (R127). -/
inductive PlayerId where
  | stream (k : Fin 16)
  | prompt (w : Fin 16)
  deriving DecidableEq, Repr

/-- A waiting fetch request (R127). -/
structure Fetch where
  player     : PlayerId
  generation : Half
  page       : Nat
  index      : Nat
  deriving DecidableEq, Repr

/-- A port operation admitted by the clip store controller (R117, R119, R129). -/
inductive PortOp where
  | write (clip : Fin 256) (index page : Nat) (codes : PageCodes) (noted : Bool)
  | read (clip : Fin 256) (index page : Nat)
  deriving DecidableEq, Repr

/-- An operation on the bus (R124). -/
inductive BusOp where
  | fetch (f : Fetch)
  | port (p : Port) (op : PortOp)
  | scrub
  deriving DecidableEq, Repr

/-- The error an ECC word holds (R133). -/
inductive Flaw where
  | correctable
  | uncorrectable
  deriving DecidableEq, Repr

/-- The memory arbiter and scrubber. -/
structure Arbiter where
  bus           : Option BusOp             -- none: free
  queue         : List Fetch               -- the playout fetch queue, oldest first
  pendingOps    : PerPort (Option PortOp)
  alternation   : Port
  owed          : Nat                      -- refresh owed count
  scrubPointer  : Nat
  badPages      : List Nat                 -- oldest detection first
  correctable   : Nat
  uncorrectable : Nat
  passes        : Nat
  deriving DecidableEq, Repr

/-- The clip DRAM. `cells` are the bytes that differ from the silence code, by rising address; `flaws` are
the ECC words in error, by rising word number (log entries 5 and 13). -/
structure Memory where
  cells : List Host.Cell
  flaws : List (Nat × Flaw)
  deriving DecidableEq, Repr

/-! ## Stream players (08_hold_streams_and_playlists.md) -/

/-- The state of a stream (R140). -/
inductive StreamState where
  | stopped
  | running
  | ended
  deriving DecidableEq, Repr

/-- An item of a stored playlist (R141). -/
structure Item where
  clip : Fin 256
  gain : Nat
  deriving DecidableEq, Repr

/-- A loop of a stored playlist (R141). -/
structure Loop where
  enabled : Bool
  top     : Nat
  bottom  : Nat
  count   : Nat
  deriving DecidableEq, Repr

/-- A playlist as stored (R141). -/
structure Playlist where
  items : List Item
  inner : Loop
  outer : Loop
  deriving DecidableEq, Repr

/-- The fetch cursor of a stream (R140). -/
inductive FetchCursor where
  | absent
  | page (item index : Nat)
  | undecided
  | exhausted
  deriving DecidableEq, Repr

/-- A page in a slot of a stream (R140); `item` and `index` say where it stands for the play cursor. -/
structure StreamPage where
  codes   : PageCodes
  samples : Nat
  gain    : Nat
  item    : Nat
  index   : Nat
  deriving DecidableEq, Repr

/-- The next slot of a stream (R140); an awaited page is of a playlist item (R151). -/
inductive StreamNext where
  | empty
  | awaited (item : Nat)
  | filled (page : StreamPage)
  deriving DecidableEq, Repr

/-- The playing slot of a stream: a page and how many of its samples are played (R140). -/
structure StreamPlaying where
  page   : StreamPage
  played : Nat
  deriving DecidableEq, Repr

/-- A stream player (R140). -/
structure Stream where
  state           : StreamState
  owner           : Option Port
  generation      : Half
  current         : Option Playlist
  staged          : Option Playlist
  inner           : Nat                    -- inner remainder
  outer           : Nat                    -- outer remainder
  cursor          : FetchCursor
  next            : StreamNext
  playing         : Option StreamPlaying
  priming         : Bool
  underrun        : Bool
  listeners       : Nat
  underrunSamples : Nat
  deriving DecidableEq, Repr

/-- A stream player at pin reset (R140). -/
def Stream.atReset : Stream :=
  ⟨.stopped, none, 0, none, none, 1, 1, .absent, .empty, none, false, false, 0, 0⟩

/-! ## Whisper block (09_whisper_queues_and_prompt_players.md) -/

/-- The kind of a whisper entry (R157). -/
inductive EntryKind where
  | prompt
  | announce
  deriving DecidableEq, Repr

/-- The phase of a whisper entry (R157). -/
inductive EntryPhase where
  | waiting
  | priming
  | sounding
  deriving DecidableEq, Repr

/-- A whisper entry (R157). -/
structure Entry where
  clip    : Fin 256
  gain    : Nat
  origin  : Port
  kind    : EntryKind
  arrival : Wide
  phase   : EntryPhase
  deriving DecidableEq, Repr

/-- The fetch cursor of a prompt player (R162). -/
inductive PromptCursor where
  | absent
  | page (index : Nat)
  | done
  deriving DecidableEq, Repr

/-- A page in a slot of a prompt player (R162). -/
structure PromptPage where
  codes   : PageCodes
  samples : Nat
  deriving DecidableEq, Repr

/-- The next slot of a prompt player (R162). -/
inductive PromptNext where
  | empty
  | awaited
  | filled (page : PromptPage)
  deriving DecidableEq, Repr

/-- The playing slot of a prompt player (R162). -/
structure PromptPlaying where
  page   : PromptPage
  played : Nat
  deriving DecidableEq, Repr

/-- A prompt player (R162). -/
structure PromptPlayer where
  assigned   : Option (Fin 64)             -- none: free
  generation : Half
  cursor     : PromptCursor
  next       : PromptNext
  playing    : Option PromptPlaying
  deriving DecidableEq, Repr

/-- A prompt player at pin reset (R162). -/
def PromptPlayer.atReset : PromptPlayer := ⟨none, 0, .absent, .empty, none⟩

/-- The whisper block. -/
structure Whisper where
  queues  : Table 64 (List Entry)          -- head first
  arrival : Wide                           -- the arrival counter
  players : Table 16 PromptPlayer
  deriving DecidableEq, Repr

/-! ## Control ports (10_control_ports.md) -/

/-- The reply statuses (00_scope.md, "Reply status names"; R178). -/
inductive Status where
  | ok
  | starting
  | badRequest
  | badArg
  | notOwner
  | state
  | slotTaken
  | noSegments
  | queueFull
  | inUse
  | clipFault
  | overlap
  | tapLimit
  | empty
  | portOff
  deriving DecidableEq, Repr

/-- A reply: status, echoed code, payload (R170). -/
structure Reply where
  status  : Status
  code    : Byte
  payload : List Byte
  deriving DecidableEq, Repr

/-- What a control port keeps (R169, R171, R172). -/
structure PortState where
  ready     : Bool
  inFlight  : Option Byte                  -- the code of the request taken and not yet replied to
  lastReply : Option Reply
  ignored   : Nat
  deriving DecidableEq, Repr

/-! ## Event router (11_events_and_statistics.md) -/

/-- The 21 kinds of event record (R178, R179). -/
inductive EventKind where
  | syncLost
  | syncRestored
  | memUncorrectable
  | badListFull
  | peerReset
  | announceDone
  | handoverOffer
  | handoverTaken
  | positionInherited
  | headsetChange
  | ecReset
  | promptDone
  | promptFlushed
  | streamEnded
  | streamSwitched
  | streamLost
  | streamUnderrun
  | tapOn
  | tapDropped
  | clipPlayed
  | clipWritten
  deriving DecidableEq, Repr

/-- An event record (R179). -/
structure Record where
  kind   : EventKind
  cls    : Fin 8
  object : Half
  detail : Half
  stamp  : Wide
  deriving DecidableEq, Repr

/-- What the event router keeps for a port (R180 to R182): the store, oldest first; the class of each
kind, in the order of the kind codes; the mask, whose set bits mask classes; the lost count. -/
structure EventState where
  store   : List Record
  classes : Table 21 (Fin 8)
  mask    : Byte
  lost    : Nat
  deriving DecidableEq, Repr

/-- The default classes of R179, in the order of the kind codes. -/
def EventState.defaultClasses : Table 21 (Fin 8) :=
  ⟨#[0, 0, 0, 0, 0, 1, 1, 1, 1, 1, 2, 3, 3, 4, 4, 4, 4, 5, 5, 6, 6], rfl⟩

/-- The event state of a port after pin reset and after RESET PORT (R185). -/
def EventState.atReset : EventState := ⟨[], EventState.defaultClasses, 0, 0⟩

/-! ## The whole part -/

/-- Everything the part holds, and the commands that wait. -/
structure State where
  phase     : Phase
  startUp   : StartUp
  highway   : Highway
  positions : Table 64 Position
  suppress  : Suppression
  echo      : Echo
  mixer     : Mixer
  clipStore : ClipStore
  arbiter   : Arbiter
  memory    : Memory
  streams   : Table 16 Stream
  whisper   : Whisper
  ports     : PerPort PortState
  events    : PerPort EventState
  freeCount : Nat                          -- free values drawn so far: the model's own (log entry 14)
  pending   : List Instr                   -- the commands that wait, first in first out (log entry 1)
  deriving DecidableEq, Repr

/-- Why the part can stop. -/
inductive Fault where
  /-- Raised by the completion of a page fetch, page write, page read or scrub step for a page at or beyond
  the page count, an address that does not exist (R124). Safe: the model stops; no run from reset reaches
  it, since every clip lies below the page count (R105). Log entry 24. -/
  | noSuchPage (page : Nat)
  deriving DecidableEq, Repr

/-- Why a command can be refused. -/
inductive Refusal where
  /-- Raised only by an arm of exec that has no meaning yet. Safe: the model stops. No arm uses it. -/
  | notModelled (mnemonic : String)
  deriving DecidableEq, Repr

/-! ## Pin reset -/

/-- The start-up items before the word is shifted in: those of the word 0. DESIGN CHOICE, log entry 4. -/
def StartUp.beforeWord : StartUp := ⟨.mu, .alternate, .mib4, false, .slow⟩

/-- The highway interface at pin reset (01, section 1.10). -/
def Highway.atReset : Highway where
  sync := .lost none
  frameDue := false
  lockedBefore := false
  firstFrame := false
  stamp := 0
  agent := Table.fill 64 none
  trunk := Table.fill 64 none
  debounce := Table.fill 64 ⟨false, false, 0, 0⟩
  agentOut := Table.fill 64 none
  trunkOut := Table.fill 64 none

/-- The noise suppressor at pin reset (03, section 3.13). -/
def Suppression.atReset : Suppression :=
  ⟨Table.fill 64 (Suppressor.fresh (Profile.atReset.cell 2)), Profile.atReset⟩

/-- The echo canceller at pin reset (04, section 4.12). -/
def Echo.atReset : Echo :=
  ⟨Table.fill 128 (Table.fill 128 0), List.finRange 128, Table.fill 64 (Canceller.zeroed [])⟩

/-- The memory arbiter at pin reset (07, section 7.10). -/
def Arbiter.atReset : Arbiter := ⟨none, [], ⟨none, none⟩, .cp1, 0, 0, [], 0, 0, 0⟩

/-- A control port at pin reset (10, section 10.7). -/
def PortState.atReset : PortState := ⟨false, none, none, 0⟩

/-- The part right after pin reset: RESET is released and the start-up word is to be shifted in (R177). -/
def State.reset : State where
  phase := .shifting
  startUp := StartUp.beforeWord
  highway := Highway.atReset
  positions := Table.fill 64 Position.closedContents
  suppress := Suppression.atReset
  echo := Echo.atReset
  mixer := ⟨Table.fill 16 none, Table.fill 64 0⟩
  clipStore := ⟨Table.fill 256 Clip.freeContents, ⟨⟨none, 0⟩, ⟨none, 0⟩⟩⟩
  arbiter := Arbiter.atReset
  memory := ⟨[], []⟩
  streams := Table.fill 16 Stream.atReset
  whisper := ⟨Table.fill 64 [], 0, Table.fill 16 PromptPlayer.atReset⟩
  ports := ⟨PortState.atReset, PortState.atReset⟩
  events := ⟨EventState.atReset, EventState.atReset⟩
  freeCount := 0
  pending := []

end Sys2Proof.Machine
end

