-- ==== Sys2Proof/Machine/Operands.lean ====
section
/-! DEFINITION. What the operands of requests and the samples of frames mean: gains, saturation, the two
companding laws, the codes of R178. -/

namespace Sys2Proof.Machine

/-! ## Gains, sums and bit lengths (00_scope.md) -/

/-- A right shift is arithmetic, a floor for negative values (R2). -/
def shiftRight (x : Int) (n : Nat) : Int := x >>> n

/-- A gain above 32768 is stored as 32768 (R1). -/
def clampGain (g : Nat) : Nat := min g 32768

/-- Applying gain `g` to sample `s`: s·g + 16384, shifted arithmetically right by 15 (R1). -/
def applyGain (g : Nat) (s : Int) : Int := shiftRight (s * (g : Int) + 16384) 15

/-- Saturation to −32768..32767 (R2). -/
def saturate (x : Int) : Int := max (-32768) (min 32767 x)

/-- Whether saturation changes a sum (R2, R89). -/
def clips (x : Int) : Bool := x < -32768 || 32767 < x

/-- The number of binary digits of a non-negative integer, with bitlen(0) = 0 (R2). -/
def bitlen (v : Nat) : Nat := if v = 0 then 0 else Nat.log2 v + 1

/-- A counter that stops at its saturation value (R21, section 11.4). -/
def satAdd (limit n k : Nat) : Nat := min limit (n + k)

/-- The saturation value of a 32-bit counter. -/
def max32 : Nat := 4294967295

/-- The saturation value of a 16-bit counter. -/
def max16 : Nat := 65535

/-- The saturation value of an 8-bit counter. -/
def max8 : Nat := 255

/-- A tuning parameter out of range takes its nearest legal value (00_scope.md, "Clamping and refusal"). -/
def clampTo (low high n : Nat) : Nat := max low (min high n)

/-! ## Companding (R13 to R17) -/

/-- The silence code of a law (R13). -/
def silenceCode : Law → Byte
  | .mu => 0xFF
  | .a => 0xD5

/-- μ-law compression (R14). -/
def muCompress (s : Int) : Byte :=
  let sign := if s < 0 then 1 else 0
  let magnitude := min s.natAbs 32635 + 132
  let exponent := Nat.log2 magnitude - 7
  let mantissa := (magnitude >>> (exponent + 3)) % 16
  ~~~ (BitVec.ofNat 8 (sign * 128 + exponent * 16 + mantissa))

/-- μ-law expansion (R15). -/
def muExpand (code : Byte) : Int :=
  let c := (~~~ code).toNat
  let exponent := (c / 16) % 8
  let mantissa := c % 16
  let value : Int := (((mantissa * 8 + 132) <<< exponent : Nat) : Int) - 132
  if c / 128 = 1 then -value else value

/-- The smallest segment whose bound is at least `p` (R16); 8 when `p` exceeds every bound. -/
def aSegment (p : Nat) : Nat :=
  if p ≤ 31 then 0 else if p ≤ 63 then 1 else if p ≤ 127 then 2 else if p ≤ 255 then 3
  else if p ≤ 511 then 4 else if p ≤ 1023 then 5 else if p ≤ 2047 then 6 else if p ≤ 4095 then 7 else 8

/-- A-law compression (R16). -/
def aCompress (s : Int) : Byte :=
  let q := shiftRight s 3
  let p : Nat := if q < 0 then (-q - 1).toNat else q.toNat
  let mask : Byte := if q < 0 then 0x55 else 0xD5
  let segment := aSegment p
  let value : Nat :=
    if segment = 8 then 0x7F
    else if segment ≤ 1 then segment * 16 + (p >>> 1) % 16
    else segment * 16 + (p >>> segment) % 16
  BitVec.ofNat 8 value ^^^ mask

/-- A-law expansion (R17). -/
def aExpand (code : Byte) : Int :=
  let a := (code ^^^ 0x55).toNat
  let segment := (a / 16) % 8
  let t := (a % 16) * 16
  let value : Nat := if segment = 0 then t + 8 else (t + 264) <<< (segment - 1)
  if a / 128 = 1 then (value : Int) else -(value : Int)

/-- Compression under a law. -/
def compress (l : Law) (s : Int) : Byte :=
  match l with
  | .mu => muCompress s
  | .a => aCompress s

/-- Expansion under a law. -/
def expand (l : Law) (c : Byte) : Int :=
  match l with
  | .mu => muExpand c
  | .a => aExpand c

/-! ## Object numbers and enumerated codes (R178) -/

/-- A clip number: every byte names one of the 256 clips (R104). -/
def clipNumber (b : Byte) : Fin 256 := ⟨b.toNat, b.isLt⟩

/-- The two lowest bits of a profile number (R24, R34). -/
def profileNumber (b : Byte) : Fin 4 := ⟨b.toNat % 4, Nat.mod_lt _ (by decide)⟩

/-- The number of an object as a byte. -/
def numberByte {n : Nat} (i : Fin n) : Byte := BitVec.ofNat 8 i.val

/-- A count up to 255 as a byte. -/
def countByte (n : Nat) : Byte := BitVec.ofNat 8 n

/-- A quantity as a two-byte field. -/
def halfOf (n : Nat) : Half := BitVec.ofNat 16 n

/-- A quantity as a four-byte field. -/
def wideOf (n : Nat) : Wide := BitVec.ofNat 32 n

/-- A port as a number (R178). -/
def Port.number : Port → Nat
  | .cp0 => 0
  | .cp1 => 1

/-- A port or owner code: 0 CP0, 1 CP1, 0xFF none (R178). -/
def ownerByte : Option Port → Byte
  | some p => countByte (Port.number p)
  | none => 0xFF

/-- An EC mode from its code (R178). -/
def ecMode? (b : Byte) : Option EcMode :=
  if b = 0 then some .adapt else if b = 1 then some .frozen else if b = 2 then some .bypass else none

/-- The code of an EC mode (R178). -/
def ecModeByte : EcMode → Byte
  | .adapt => 0
  | .frozen => 1
  | .bypass => 2

/-- A key from its code (R178). -/
def key? (b : Byte) : Option Key :=
  if b = 0 then some .noAccess else if b = 1 then some .play else if b = 2 then some .playNote
  else if b = 3 then some .write else if b = 4 then some .writeNote else none

/-- The code of a key (R178). -/
def keyByte : Key → Byte
  | .noAccess => 0
  | .play => 1
  | .playNote => 2
  | .write => 3
  | .writeNote => 4

/-- A tap kind from its code (R178). -/
def tapKind? (b : Byte) : Option TapKind :=
  if b = 0 then some .monitor else if b = 1 then some .coach else none

/-- The code of a tap kind (R178). -/
def tapKindNumber : TapKind → Nat
  | .monitor => 0
  | .coach => 1

/-- The code of a position state (R178). -/
def positionStateByte : PositionState → Byte
  | .closed => 0
  | .idle => 1
  | .announce => 2
  | .connected => 3
  | .held => 4

/-- The code of a stream state (R178). -/
def streamStateByte : StreamState → Byte
  | .stopped => 0
  | .running => 1
  | .ended => 2

/-- The code of a status (R178). -/
def statusByte : Status → Byte
  | .ok => 0x00
  | .starting => 0x01
  | .badRequest => 0x02
  | .badArg => 0x03
  | .notOwner => 0x04
  | .state => 0x05
  | .slotTaken => 0x06
  | .noSegments => 0x07
  | .queueFull => 0x08
  | .inUse => 0x09
  | .clipFault => 0x0A
  | .overlap => 0x0B
  | .tapLimit => 0x0C
  | .empty => 0x0D
  | .portOff => 0x0E

/-- Whether a position is in a call: ANNOUNCE, CONNECTED or HELD (R21). -/
def PositionState.inCall : PositionState → Bool
  | .announce => true
  | .connected => true
  | .held => true
  | .closed => false
  | .idle => false

/-! ## Keys (R106) -/

/-- The keys under which a write is permitted. -/
def Key.permitsWrite : Key → Bool
  | .write => true
  | .writeNote => true
  | .noAccess => false
  | .play => false
  | .playNote => false

/-! ## The start-up word (R177) -/

/-- The items the start-up word fixes. -/
def startUpOf (word : Half) : StartUp where
  law := if word.getLsbD 0 then .a else .mu
  fairness := if word.getLsbD 1 then .cp0First else .alternate
  memorySize := if word.getLsbD 3 then .mib16 else if word.getLsbD 2 then .mib8 else .mib4
  cp1Enabled := word.getLsbD 4
  refresh := if word.getLsbD 5 then .fast else .slow

end Sys2Proof.Machine
end

