-- ==== Sys2Proof/Machine/Ops.lean ====
section
/-! DEFINITION. The named operations on the state: reading and replacing one record of a block, clip
memory, and the drawing of free values. -/

namespace Sys2Proof.Machine

/-! ## Records of the blocks -/

/-- A position record. -/
def State.pos (s : State) (p : Fin 64) : Position := s.positions.cell p

/-- The state with a position record replaced. -/
def State.setPos (s : State) (p : Fin 64) (x : Position) : State :=
  { s with positions := s.positions.put p x }

/-- The suppressor state of a position. -/
def State.suppressor (s : State) (p : Fin 64) : Suppressor := s.suppress.positions.cell p

/-- The state with the suppressor state of a position replaced. -/
def State.setSuppressor (s : State) (p : Fin 64) (x : Suppressor) : State :=
  { s with suppress := { s.suppress with positions := s.suppress.positions.put p x } }

/-- A suppression profile. -/
def State.profile (s : State) (n : Fin 4) : Profile := s.suppress.profiles.cell n

/-- What the canceller keeps for a position. -/
def State.canceller (s : State) (p : Fin 64) : Canceller := s.echo.positions.cell p

/-- The state with what the canceller keeps for a position replaced. -/
def State.setCanceller (s : State) (p : Fin 64) (x : Canceller) : State :=
  { s with echo := { s.echo with positions := s.echo.positions.put p x } }

/-- A tap table entry. -/
def State.tap (s : State) (t : Fin 16) : Option Tap := s.mixer.taps.cell t

/-- The state with a tap table entry replaced. -/
def State.setTap (s : State) (t : Fin 16) (x : Option Tap) : State :=
  { s with mixer := { s.mixer with taps := s.mixer.taps.put t x } }

/-- The coach-duck hangover of a position. -/
def State.coachDuck (s : State) (p : Fin 64) : Nat := s.mixer.coachDuck.cell p

/-- The state with a coach-duck hangover replaced. -/
def State.setCoachDuck (s : State) (p : Fin 64) (n : Nat) : State :=
  { s with mixer := { s.mixer with coachDuck := s.mixer.coachDuck.put p n } }

/-- A clip descriptor. -/
def State.clip (s : State) (c : Fin 256) : Clip := s.clipStore.clips.cell c

/-- The state with a clip descriptor replaced. -/
def State.setClip (s : State) (c : Fin 256) (x : Clip) : State :=
  { s with clipStore := { s.clipStore with clips := s.clipStore.clips.put c x } }

/-- The fault record and second-fault count of a port. -/
def State.fault (s : State) (p : Port) : FaultState := s.clipStore.faults.cell p

/-- The state with a port's fault record and second-fault count replaced. -/
def State.setFault (s : State) (p : Port) (x : FaultState) : State :=
  { s with clipStore := { s.clipStore with faults := s.clipStore.faults.put p x } }

/-- A stream player. -/
def State.stream (s : State) (k : Fin 16) : Stream := s.streams.cell k

/-- The state with a stream player replaced. -/
def State.setStream (s : State) (k : Fin 16) (x : Stream) : State :=
  { s with streams := s.streams.put k x }

/-- The whisper queue of a position. -/
def State.queue (s : State) (p : Fin 64) : List Entry := s.whisper.queues.cell p

/-- The state with a whisper queue replaced. -/
def State.setQueue (s : State) (p : Fin 64) (q : List Entry) : State :=
  { s with whisper := { s.whisper with queues := s.whisper.queues.put p q } }

/-- A prompt player. -/
def State.player (s : State) (w : Fin 16) : PromptPlayer := s.whisper.players.cell w

/-- The state with a prompt player replaced. -/
def State.setPlayer (s : State) (w : Fin 16) (x : PromptPlayer) : State :=
  { s with whisper := { s.whisper with players := s.whisper.players.put w x } }

/-- What a control port keeps. -/
def State.port (s : State) (p : Port) : PortState := s.ports.cell p

/-- The state with what a control port keeps replaced. -/
def State.setPort (s : State) (p : Port) (x : PortState) : State :=
  { s with ports := s.ports.put p x }

/-- What the event router keeps for a port. -/
def State.eventsOf (s : State) (p : Port) : EventState := s.events.cell p

/-- The state with what the event router keeps for a port replaced. -/
def State.setEvents (s : State) (p : Port) (x : EventState) : State :=
  { s with events := s.events.put p x }

/-- The state with the memory arbiter replaced. -/
def State.setArbiter (s : State) (x : Arbiter) : State := { s with arbiter := x }

/-- The state with clip memory replaced. -/
def State.setMemory (s : State) (x : Memory) : State := { s with memory := x }

/-- The state with an agent timeslot's line replaced. -/
def State.setAgentLine (s : State) (a : Fin 64) (x : Option Line) : State :=
  { s with highway := { s.highway with agent := s.highway.agent.put a x } }

/-- The state with a trunk timeslot's line replaced. -/
def State.setTrunkLine (s : State) (t : Fin 64) (x : Option TrunkLine) : State :=
  { s with highway := { s.highway with trunk := s.highway.trunk.put t x } }

/-! ## What the start-up word fixes -/

/-- The companding law in force (R13). -/
def State.law (s : State) : Law := s.startUp.law

/-- The page count of the memory size in force (R105). -/
def State.pageCount (s : State) : Nat := s.startUp.memorySize.pages

/-- Whether a port is enabled: CP0 always is, CP1 as the start-up word says (R174). -/
def State.enabled (s : State) : Port → Bool
  | .cp0 => true
  | .cp1 => s.startUp.cp1Enabled

/-- The code of silence in force (R13). -/
def State.silence (s : State) : Byte := silenceCode s.law

/-! ## Timeslot bindings (R7, R8) -/

/-- A newly bound timeslot: it is driven with the silence code and assembles no frame until the next frame
begins (R5, R6, R8). -/
def freshLine (silence : Byte) (p : Fin 64) : Line := ⟨p, none, Table.fill 32 silence⟩

/-- Binding an agent timeslot to a position. -/
def State.bindAgent (s : State) (a p : Fin 64) : State := s.setAgentLine a (some (freshLine s.silence p))

/-- Binding a trunk timeslot to a position. -/
def State.bindTrunk (s : State) (t p : Fin 64) : State := s.setTrunkLine t (some ⟨freshLine s.silence p, []⟩)

/-- Unbinding an agent timeslot: its buffers are discarded (R8). -/
def State.unbindAgent (s : State) (a : Option (Fin 64)) : State :=
  match a with
  | some a => s.setAgentLine a none
  | none => s

/-- Unbinding a trunk timeslot. -/
def State.unbindTrunk (s : State) (t : Option (Fin 64)) : State :=
  match t with
  | some t => s.setTrunkLine t none
  | none => s

/-! ## Assembled frames (R4, R5) -/

/-- The frame a receive buffer hands over: the expansion of its 32 codes, or none when the slot assembled no
frame. -/
def heard (l : Law) (received : Option (List Byte)) : Option Frame :=
  match received with
  | some codes => if codes.length = 32 then some (Table.ofList 32 0 (codes.map (expand l))) else none
  | none => none

/-- The line of a position's agent timeslot. -/
def State.agentLine (s : State) (p : Fin 64) : Option Line :=
  match (s.pos p).agentSlot with
  | some a => s.highway.agent.cell a
  | none => none

/-- The line of a position's trunk timeslot. -/
def State.trunkLine (s : State) (p : Fin 64) : Option TrunkLine :=
  match (s.pos p).trunkSlot with
  | some t => s.highway.trunk.cell t
  | none => none

/-- The microphone frame a position's agent timeslot hands over. -/
def State.microphone (s : State) (p : Fin 64) : Option Frame :=
  match s.agentLine p with
  | some x => heard s.law x.received
  | none => none

/-- The frame a position's trunk timeslot received, and the expansion of the codes sent on it (R4, R6). -/
def State.lineFrames (s : State) (p : Fin 64) : Option (Frame × Frame) :=
  match s.trunkLine p with
  | some x =>
    match heard s.law x.line.received with
    | some d => some (d, Table.ofList 32 0 (x.sent.map (expand s.law)))
    | none => none
  | none => none

/-- The debounced values of a position's agent timeslot. -/
def State.headset (s : State) (p : Fin 64) : Option Debounce :=
  match (s.pos p).agentSlot with
  | some a => some (s.highway.debounce.cell a)
  | none => none

/-- The PRESENT value of a position's agent timeslot. -/
def State.headsetPresent (s : State) (p : Fin 64) : Bool :=
  match s.headset p with
  | some d => d.present
  | none => false

/-- The MUTE value of a position's agent timeslot. -/
def State.headsetMuted (s : State) (p : Fin 64) : Bool :=
  match s.headset p with
  | some d => d.mute
  | none => false

/-! ## Clip memory -/

/-- What a byte of clip memory reads as. A byte that is not listed reads as the silence code that start-up
memory preparation wrote (R13, R138; log entry 5). -/
def Memory.readByte (silence : Byte) (m : Memory) (a : Nat) : Byte :=
  match m.cells.find? (fun c => c.1 == a) with
  | some c => c.2
  | none => silence

/-- The bytes of a run, less those equal to the silence code. -/
def runCells (silence : Byte) : Nat → List Byte → List Host.Cell
  | _, [] => []
  | a, b :: bs => if b = silence then runCells silence (a + 1) bs else (a, b) :: runCells silence (a + 1) bs

/-- Writing a run of bytes from an address on. -/
def Memory.writeRun (silence : Byte) (m : Memory) (a : Nat) (bs : List Byte) : Memory :=
  { m with cells := m.cells.filter (fun c => c.1 < a) ++ runCells silence a bs
      ++ m.cells.filter (fun c => a + bs.length ≤ c.1) }

/-- The 256 codes of a page (R124). -/
def Memory.readPage (silence : Byte) (m : Memory) (page : Nat) : PageCodes :=
  Table.build fun i => m.readByte silence (256 * page + i.val)

/-- The error of an ECC word; words are numbered 32 to a page (R124). -/
def Memory.flaw (m : Memory) (w : Nat) : Option Flaw :=
  match m.flaws.find? (fun f => f.1 == w) with
  | some f => some f.2
  | none => none

/-- Setting or clearing the error of an ECC word. -/
def Memory.setFlaw (m : Memory) (w : Nat) (f : Option Flaw) : Memory :=
  { m with flaws := m.flaws.filter (fun x => x.1 < w) ++ (match f with | some f => [(w, f)] | none => [])
      ++ m.flaws.filter (fun x => w < x.1) }

/-- Clearing the errors of a page. -/
def Memory.clearFlaws (m : Memory) (page : Nat) : Memory :=
  { m with flaws := m.flaws.filter fun x => x.1 < 32 * page || 32 * page + 32 ≤ x.1 }

/-- Writing a page with fresh check bits (R130). -/
def Memory.writePage (silence : Byte) (m : Memory) (page : Nat) (codes : PageCodes) : Memory :=
  (m.writeRun silence (256 * page) codes.toList).clearFlaws page

/-- Addresses of a list strictly rise. -/
def rising : List Nat → Bool
  | a :: b :: rest => a < b && rising (b :: rest)
  | _ => true

/-- The canonical form of clip memory: addresses strictly rise, no listed byte is the silence code, and the
words in error are listed by rising number. -/
def Memory.wf (silence : Byte) (m : Memory) : Bool :=
  rising (m.cells.map Prod.fst) && m.cells.all (fun c => c.2 != silence) && rising (m.flaws.map Prod.fst)

/-! ## Free values -/

/-- Bytes whose values the manual leaves open (log entry 14). -/
def State.freeBytes (s : State) (n : Nat) : List Byte := (List.range n).map fun i => Config.freeByte (s.freeCount + i)

/-- The state after `n` free bytes have been drawn. -/
def State.drawn (s : State) (n : Nat) : State := { s with freeCount := s.freeCount + n }

end Sys2Proof.Machine
end

