-- ==== Sys2Proof/Machine/Flags.lean ====
section
/-! DEFINITION. The event router: filing records, the class mask and the ATTN lines
(11_events_and_statistics.md). -/

namespace Sys2Proof.Machine

/-- The code of an event kind (R178). -/
def EventKind.code : EventKind → Nat
  | .syncLost => 0x01
  | .syncRestored => 0x02
  | .memUncorrectable => 0x03
  | .badListFull => 0x04
  | .peerReset => 0x05
  | .announceDone => 0x06
  | .handoverOffer => 0x07
  | .handoverTaken => 0x08
  | .positionInherited => 0x09
  | .headsetChange => 0x0A
  | .ecReset => 0x0B
  | .promptDone => 0x0C
  | .promptFlushed => 0x0D
  | .streamEnded => 0x0E
  | .streamSwitched => 0x0F
  | .streamLost => 0x10
  | .streamUnderrun => 0x11
  | .tapOn => 0x12
  | .tapDropped => 0x13
  | .clipPlayed => 0x14
  | .clipWritten => 0x15

/-- The class a port's table gives a kind (R180). -/
def EventState.classOf (e : EventState) (k : EventKind) : Fin 8 := e.classes.nth (k.code - 1) 0

/-- Whether a class is masked (R181). -/
def EventState.masked (e : EventState) (c : Fin 8) : Bool := e.mask.getLsbD c.val

/-- The list without its first member that satisfies a test. -/
def dropFirst {α : Type} (p : α → Bool) : List α → List α
  | [] => []
  | x :: xs => if p x then xs else x :: dropFirst p xs

/-- Filing a record (R182): it joins a store of fewer than 32; in a full store it displaces the oldest
record of a masked class, or is discarded; either way a record is lost. -/
def EventState.store1 (e : EventState) (r : Record) : EventState :=
  if e.store.length < 32 then { e with store := e.store ++ [r] }
  else if e.store.any (fun x => e.masked x.cls) then
    { e with store := dropFirst (fun x => e.masked x.cls) e.store ++ [r], lost := satAdd max16 e.lost 1 }
  else { e with lost := satAdd max16 e.lost 1 }

/-- Filing one event for a port: no record is made for a disabled port (R174, R179). -/
def State.file (s : State) (p : Port) (k : EventKind) (object detail : Nat) : State :=
  if s.enabled p then
    s.setEvents p ((s.eventsOf p).store1
      ⟨k, (s.eventsOf p).classOf k, halfOf object, halfOf detail, s.highway.stamp⟩)
  else s

/-- Filing one event for each enabled port (R179). -/
def State.fileBoth (s : State) (k : EventKind) (object detail : Nat) : State :=
  (s.file .cp0 k object detail).file .cp1 k object detail

/-- Filing one event for the owner of an object, when it has one. -/
def State.fileOwner (s : State) (o : Option Port) (k : EventKind) (object detail : Nat) : State :=
  match o with
  | some p => s.file p k object detail
  | none => s

/-- Whether a store holds a record of an unmasked class (R173, R183). -/
def EventState.unmaskedPresent (e : EventState) : Bool := e.store.any fun r => !e.masked r.cls

/-- CPn_ATTN (R173): low until the part runs and on a disabled port, and otherwise high while the store
holds a record of an unmasked class. -/
def State.attn (s : State) (p : Port) : Bool :=
  (match s.phase with | .running => true | .shifting => false | .preparing => false)
    && s.enabled p && (s.eventsOf p).unmaskedPresent

/-- The lowest unmasked class present, and its oldest record (R183). -/
def EventState.pick (e : EventState) : Option Record :=
  (List.finRange 8).findSome? fun c => if e.masked c then none else e.store.find? fun r => r.cls = c

/-- A store without the oldest record of a class (R183). -/
def EventState.removeOldest (e : EventState) (c : Fin 8) : EventState :=
  { e with store := dropFirst (fun r => r.cls = c) e.store }

/-- The bytes of an event record (R178). -/
def Record.bytes (r : Record) : List Byte :=
  [countByte r.kind.code, numberByte r.cls] ++ r.object.bytes ++ r.detail.bytes ++ r.stamp.bytes

/-- One bit of an event's detail. -/
def detailBit (b : Bool) (n : Nat) : Nat := if b then 2 ^ n else 0

end Sys2Proof.Machine
end

