-- ==== Sys2Proof/Machine/Requests.lean ====
section
/-! DEFINITION. How a control port takes a request frame and makes its reply (R169 to R172), and the order
of a request's checks (R22, R170). -/

namespace Sys2Proof.Machine

/-- Taking a request: READY falls, the last reply is given up, the request is in flight (R169, R172). -/
def State.taken (s : State) (p : Port) (code : Byte) : State :=
  s.setPort p { s.port p with ready := false, inFlight := some code, lastReply := none }

/-- Making the reply of the request in flight: it becomes the last reply, with the code echoed, and READY
rises (R169 to R172). A reply whose status is not OK carries no payload. -/
def State.answer (s : State) (p : Port) (status : Status) (payload : List Byte) : State :=
  s.setPort p { s.port p with
    ready := true, inFlight := none, lastReply := some ⟨status, ((s.port p).inFlight).getD 0, payload⟩ }

/-- A refusal: a reply with no payload, and nothing else changes (R22). -/
def State.refuse (s : State) (p : Port) (status : Status) : State := s.answer p status []

/-- A request frame that arrives while READY is low is ignored and counted (R169). -/
def State.ignoreFrame (s : State) (p : Port) : State :=
  s.setPort p { s.port p with ignored := satAdd max8 (s.port p).ignored 1 }

/-- A request frame at its arrival (R169, R170): no frame is received while the start-up word is being
shifted in; a frame while READY is low is ignored; then STARTING, then PORT_OFF; and otherwise the request
passes to its own checks, here `body`. BAD_REQUEST, the third check, is the command
UNKNOWN_REQUEST_CODE's. -/
def State.request (s : State) (p : Port) (code : Byte) (body : State → State) : State :=
  match s.phase with
  | .shifting => s
  | .preparing => if (s.port p).ready then (s.taken p code).refuse p .starting else s.ignoreFrame p
  | .running =>
    if (s.port p).ready then
      if s.enabled p then body (s.taken p code) else (s.taken p code).refuse p .portOff
    else s.ignoreFrame p

/-- The first check that fails gives the reply status (R22). -/
def firstRefusal : List (Bool × Status) → Option Status
  | [] => none
  | (fails, status) :: rest => if fails then some status else firstRefusal rest

/-- A request's checks in order, and its effect when all pass. -/
def State.checked (s : State) (p : Port) (checks : List (Bool × Status)) (effect : State → State) : State :=
  match firstRefusal checks with
  | some status => s.refuse p status
  | none => effect s

/-- The request's object, or BAD_ARG when its number is out of range: always the first check (R22). -/
def State.withNumber {n : Nat} (s : State) (p : Port) (b : Byte) (body : Fin n → State → State) : State :=
  match number? n b with
  | some i => body i s
  | none => s.refuse p .badArg

/-- The bytes of a reply frame (R170, R178). -/
def Reply.bytes (r : Reply) : List Byte :=
  [statusByte r.status, r.code] ++ (halfOf r.payload.length).bytes ++ r.payload

/-- What SDO carries in a read period from its second byte on (R172): the last reply from its first byte,
and 0xFF after it; 0xFF throughout while there is none. It is the last reply of the state it is read in (log entry 35). -/
def State.readPeriod (s : State) (p : Port) (n : Nat) : List Byte :=
  let reply := match (s.port p).lastReply with | some r => r.bytes | none => []
  (reply ++ List.replicate n 0xFF).take n

/-- The first `n` bytes SDO carries in a chip-select period whose first SDI byte is `first` (R168, R172): in a read
period 0xFF during the marker byte and then the last reply; in a request period 0xFF. -/
def State.sdoBytes (s : State) (p : Port) (first : Byte) (n : Nat) : List Byte :=
  if first = readMarker then (0xFF :: s.readPeriod p n).take n else List.replicate n 0xFF

/-- The level of SDO at a clock (R168): high impedance, `none`, while CS is high; while it is low, in a period whose
first SDI byte is `first`, the bits of its bytes, most significant first. The first byte is 0xFF in either kind of
period, so it depends on nothing that is not yet received. DESIGN CHOICE, log entry 35: each clock shows the last reply of the
state at that clock, so that a reply made during a read period shows in the rest of it, at the bytes and bits it has reached. -/
def State.sdo (s : State) (p : Port) (period : Option Byte) (clock : Nat) : Option Bool :=
  match period with
  | none => none
  | some first => some (((s.sdoBytes p first (clock / 8 + 1)).getD (clock / 8) 0xFF).getMsbD (clock % 8))

end Sys2Proof.Machine
end

