-- ==== Sys2Proof/Machine/ClipStore.lean ====
section
/-! DEFINITION. The clip store controller's shared operations: the check of a reference, the fault record,
notes, play counts and write-busy counts (06_the_clip_store.md). -/

namespace Sys2Proof.Machine

/-! ## The reference check (R113) -/

/-- The kinds of reference (R106). -/
inductive RefKind where
  | play
  | read
  | write
  deriving DecidableEq, Repr

/-- No fault found. -/
def FaultKinds.clear : FaultKinds := ⟨false, false, false, false⟩

/-- The fault kinds a reference finds (R113): UNDEFINED alone for a FREE clip; else every kind that applies.
A reference for play names no page index. -/
def Clip.check (c : Clip) (p : Port) (kind : RefKind) (index : Option Nat) : FaultKinds :=
  if c.defined then
    { undefined := false
      noAccess := c.keys.cell p = .noAccess
      length := match index with | some i => c.length ≤ i | none => false
      readOnly := (kind = .write) && (c.keys.cell p = .play || c.keys.cell p = .playNote) }
  else ⟨true, false, false, false⟩

/-- Whether a set of fault kinds has at least one. -/
def FaultKinds.found (k : FaultKinds) : Bool := k.undefined || k.noAccess || k.length || k.readOnly

/-- The fault kinds as one byte (R178). -/
def FaultKinds.byte (k : FaultKinds) : Byte :=
  countByte (detailBit k.undefined 0 + detailBit k.noAccess 1 + detailBit k.length 2 + detailBit k.readOnly 3)

/-- The primary kind as the number of its bit: the highest-ranked in the order UNDEFINED, NO_ACCESS, LENGTH,
READ_ONLY (R113, R178). -/
def FaultKinds.primary (k : FaultKinds) : Nat :=
  if k.undefined then 0 else if k.noAccess then 1 else if k.length then 2 else 3

/-- Entering a clip fault in a port's fault record: the first is kept, later ones are counted (R121). -/
def State.recordFault (s : State) (p : Port) (kinds : FaultKinds) (clip : Fin 256) (index : Option Nat)
    (code : Byte) : State :=
  match (s.fault p).record with
  | none => s.setFault p { s.fault p with record := some ⟨kinds, clip, index, code, s.highway.stamp⟩ }
  | some _ => s.setFault p { s.fault p with seconds := satAdd max8 (s.fault p).seconds 1 }

/-- A refusal with CLIP_FAULT (R113, R121). -/
def State.refuseFault (s : State) (p : Port) (kinds : FaultKinds) (clip : Fin 256) (index : Option Nat)
    (code : Byte) : State :=
  (s.recordFault p kinds clip index code).refuse p .clipFault

/-! ## Noted references (R107) -/

/-- What CLIP_PLAYED says of a reference, in bits 9 and 8 of its detail (R178). -/
inductive NoteKind where
  | playlist
  | whisper
  | pageRead
  deriving DecidableEq, Repr

/-- The code of a kind of reference in CLIP_PLAYED (R178). -/
def NoteKind.number : NoteKind → Nat
  | .playlist => 0
  | .whisper => 1
  | .pageRead => 2

/-- Noting an accepted reference to one clip: under PLAY_NOTE the accessed flag is set and CLIP_PLAYED goes
to the clip's owner (R107). -/
def State.note (s : State) (p : Port) (kind : NoteKind) (c : Fin 256) : State :=
  if (s.clip c).keys.cell p = .playNote then
    (s.setClip c { s.clip c with accessed := true }).fileOwner (s.clip c).owner .clipPlayed c.val
      (Port.number p + 256 * kind.number)
  else s

/-- The clips a playlist names, each once, in ascending order (R107). -/
def clipsNamed (items : List Item) : List (Fin 256) :=
  (List.finRange 256).filter fun c => items.any fun i => i.clip = c

/-- Noting an accepted playlist (R107). -/
def State.noteItems (s : State) (p : Port) (items : List Item) : State :=
  (clipsNamed items).foldl (fun s c => s.note p .playlist c) s

/-! ## Play counts (R115) -/

/-- One more reference for play relies on a clip. -/
def State.addPlay (s : State) (c : Fin 256) : State :=
  s.setClip c { s.clip c with plays := (s.clip c).plays + 1 }

/-- One reference for play to a clip is given up. -/
def State.dropPlay (s : State) (c : Fin 256) : State :=
  s.setClip c { s.clip c with plays := (s.clip c).plays - 1 }

/-- The play counts of a playlist's items rise. -/
def State.addPlays (s : State) (items : List Item) : State :=
  items.foldl (fun s i => s.addPlay i.clip) s

/-- The play counts of a discarded playlist's items are returned. -/
def State.dropPlays (s : State) (l : Option Playlist) : State :=
  match l with
  | some l => l.items.foldl (fun s i => s.dropPlay i.clip) s
  | none => s

/-- The first item whose reference for play finds a fault, in ascending order of item index (R114). -/
def State.faultyItem (s : State) (p : Port) : List Item → Option (Fin 256 × FaultKinds)
  | [] => none
  | i :: rest =>
    let kinds := (s.clip i.clip).check p .play none
    if kinds.found then some (i.clip, kinds) else s.faultyItem p rest

/-- Whether a page write to any item's clip is in flight (R115). -/
def State.itemsBusy (s : State) (items : List Item) : Bool :=
  items.any fun i => 0 < (s.clip i.clip).writeBusy

/-- The clip checks of a request that makes references for play (R114): faults first, then IN_USE; then its
effect. -/
def State.checkItems (s : State) (p : Port) (code : Byte) (items : List Item) (effect : State → State) : State :=
  match s.faultyItem p items with
  | some (c, kinds) => s.refuseFault p kinds c none code
  | none => if s.itemsBusy items then s.refuse p .inUse else effect s

/-- The part of a clip whose page index is the last (R105). -/
def Clip.lastIndex (c : Clip) (index : Nat) : Bool := index + 1 = c.length

/-- The number of samples played of a page of a clip (R105). -/
def Clip.samplesOf (c : Clip) (index : Nat) : Nat := if c.lastIndex index then c.fill else 256

end Sys2Proof.Machine
end

