-- ==== Sys2Proof/Machine/Arbiter.lean ====
section
/-! DEFINITION. The memory arbiter's shared operations: what arrives at a player, the handling of ECC
errors, the bad-page list and the grant (07_clip_memory_arbitration_and_scrubbing.md, R148 and R149 of
08_hold_streams_and_playlists.md). -/

namespace Sys2Proof.Machine

/-! ## The end of a playlist item (R148, R149) -/

/-- A loop count of 0 loads a remainder of 1, which is not used (R142). -/
def loadRemainder (count : Nat) : Nat := if count = 0 then 1 else count

/-- Steps 4 and 5 of R148: the next item, or the end of the list. -/
def Playlist.after (l : Playlist) (i : Nat) : FetchCursor :=
  if i + 1 < l.items.length then .page (i + 1) 0 else .exhausted

/-- Steps 3 to 5 of R148: the fetch cursor and the outer remainder after item `i`. -/
def Playlist.outerStep (l : Playlist) (i outer : Nat) : FetchCursor × Nat :=
  if l.outer.enabled && i = l.outer.bottom then
    if l.outer.count = 0 then (.page l.outer.top 0, outer)
    else if 1 < outer then (.page l.outer.top 0, outer - 1)
    else (l.after i, l.outer.count)
  else (l.after i, outer)

/-- Steps 2 to 5 of R148: the fetch cursor and the two remainders after item `i`. -/
def Playlist.decide (l : Playlist) (i inner outer : Nat) : FetchCursor × Nat × Nat :=
  if l.inner.enabled && i = l.inner.bottom then
    if 1 < inner then (.page l.inner.top 0, inner - 1, outer)
    else ((l.outerStep i outer).1, l.inner.count, (l.outerStep i outer).2)
  else ((l.outerStep i outer).1, inner, (l.outerStep i outer).2)

/-- The switch to the staged playlist at the end of old item `i` (R149). -/
def State.switch (s : State) (k : Fin 16) (i : Nat) : State :=
  match (s.stream k).staged with
  | none => s
  | some l =>
    let x := s.stream k
    let s := s.dropPlays x.current
    let s := s.setStream k { x with
      current := some l, staged := none, inner := loadRemainder l.inner.count,
      outer := loadRemainder l.outer.count, cursor := .page 0 0 }
    s.fileOwner x.owner .streamSwitched k.val i

/-- The decision at the arrival of the last page of item `i` (R148). -/
def State.itemEnd (s : State) (k : Fin 16) (i : Nat) : State :=
  let x := s.stream k
  match x.staged with
  | some _ => s.switch k i
  | none =>
    match x.current with
    | some l =>
      let d := l.decide i x.inner x.outer
      s.setStream k { x with cursor := d.1, inner := d.2.1, outer := d.2.2 }
    | none => s

/-! ## Delivering a page (R128, R146, R164) -/

/-- The clip and gain of an item of a stream's current playlist. -/
def Stream.item (x : Stream) (i : Nat) : Option Item :=
  match x.current with
  | some l => l.items[i]?
  | none => none

/-- A page arrives in the next slot of a stream, with the number of its samples that are played and its
item's gain; the last page of an item makes the item-end decision (R146). -/
def State.streamArrival (s : State) (k : Fin 16) (index : Nat) (codes : PageCodes) : State :=
  let x := s.stream k
  match x.next with
  | .awaited i =>
    match x.item i with
    | some item =>
      let c := s.clip item.clip
      let s := s.setStream k { x with next := .filled ⟨codes, c.samplesOf index, item.gain, i, index⟩ }
      if c.lastIndex index then s.itemEnd k i else s
    | none => s
  | _ => s

/-- The clip of the entry a prompt player plays. -/
def State.playedClip (s : State) (w : Fin 16) : Option (Fin 256) :=
  match (s.player w).assigned with
  | some p => (s.queue p).head?.map Entry.clip
  | none => none

/-- A page arrives in the next slot of a prompt player (R164). -/
def State.promptArrival (s : State) (w : Fin 16) (index : Nat) (codes : PageCodes) : State :=
  let x := s.player w
  match x.next, s.playedClip w with
  | .awaited, some c => s.setPlayer w { x with next := .filled ⟨codes, (s.clip c).samplesOf index⟩ }
  | _, _ => s

/-- A fetched page is placed in its player when the generations match, and discarded otherwise (R128). -/
def State.deliver (s : State) (f : Fetch) (codes : PageCodes) : State :=
  match f.player with
  | .stream k => if (s.stream k).generation = f.generation then s.streamArrival k f.index codes else s
  | .prompt w => if (s.player w).generation = f.generation then s.promptArrival w f.index codes else s

/-- A page of 256 silence codes. -/
def State.silentPage (s : State) : PageCodes := Table.fill 256 s.silence

/-! ## Errors (R133 to R135) -/

/-- What upsets do to one word of a page (R133; log entry 13). Word `w` of a page carries its codes 8w to 8w + 7
(log entry 28). -/
def Memory.strike (silence : Byte) (page : Nat) (m : Memory) (u : WordUpset) : Memory :=
  let w := 32 * page + u.word.val
  match u.upset with
  | .correctable => if m.flaw w = some .uncorrectable then m else m.setFlaw w (some .correctable)
  | .uncorrectable => m.setFlaw w (some .uncorrectable)
  | .undetected codes => (m.writeRun silence (8 * w) codes.toList).setFlaw w none

/-- The memory as an operation finds it: the upsets have struck the page. -/
def State.struck (s : State) (page : Nat) (upsets : List WordUpset) : State :=
  s.setMemory (upsets.foldl (Memory.strike s.silence page) s.memory)

/-- The errors of a page's 32 words. -/
def State.pageFlaws (s : State) (page : Nat) : List Flaw :=
  (List.range 32).filterMap fun w => s.memory.flaw (32 * page + w)

/-- A page with at least one uncorrectable word is uncorrectable as a whole (R133). -/
def State.pageBad (s : State) (page : Nat) : Bool := (s.pageFlaws page).any fun f => f = .uncorrectable

/-- The codes an operation that reads the page delivers (R128): corrected, or silence. -/
def State.pageCodes (s : State) (page : Nat) : PageCodes :=
  if s.pageBad page then s.silentPage else s.memory.readPage s.silence page

/-- The bad-page list after the detection of a page: it joins at the end when the list has room (R134). -/
def listedAfter (l : List Nat) (page : Nat) : List Nat :=
  if page ∈ l then l else if l.length < 16 then l ++ [page] else l

/-- The detection of an uncorrectable page (R133 to R135): it is counted, listed when there is room, and
reported, with BAD_LIST_FULL when it could not be listed. `finder` is bits 9 to 0 of the detail. -/
def State.detected (s : State) (page finder : Nat) : State :=
  let l := listedAfter s.arbiter.badPages page
  let s := s.setArbiter { s.arbiter with
    badPages := l, uncorrectable := satAdd max32 s.arbiter.uncorrectable 1 }
  if page ∈ l then s.fileBoth .memUncorrectable page (finder + 128)
  else (s.fileBoth .memUncorrectable page finder).fileBoth .badListFull page l.length

/-- The counting, listing and reporting of what an operation's read of a page finds (R133). -/
def State.counted (s : State) (page finder : Nat) : State :=
  if s.pageBad page then s.detected page finder
  else s.setArbiter { s.arbiter with
    correctable := satAdd max32 s.arbiter.correctable (s.pageFlaws page).length }

/-- The number of a player in the detail of MEM_UNCORRECTABLE (R178). -/
def PlayerId.number : PlayerId → Nat
  | .stream k => k.val
  | .prompt w => 16 + w.val

/-- The finder bits of a fetch, and of a port read (R178); those of a scrub step are 0. -/
def fetchFinder (p : PlayerId) : Nat := 256 + p.number
def readFinder (p : Port) : Nat := 512 + Port.number p

/-! ## The grant (R125, R126, R129) -/

/-- The reply of a page read (R119). -/
def State.readReply (s : State) (p : Port) (clip : Fin 256) (index : Nat) (codes : PageCodes) (marker : Bool) : State :=
  s.answer p .ok ([numberByte clip] ++ (halfOf index).bytes ++ codes.toList ++ [flagByte marker])

/-- The port that is granted when the arbiter reaches step 3 (R129). -/
def State.portChoice (s : State) : Option (Port × PortOp) :=
  match s.arbiter.pendingOps.cp0, s.arbiter.pendingOps.cp1 with
  | none, none => none
  | some op, none => some (.cp0, op)
  | none, some op => some (.cp1, op)
  | some op0, some op1 =>
    match s.startUp.fairness, s.arbiter.alternation with
    | .cp0First, _ => some (.cp0, op0)
    | .alternate, .cp1 => some (.cp0, op0)
    | .alternate, .cp0 => some (.cp1, op1)

/-- Starting a scrub step: it lowers the owed count by one (R132). -/
def State.startScrub (s : State) : State :=
  s.setArbiter { s.arbiter with bus := some .scrub, owed := s.arbiter.owed - 1 }

/-- Taking the oldest fetch from the queue. -/
def State.unqueue (s : State) : State := s.setArbiter { s.arbiter with queue := s.arbiter.queue.tail }

/-- Starting an operation on the bus. -/
def State.startBus (s : State) (op : BusOp) : State := s.setArbiter { s.arbiter with bus := some op }

/-- Granting a port: its operation is no longer pending, and the alternation memory names it (R129;
log entry 12). -/
def State.grantPort (s : State) (p : Port) : State :=
  s.setArbiter { s.arbiter with pendingOps := s.arbiter.pendingOps.put p none, alternation := p }

/-- Choosing and starting operations until the bus is busy or nothing waits (R125, R126). A fetch or a port
read of a listed page completes at once and leaves the bus free, so the arbiter chooses again; each round
takes a waiting request, so the rounds are bounded. -/
def State.grantRounds : Nat → State → State
  | 0, s => s
  | n + 1, s =>
    match s.arbiter.bus with
    | some _ => s
    | none =>
      if 8 ≤ s.arbiter.owed then s.startScrub
      else match s.arbiter.queue with
        | f :: _ =>
          if f.page ∈ s.arbiter.badPages then State.grantRounds n (s.unqueue.deliver f s.silentPage)
          else s.unqueue.startBus (.fetch f)
        | [] =>
          match s.portChoice with
          | some (p, .write clip index page codes noted) =>
            (s.grantPort p).startBus (.port p (.write clip index page codes noted))
          | some (p, .read clip index page) =>
            if page ∈ s.arbiter.badPages then
              State.grantRounds n ((s.grantPort p).readReply p clip index s.silentPage true)
            else (s.grantPort p).startBus (.port p (.read clip index page))
          | none => if 1 ≤ s.arbiter.owed then s.startScrub else s

/-- The grant (R126): there are at most as many rounds as waiting requests, and one more. -/
def State.grant (s : State) : State := State.grantRounds (s.arbiter.queue.length + 3) s

/-- A request joins the end of the fetch queue, and a grant may follow (R126, R127). -/
def State.requestFetch (s : State) (f : Fetch) : State :=
  (s.setArbiter { s.arbiter with queue := s.arbiter.queue ++ [f] }).grant

/-- A player's waiting request is removed when its generation rises (R127). -/
def State.cancelFetch (s : State) (p : PlayerId) : State :=
  s.setArbiter { s.arbiter with queue := s.arbiter.queue.filter fun f => f.player ≠ p }

/-- The admission of a port operation, and a grant (R117, R119, R126). -/
def State.admitOp (s : State) (p : Port) (op : PortOp) : State :=
  (s.setArbiter { s.arbiter with pendingOps := s.arbiter.pendingOps.put p (some op) }).grant

/-- The bus is free again (R124). -/
def State.freeBus (s : State) : State := s.setArbiter { s.arbiter with bus := none }

end Sys2Proof.Machine
end

