-- ==== Sys2Proof/Machine/ClipMemory.lean ====
section
/-! DEFINITION. What happens at the expiry of the refresh timer and at the completion of each operation on
the memory bus, and the request MEMORY STATUS (07_clip_memory_arbitration_and_scrubbing.md). -/

namespace Sys2Proof.Machine

/-- An operation for a page that does not exist stops the model (R124, log entry 24). -/
def State.onPage (s : State) (page : Nat) (next : State) : Host.Outcome State Fault Refusal :=
  if page < s.pageCount then .next next else .fault (.noSuchPage page)

/-! ## Refresh (R131) -/

/-- The expiry of the refresh timer (R131), and a grant (R126). The timer runs from the completion of start-up
memory preparation (log entry 3). -/
def execRefreshTimerExpiry (s : State) : Host.Outcome State Fault Refusal :=
  match s.phase with
  | .running => .next (s.setArbiter { s.arbiter with owed := min 16 (s.arbiter.owed + 1) }).grant
  | .shifting => .next s
  | .preparing => .next s

/-! ## Completions (R124, R128, R130, R132) -/

/-- The completion of a page fetch (R128): what the read finds is counted, listed and reported, and then the page
goes to its player. The records of the memory come before those that the page's arrival files (log entry 29). -/
def State.fetchCompleted (s : State) (f : Fetch) (upsets : List WordUpset) : State :=
  let s := s.freeBus.struck f.page upsets
  let codes := s.pageCodes f.page
  ((s.counted f.page (fetchFinder f.player)).deliver f codes).grant

/-- PAGE_FETCH_COMPLETION (R128); with no fetch on the bus nothing happens (log entry 3). -/
def execPageFetchCompletion (upsets : List WordUpset) (s : State) : Host.Outcome State Fault Refusal :=
  match s.arbiter.bus with
  | some (.fetch f) => s.onPage f.page (s.fetchCompleted f upsets)
  | some (.port _ _) => .next s
  | some .scrub => .next s
  | none => .next s

/-- Removing a page from the bad-page list (R130, R134). -/
def State.unlist (s : State) (page : Nat) : State :=
  s.setArbiter { s.arbiter with badPages := s.arbiter.badPages.filter fun x => x ≠ page }

/-- What the clip store controller does at the completion of a page write (R107, R118). -/
def State.writeNoted (s : State) (p : Port) (clip : Fin 256) (index : Nat) (noted : Bool) : State :=
  let x := s.clip clip
  let s := s.setClip clip { x with
    writeBusy := x.writeBusy - 1, written := true, accessed := x.accessed || noted }
  if noted then s.fileOwner x.owner .clipWritten clip.val (index + 0x8000 * Port.number p) else s

/-- The completion of a port page write (R118, R130). CLIP_WRITTEN comes before the records of the grant that follows
(log entry 29). -/
def State.writeCompleted (s : State) (p : Port) (clip : Fin 256) (index page : Nat) (codes : PageCodes)
    (noted : Bool) : State :=
  let s := s.freeBus.setMemory (s.memory.writePage s.silence page codes)
  let s := ((s.unlist page).writeNoted p clip index noted)
  (s.answer p .ok (numberByte clip :: (halfOf index).bytes)).grant

/-- PORT_PAGE_WRITE_COMPLETION (R118); with no page write on the bus nothing happens (log entry 3). -/
def execPortPageWriteCompletion (s : State) : Host.Outcome State Fault Refusal :=
  match s.arbiter.bus with
  | some (.port p (.write clip index page codes noted)) =>
    s.onPage page (s.writeCompleted p clip index page codes noted)
  | some (.port _ (.read _ _ _)) => .next s
  | some (.fetch _) => .next s
  | some .scrub => .next s
  | none => .next s

/-- The completion of a port page read (R119, R130). What the read finds is reported before the records of the grant that
follows (log entry 29). -/
def State.readCompleted (s : State) (p : Port) (clip : Fin 256) (index page : Nat) (upsets : List WordUpset) : State :=
  let s := s.freeBus.struck page upsets
  let codes := s.pageCodes page
  let bad := s.pageBad page
  ((s.counted page (readFinder p)).readReply p clip index codes bad).grant

/-- PORT_PAGE_READ_COMPLETION (R119); with no page read on the bus nothing happens (log entry 3). -/
def execPortPageReadCompletion (upsets : List WordUpset) (s : State) : Host.Outcome State Fault Refusal :=
  match s.arbiter.bus with
  | some (.port p (.read clip index page)) => s.onPage page (s.readCompleted p clip index page upsets)
  | some (.port _ (.write _ _ _ _ _)) => .next s
  | some (.fetch _) => .next s
  | some .scrub => .next s
  | none => .next s

/-- What a scrub step does with its page (R132): nothing for a listed page; else it checks it, and writes
corrected words back when the page is not uncorrectable. -/
def State.scrubPage (s : State) (page : Nat) (upsets : List WordUpset) : State :=
  if page ∈ s.arbiter.badPages then s
  else
    let s := s.struck page upsets
    let found := s.counted page 0
    if s.pageBad page then found else found.setMemory (found.memory.clearFlaws page)

/-- The scrub pointer advances; from the last page it wraps to 0, which ends a pass (R132). -/
def State.advanceScrub (s : State) : State :=
  if s.arbiter.scrubPointer + 1 < s.pageCount then
    s.setArbiter { s.arbiter with scrubPointer := s.arbiter.scrubPointer + 1 }
  else s.setArbiter { s.arbiter with scrubPointer := 0, passes := satAdd max32 s.arbiter.passes 1 }

/-- The completion of a scrub step (R132). What it finds is reported before the records of the grant that follows (log
entry 29). -/
def State.scrubCompleted (s : State) (upsets : List WordUpset) : State :=
  ((s.freeBus.scrubPage s.arbiter.scrubPointer upsets).advanceScrub).grant

/-- SCRUB_STEP_COMPLETION (R132); with no scrub step on the bus nothing happens (log entry 3). -/
def execScrubStepCompletion (upsets : List WordUpset) (s : State) : Host.Outcome State Fault Refusal :=
  match s.arbiter.bus with
  | some .scrub => s.onPage s.arbiter.scrubPointer (s.scrubCompleted upsets)
  | some (.fetch _) => .next s
  | some (.port _ _) => .next s
  | none => .next s

/-! ## MEMORY STATUS (R137) -/

/-- The payload of MEMORY STATUS (R137, R178; log entry 17). -/
def State.memoryBytes (s : State) : List Byte :=
  let a := s.arbiter
  (wideOf a.correctable).bytes ++ (wideOf a.uncorrectable).bytes ++ (wideOf a.passes).bytes
    ++ (wideOf s.pageCount).bytes ++ (halfOf a.scrubPointer).bytes ++ [countByte a.badPages.length]
    ++ a.badPages.flatMap fun x => (halfOf x).bytes

/-- MEMORY STATUS (R137). -/
def execMemoryStatus (port : Port) (s : State) : Host.Outcome State Fault Refusal :=
  .next (s.request port Code.memoryStatus fun s => s.answer port .ok s.memoryBytes)

end Sys2Proof.Machine
end

