-- ==== Sys2Proof/Machine/Clips.lean ====
section
/-! DEFINITION. The clip store controller's requests (06_the_clip_store.md). -/

namespace Sys2Proof.Machine

/-! ## DEFINE CLIP (R108, R109) -/

/-- Whether two page ranges share a page. -/
def rangesMeet (base1 length1 base2 length2 : Nat) : Bool :=
  base1 < base2 + length2 && base2 < base1 + length1

/-- Whether a page range meets that of another DEFINED clip (R108). -/
def State.overlaps (s : State) (c : Fin 256) (base length : Nat) : Bool :=
  (List.finRange 256).any fun d =>
    d ≠ c && (s.clip d).defined && rangesMeet base length (s.clip d).base (s.clip d).length

/-- Whether a clip is being played or written. -/
def Clip.inUse (x : Clip) : Bool := 0 < x.plays || 0 < x.writeBusy

/-- The contents DEFINE CLIP gives (R109): a redefinition keeps the owner. -/
def Clip.redefined (x : Clip) (port : Port) (base length fill : Nat) (keys : PerPort Key) : Clip where
  defined := true
  owner := if x.defined then x.owner else some port
  base := base
  length := length
  fill := fill
  keys := keys
  accessed := false
  written := false
  plays := 0
  writeBusy := 0

/-- DEFINE CLIP past its first check's key codes (R108). -/
def State.defineClip (s : State) (port : Port) (c : Fin 256) (base length fill : Nat) (keys : PerPort Key) : State :=
  s.checked port
    [(length < 1 || 4096 < length || fill < 1 || 256 < fill || s.pageCount < base + length, .badArg),
     ((s.clip c).defined && (s.clip c).owner ≠ some port, .notOwner),
     ((s.clip c).defined && (s.clip c).inUse, .inUse),
     (s.overlaps c base length, .overlap)]
    fun s => (s.setClip c ((s.clip c).redefined port base length fill keys)).answer port .ok []

/-- DEFINE CLIP (R108). -/
def execDefineClip (port : Port) (clip : Byte) (base length fill : Half) (key0 key1 : Byte) (s : State) :
    Host.Outcome State Fault Refusal :=
  .next (s.request port Code.defineClip fun s =>
    match key? key0, key? key1 with
    | some k0, some k1 => s.defineClip port (clipNumber clip) base.toNat length.toNat fill.toNat ⟨k0, k1⟩
    | _, _ => s.refuse port .badArg)

/-! ## SET KEYS (R110) -/

/-- SET KEYS (R110). -/
def execSetKeys (port : Port) (clip key0 key1 : Byte) (s : State) : Host.Outcome State Fault Refusal :=
  .next (s.request port Code.setKeys fun s =>
    let c := clipNumber clip
    match key? key0, key? key1 with
    | some k0, some k1 =>
      s.checked port [(!(s.clip c).defined, .state), ((s.clip c).owner ≠ some port, .notOwner)]
        fun s => (s.setClip c { s.clip c with keys := ⟨k0, k1⟩, accessed := false, written := false }).answer port .ok []
    | _, _ => s.refuse port .badArg)

/-! ## FREE CLIP (R111) -/

/-- FREE CLIP (R111). -/
def execFreeClip (port : Port) (clip : Byte) (s : State) : Host.Outcome State Fault Refusal :=
  .next (s.request port Code.freeClip fun s =>
    let c := clipNumber clip
    s.checked port
      [(!(s.clip c).defined, .state), ((s.clip c).owner ≠ some port, .notOwner), ((s.clip c).inUse, .inUse)]
      fun s => (s.setClip c Clip.freeContents).answer port .ok [])

/-! ## CLIP INFO (R112) -/

/-- The 15 bytes of CLIP INFO (R178). -/
def State.clipRecord (s : State) (c : Fin 256) : List Byte :=
  let x := s.clip c
  [numberByte c, flagByte x.defined, ownerByte x.owner] ++ (halfOf x.base).bytes ++ (halfOf x.length).bytes
    ++ (halfOf x.fill).bytes
    ++ [keyByte x.keys.cp0, keyByte x.keys.cp1, countByte (detailBit x.accessed 0 + detailBit x.written 1)]
    ++ (halfOf x.plays).bytes ++ [countByte x.writeBusy]

/-- CLIP INFO (R112). -/
def execClipInfo (port : Port) (clip : Byte) (s : State) : Host.Outcome State Fault Refusal :=
  .next (s.request port Code.clipInfo fun s => s.answer port .ok (s.clipRecord (clipNumber clip)))

/-! ## WRITE PAGE and READ PAGE (R117, R119) -/

/-- The admission of a page write (R117). -/
def State.admitWrite (s : State) (port : Port) (c : Fin 256) (index : Nat) (codes : PageCodes) : State :=
  let x := s.clip c
  (s.setClip c { x with writeBusy := x.writeBusy + 1 }).admitOp port
    (.write c index (x.base + index) codes (x.keys.cell port = .writeNote))

/-- WRITE PAGE (R117). -/
def execWritePage (port : Port) (clip : Byte) (index : Half) (codes : PageCodes) (s : State) :
    Host.Outcome State Fault Refusal :=
  .next (s.request port Code.writePage fun s =>
    let c := clipNumber clip
    let kinds := (s.clip c).check port .write (some index.toNat)
    if 4095 < index.toNat then s.refuse port .badArg
    else if kinds.found then s.refuseFault port kinds c (some index.toNat) Code.writePage
    else if 0 < (s.clip c).plays then s.refuse port .inUse
    else s.admitWrite port c index.toNat codes)

/-- The admission of a page read (R119). -/
def State.admitRead (s : State) (port : Port) (c : Fin 256) (index : Nat) : State :=
  (s.note port .pageRead c).admitOp port (.read c index ((s.clip c).base + index))

/-- READ PAGE (R119). -/
def execReadPage (port : Port) (clip : Byte) (index : Half) (s : State) : Host.Outcome State Fault Refusal :=
  .next (s.request port Code.readPage fun s =>
    let c := clipNumber clip
    let kinds := (s.clip c).check port .read (some index.toNat)
    if 4095 < index.toNat then s.refuse port .badArg
    else if kinds.found then s.refuseFault port kinds c (some index.toNat) Code.readPage
    else s.admitRead port c index.toNat)

/-! ## READ FAULT and CLEAR FAULT (R122) -/

/-- The page index of a fault record with its presence byte; the bytes of an absent index are open (R178,
log entry 14). -/
def faultIndexBytes (index : Option Nat) (free : List Byte) : List Byte :=
  match index with
  | some i => flagByte true :: (halfOf i).bytes
  | none => flagByte false :: free

/-- The payload of READ FAULT (R122, R178), over two open bytes. -/
def FaultRecord.bytes (r : FaultRecord) (seconds : Nat) (free : List Byte) : List Byte :=
  [r.kinds.byte, countByte r.kinds.primary, numberByte r.clip] ++ faultIndexBytes r.index free
    ++ [r.code] ++ r.stamp.bytes ++ [countByte seconds]

/-- READ FAULT (R122). -/
def execReadFault (port : Port) (s : State) : Host.Outcome State Fault Refusal :=
  .next (s.request port Code.readFault fun s =>
    match (s.fault port).record with
    | some r => (s.drawn 2).answer port .ok (r.bytes (s.fault port).seconds (s.freeBytes 2))
    | none => s.refuse port .empty)

/-- CLEAR FAULT (R122). -/
def execClearFault (port : Port) (s : State) : Host.Outcome State Fault Refusal :=
  .next (s.request port Code.clearFault fun s => (s.setFault port ⟨none, 0⟩).answer port .ok [])

end Sys2Proof.Machine
end

