-- ==== Sys2Proof/Machine/Events.lean ====
section
/-! DEFINITION. The event router's requests (11_events_and_statistics.md). -/

namespace Sys2Proof.Machine

/-- READ EVENT accepted or EMPTY (R183). -/
def State.readEvent (s : State) (port : Port) : State :=
  let e := s.eventsOf port
  match e.pick with
  | some r => (s.setEvents port (e.removeOldest r.cls)).answer port .ok r.bytes
  | none => s.refuse port .empty

/-- READ EVENT (R183). -/
def execReadEvent (port : Port) (s : State) : Host.Outcome State Fault Refusal :=
  .next (s.request port Code.readEvent fun s => s.readEvent port)

/-- A class-assignment table with the class of one kind replaced (R180): kind code `kind` + 1. -/
def EventState.routed (e : EventState) (kind : Fin 21) (cls : Fin 8) : EventState :=
  { e with classes := e.classes.put kind cls }

/-- The place in the class-assignment table of a kind code, 0x01 to 0x15 (R180). -/
def kindPlace? (kind : Byte) : Option (Fin 21) :=
  if h : 1 ≤ kind.toNat ∧ kind.toNat ≤ 21 then some ⟨kind.toNat - 1, by omega⟩ else none

/-- ROUTE EVENT (R180). -/
def execRouteEvent (port : Port) (kind cls : Byte) (s : State) : Host.Outcome State Fault Refusal :=
  .next (s.request port Code.routeEvent fun s =>
    match kindPlace? kind, number? 8 cls with
    | some k, some c => (s.setEvents port ((s.eventsOf port).routed k c)).answer port .ok []
    | _, _ => s.refuse port .badArg)

/-- MASK EVENTS (R181). -/
def execMaskEvents (port : Port) (mask : Byte) (s : State) : Host.Outcome State Fault Refusal :=
  .next (s.request port Code.maskEvents fun s =>
    (s.setEvents port { s.eventsOf port with mask := mask }).answer port .ok [])

end Sys2Proof.Machine
end

