-- ==== Sys2Proof/Machine/Suppressor.lean ====
section
/-! DEFINITION. The noise suppressor: the seven stages of one frame, the decision to run, and the request
WRITE PROFILE (03_microphone_noise_suppression.md). -/

namespace Sys2Proof.Machine

/-! ## One frame (R49 to R53) -/

/-- The exact sum of squares of a frame (R49). -/
def frameEnergy (m : Frame) : Nat := (m.toList.map fun x => x.natAbs * x.natAbs).sum

/-- Stage 2 (R49): the first-frame path. -/
def Suppressor.begun (x : Suppressor) (profile : Profile) (energy : Nat) : Suppressor :=
  if x.firstFrame then
    { x with floor := max energy profile.nmin, index := 0, gain := profile.gains.cell 0, firstFrame := false }
  else x

/-- Stage 3 (R50): the class of a frame against the floor from before it. -/
def speechClass (energy floor : Nat) : Nat := min 15 (bitlen energy - bitlen floor)

/-- Stage 4 (R51): the new floor. -/
def nextFloor (nmin energy floor : Nat) : Nat := max nmin (min energy (floor + floor / 256 + 1))

/-- Stage 5 (R52): the new gain index. -/
def nextIndex (r c : Nat) : Nat := if c ≤ r then r else c - 1

/-- Stage 6 (R53): the gain of sample `i`. -/
def rampGain (previous next : Nat) (i : Nat) : Int :=
  previous + (((next : Int) - previous) * (i + 1)) / 32

/-- Stage 7 (R53): one output sample. -/
def rampSample (previous next : Nat) (i : Nat) (m : Int) : Int := shiftRight (m * rampGain previous next i + 16384) 15

/-- Stages 3 to 7 on a state that stage 2 has left. -/
def Suppressor.stages (x : Suppressor) (profile : Profile) (energy : Nat) (m : Frame) : Suppressor :=
  let r := speechClass energy x.floor
  let c := nextIndex r x.index
  let g := profile.gains.nth c 0
  { x with
    floor := nextFloor profile.nmin energy x.floor
    index := c
    gain := g
    send := Table.build fun i => rampSample x.gain g i.val (m.cell i)
    speech := profile.threshold ≤ r }

/-- One processed frame (R49 to R53). -/
def Suppressor.run (x : Suppressor) (profile : Profile) (m : Frame) : Suppressor :=
  (x.begun profile (frameEnergy m)).stages profile (frameEnergy m) m

/-- A frame for which a position hands over silence (R47, R54). -/
def Suppressor.silent (x : Suppressor) : Suppressor := { x with send := Frame.zero, speech := false }

/-! ## Frame completion (R47, R54, R55) -/

/-- What the suppressor leaves for an open position at a frame completion (R47, R54). -/
def State.suppressed (s : State) (p : Fin 64) : Suppressor :=
  match s.microphone p with
  | some m =>
    if s.headsetPresent p then
      let x := (s.suppressor p).run (s.profile (s.pos p).profile) m
      if s.headsetMuted p then x.silent else x
    else (s.suppressor p).silent
  | none => (s.suppressor p).silent

/-- The suppressor at a frame completion: nothing for a CLOSED position; for an open one the frame, and the
mark of whether it is CONNECTED (R47, R55). -/
def State.suppress1 (s : State) (p : Fin 64) : Suppressor :=
  match (s.pos p).state with
  | .closed => s.suppressor p
  | .connected => { s.suppressed p with wasConnected := true }
  | .idle => { s.suppressed p with wasConnected := false }
  | .announce => { s.suppressed p with wasConnected := false }
  | .held => { s.suppressed p with wasConnected := false }

/-- The suppressor's work at a frame completion, for every position. -/
def State.suppressFrames (s : State) : State :=
  { s with suppress := { s.suppress with positions := Table.build fun p => s.suppress1 p } }

/-! ## First-frame flags (R46, R48) -/

/-- The first-frame flag of a position is set (R48). -/
def State.setFirstFrame (s : State) (p : Fin 64) : State :=
  s.setSuppressor p { s.suppressor p with firstFrame := true }

/-- At the entry to LOCKED, the first-frame flags of every open position are set (R48). -/
def State.setFirstFrames (s : State) : State :=
  { s with suppress := { s.suppress with positions := Table.build fun p =>
      if (s.pos p).state = .closed then s.suppressor p else { s.suppressor p with firstFrame := true } } }

/-! ## Profiles (R57 to R59) -/

/-- A profile as WRITE PROFILE stores it (R58). -/
def storedProfile (gains : Table 16 Half) (threshold : Byte) (nmin : Wide) : Profile :=
  ⟨Table.build fun i => clampGain (gains.cell i).toNat, clampTo 1 15 threshold.toNat, clampTo 1 1073741824 nmin.toNat⟩

/-- A floor that has to be at least a noise minimum (R59). -/
def Suppressor.atLeast (x : Suppressor) (nmin : Nat) : Suppressor := { x with floor := max x.floor nmin }

/-- Replacing a profile: the floor of every position, open or closed, that names it is raised to its Nmin
(R58, R59). -/
def State.replaceProfile (s : State) (n : Fin 4) (x : Profile) : State :=
  { s with suppress :=
    { profiles := s.suppress.profiles.put n x
      positions := Table.build fun p =>
        if (s.pos p).profile = n then (s.suppressor p).atLeast x.nmin else s.suppressor p } }

/-- The bytes of a profile (R178; log entry 17). -/
def Profile.bytes (x : Profile) : List Byte :=
  (x.gains.toList.flatMap fun g => (halfOf g).bytes) ++ [countByte x.threshold] ++ (wideOf x.nmin).bytes

/-- WRITE PROFILE (R58). -/
def execWriteProfile (port : Port) (profile : Byte) (gains : Table 16 Half) (threshold : Byte) (nmin : Wide)
    (s : State) : Host.Outcome State Fault Refusal :=
  .next (s.request port Code.writeProfile fun s =>
    match number? 4 profile with
    | some n =>
      (s.replaceProfile n (storedProfile gains threshold nmin)).answer port .ok
        (storedProfile gains threshold nmin).bytes
    | none => s.refuse port .badArg)

end Sys2Proof.Machine
end

