-- ==== Sys2Proof/Machine/Canceller.lean ====
section
/-! DEFINITION. The echo canceller: the segment pool, the computation for one sample, and the stages after a
frame (04_line_echo_cancellation.md). -/

namespace Sys2Proof.Machine

/-! ## Segments and taps (R62 to R65) -/

/-- The segments a position holds (R63). -/
def State.segments (s : State) (p : Fin 64) : List (Fin 128) := (s.canceller p).segments

/-- A set of segment numbers in ascending order. -/
def segmentSet (holds : Fin 128 → Bool) : List (Fin 128) := (List.finRange 128).filter holds

/-- Every tap of the given segments set to 0. -/
def zeroTaps (segments : List (Fin 128)) (m : Table 128 (Table 128 Int)) : Table 128 (Table 128 Int) :=
  segments.foldl (fun m g => m.put g (Table.fill 128 0)) m

/-- Allocation (R64): the lowest-numbered free segments join the end of the position's list, cleared. -/
def State.allocate (s : State) (p : Fin 64) (n : Nat) : State :=
  let c := s.canceller p
  let taken := s.echo.free.take n
  { s with echo :=
    { coefficients := zeroTaps taken s.echo.coefficients
      free := s.echo.free.drop n
      positions := s.echo.positions.put p { c with segments := c.segments ++ taken } } }

/-- Return (R65): the position keeps its first `n` segments, and the rest go to the pool with their taps. -/
def State.keepSegments (s : State) (p : Fin 64) (n : Nat) : State :=
  let c := s.canceller p
  let returned := c.segments.drop n
  { s with echo :=
    { s.echo with
      free := segmentSet fun g => g ∈ s.echo.free || g ∈ returned
      positions := s.echo.positions.put p { c with segments := c.segments.take n } } }

/-- Every tap of a position's segments set to 0. -/
def State.clearTaps (s : State) (p : Fin 64) : State :=
  { s with echo := { s.echo with coefficients := zeroTaps (s.segments p) s.echo.coefficients } }

/-- The items of R66 set to zero; the segment list stays. -/
def State.zeroCanceller (s : State) (p : Fin 64) : State := s.setCanceller p (Canceller.zeroed (s.segments p))

/-- CONNECT's clearing (R27, R66). -/
def State.clearCanceller (s : State) (p : Fin 64) : State := (s.clearTaps p).zeroCanceller p

/-- The taps h[0] to h[L−1] of a position (R63). -/
def State.taps (s : State) (p : Fin 64) : List Int :=
  (s.segments p).flatMap fun g => (s.echo.coefficients.cell g).toList

/-- Writing taps back to the segments that hold them. -/
def writeTaps : List (Fin 128) → List Int → Table 128 (Table 128 Int) → Table 128 (Table 128 Int)
  | [], _, m => m
  | g :: gs, taps, m => writeTaps gs (taps.drop 128) (m.put g (Table.ofList 128 0 (taps.take 128)))

/-! ## One sample (R69 to R74) -/

/-- What a frame's computation carries from sample to sample. -/
structure EchoRun where
  history  : List Int                      -- newest first
  power    : Nat
  window   : Nat
  hangover : Nat
  taps     : List Int
  errors   : List Int                      -- in the order of the samples
  deriving DecidableEq, Repr

/-- The largest magnitude of a list of samples. -/
def peak (l : List Int) : Nat := l.foldl (fun w x => max w x.natAbs) 0

/-- R69: x[n] enters the history, and P and W follow. -/
def EchoRun.enter (r : EchoRun) (x : Int) : EchoRun :=
  let L := r.taps.length
  let history := (x :: r.history).take 512
  let leaving := if L = 0 then x else r.history.getD (L - 1) 0
  { r with
    history := history
    power := r.power + x.natAbs * x.natAbs - leaving.natAbs * leaving.natAbs
    window := peak (history.take L) }

/-- R70: the echo estimate. -/
def echoEstimate (taps history : List Int) : Int :=
  saturate (shiftRight ((List.zipWith (· * ·) taps history).sum + 16384) 15)

/-- R70, R79: the estimate in a mode. -/
def EchoRun.estimate (r : EchoRun) (mode : EcMode) : Int :=
  match mode with
  | .bypass => 0
  | .adapt => echoEstimate r.taps r.history
  | .frozen => echoEstimate r.taps r.history

/-- R72: the double-talk test. -/
def EchoRun.doubleTalk (r : EchoRun) (mode : EcMode) (hang : Nat) (d : Int) : EchoRun :=
  match mode with
  | .bypass => r
  | .adapt => if r.window >>> 1 < d.natAbs then { r with hangover := hang } else r
  | .frozen => if r.window >>> 1 < d.natAbs then { r with hangover := hang } else r

/-- R74: the shift t = B − 15 + m. -/
def adaptShift (power reg step : Nat) : Nat := bitlen (power + 2 ^ reg) + step - 15

/-- R74: the update of one tap. -/
def adaptTap (t : Nat) (e x h : Int) : Int := saturate (h + shiftRight (e * x + 2 ^ (t - 1)) t)

/-- R73, R74: the update of all taps, when it is allowed for the frame and the hangover is 0. -/
def EchoRun.adapt (r : EchoRun) (allowed : Bool) (reg step : Nat) (e : Int) : EchoRun :=
  if allowed && r.hangover = 0 then
    { r with taps := List.zipWith (fun h x => adaptTap (adaptShift r.power reg step) e x h) r.taps r.history }
  else r

/-- The steps of R69 to R74 for one received and one transmitted sample, under a position record. -/
def EchoRun.sample (rec : Position) (allowed : Bool) (r : EchoRun) (dx : Int × Int) : EchoRun :=
  let r := r.enter dx.2
  let e := saturate (dx.1 - r.estimate rec.mode)
  let r := (r.doubleTalk rec.mode rec.hang dx.1).adapt allowed rec.reg rec.step e
  { r with errors := r.errors ++ [e] }

/-! ## One frame (R67, R68, R75 to R77) -/

/-- The frames a position's canceller takes: received and transmitted; zeros when the trunk slot handed no
assembled frame (R67). -/
def State.echoInput (s : State) (p : Fin 64) : Frame × Frame := (s.lineFrames p).getD (Frame.zero, Frame.zero)

/-- The sent-frame SPEECH flag (R55); false in the first frame after LOCKED (R67). DESIGN CHOICE, log entry 31: when a HOLD
and a RETRIEVE, or a RELEASE and a CONNECT, both fall between two completions of a CONNECTED position, R55 leaves the flag
as it was and R82 or R81 makes it false; the model follows R55. -/
def State.sentSpeech (s : State) (p : Fin 64) : Bool :=
  (s.suppressor p).speech && (s.suppressor p).wasConnected && !s.highway.firstFrame

/-- Whether a position is CONNECTED. -/
def State.connected (s : State) (p : Fin 64) : Bool := (s.pos p).state = .connected

/-- The samples of a frame (R68, R79): BYPASS sets the hangover to 0 at the start. DESIGN CHOICE, log entry 33: when the mode
is set to BYPASS and back between two completions, no frame runs in BYPASS and both counters are kept, though R79 has them
start from 0 after such a change. -/
def State.echoSamples (s : State) (p : Fin 64) : EchoRun :=
  let c := s.canceller p
  let x := s.pos p
  let input := s.echoInput p
  (List.zip input.1.toList input.2.toList).foldl
    (EchoRun.sample x (x.mode = .adapt && s.connected p && s.sentSpeech p))
    ⟨c.history.toList, c.power, c.window, if x.mode = .bypass then 0 else c.hangover, s.taps p, []⟩

/-- What a frame's stages find: the run, the three energies, and what the guard and the NLP do. -/
structure EchoFrame where
  run        : EchoRun
  divergence : Nat                         -- the counter after the addition, 0 to 4 (R76)
  acts       : Bool                        -- the NLP acts (R77)
  talk       : Bool                        -- a double-talk frame is counted (R75)
  deriving DecidableEq, Repr

/-- The energy of the errors of a run (R75). -/
def energyOf (l : List Int) : Nat := (l.map fun x => x.natAbs * x.natAbs).sum

/-- R76: the divergence counter after a frame, before the guard acts. -/
def divergenceAfter (guarded : Bool) (ed ee counter : Nat) : Nat :=
  if guarded && (4 * ed < ee && 65536 ≤ ed) then counter + 1 else 0

/-- The frame of one position (R67, R75 to R77). -/
def State.echoFrame (s : State) (p : Fin 64) : EchoFrame :=
  let x := s.pos p
  let r := s.echoSamples p
  let input := s.echoInput p
  let active := s.connected p && x.mode ≠ .bypass
  { run := r
    divergence := divergenceAfter active (frameEnergy input.1) (energyOf r.errors) (s.canceller p).divergence
    acts := active && x.nlp && s.sentSpeech p && r.hangover = 0
      && energyOf r.errors < frameEnergy input.2 >>> x.shift
    talk := s.connected p && 0 < r.hangover }

/-- The clean-caller frame (R77). -/
def EchoFrame.clean (f : EchoFrame) : Frame := if f.acts then Frame.zero else Table.ofList 32 0 f.run.errors

/-- Whether the divergence guard acts (R76). -/
def EchoFrame.diverged (f : EchoFrame) : Bool := f.divergence = 4

/-- The statistics the canceller counts (R75 to R77, R84). -/
def Stats.afterEcho (x : Stats) (f : EchoFrame) : Stats :=
  { x with
    echoResets := if f.diverged then satAdd max16 x.echoResets 1 else x.echoResets
    doubleTalk := if f.talk then satAdd max32 x.doubleTalk 1 else x.doubleTalk
    nlpFrames := if f.acts then satAdd max32 x.nlpFrames 1 else x.nlpFrames }

/-- What the canceller keeps after a frame (R75, R76). -/
def Canceller.afterFrame (c : Canceller) (f : EchoFrame) : Canceller :=
  { c with
    history := Table.ofList 512 0 f.run.history
    power := f.run.power
    window := f.run.window
    hangover := f.run.hangover - 1
    divergence := if f.diverged then 0 else f.divergence }

/-- The taps after a frame: the guard sets them to 0 (R76). -/
def EchoFrame.tapsAfter (f : EchoFrame) : List Int :=
  if f.diverged then f.run.taps.map fun _ => 0 else f.run.taps

/-- The effect of a frame on a position's canceller and record, with EC_RESET when the guard acts (R76). -/
def State.afterEcho (s : State) (p : Fin 64) (f : EchoFrame) : State :=
  let x := s.pos p
  let stats := x.stats.afterEcho f
  let s := { s with echo := { s.echo with
    coefficients := writeTaps (s.segments p) f.tapsAfter s.echo.coefficients
    positions := s.echo.positions.put p ((s.canceller p).afterFrame f) } }
  let s := s.setPos p { x with stats := stats }
  if f.diverged then s.fileOwner x.owner .ecReset p.val stats.echoResets else s

/-- The canceller at a frame completion, for one position: it runs in a call only (R67). -/
def State.echo1 (s : State) (p : Fin 64) : Frame × State :=
  if (s.pos p).state.inCall then ((s.echoFrame p).clean, s.afterEcho p (s.echoFrame p)) else (Frame.zero, s)

/-- The canceller at a frame completion: the clean-caller frames of all positions (R68; log entry 9). -/
def State.echoFrames (s : State) : Table 64 Frame × State :=
  (List.finRange 64).foldl
    (fun acc p =>
      let r := acc.2.echo1 p
      (acc.1.put p r.1, r.2))
    (Table.fill 64 Frame.zero, s)

end Sys2Proof.Machine
end

