-- ==== Sys2Proof/Machine/Taps.lean ====
section
/-! DEFINITION. The tap table: finding and removing taps, and the requests ADD TAP, REMOVE TAP and LIST TAPS
(05_ear_and_line_mixing_monitor_and_coach_taps.md, sections 5.5 and 5.6). -/

namespace Sys2Proof.Machine

/-! ## Reading the table (R96) -/

/-- The taps in use, by ascending number. -/
def State.tapsInUse (s : State) : List (Fin 16 × Tap) :=
  (List.finRange 16).filterMap fun t => (s.tap t).map fun x => (t, x)

/-- The tap whose listener a position is. -/
def State.listenerTap (s : State) (p : Fin 64) : Option Tap :=
  (s.tapsInUse.find? fun x => x.2.listener = p).map Prod.snd

/-- The COACH tap whose target a position is. -/
def State.coachTap (s : State) (p : Fin 64) : Option Tap :=
  (s.tapsInUse.find? fun x => x.2.target = p && x.2.kind = .coach).map Prod.snd

/-- The lowest-numbered free entry (R97). -/
def State.freeTap (s : State) : Option (Fin 16) := (List.finRange 16).find? fun t => (s.tap t).isNone

/-! ## Events (R98, R99, R101) -/

/-- The detail of TAP_ON (R178). -/
def Tap.onDetail (t : Fin 16) (x : Tap) : Nat := t.val + 16 * tapKindNumber x.kind + 256 * x.listener.val

/-- Why a tap is dropped (R178). -/
inductive DropReason where
  | listenerConnected
  | listenerClosed
  | targetClosed
  | byTargetOwner
  deriving DecidableEq, Repr

/-- The code of a reason (R178). -/
def DropReason.number : DropReason → Nat
  | .listenerConnected => 0
  | .listenerClosed => 1
  | .targetClosed => 2
  | .byTargetOwner => 4

/-- Removing a tap, with TAP_DROPPED to its owner (R101). -/
def State.dropTap (s : State) (t : Fin 16) (x : Tap) (reason : DropReason) : State :=
  (s.setTap t none).file x.owner .tapDropped x.listener.val
    (t.val + 16 * tapKindNumber x.kind + 256 * reason.number)

/-- CONNECT of a position removes the tap whose listener it is (R101). -/
def State.dropListenerTaps (s : State) (p : Fin 64) : State :=
  s.tapsInUse.foldl (fun s x => if x.2.listener = p then s.dropTap x.1 x.2 .listenerConnected else s) s

/-- The closure of a position removes every tap that names it, in ascending order of number (R101). -/
def State.dropTapsOf (s : State) (p : Fin 64) : State :=
  s.tapsInUse.foldl
    (fun s x =>
      if x.2.listener = p then s.dropTap x.1 x.2 .listenerClosed
      else if x.2.target = p then s.dropTap x.1 x.2 .targetClosed
      else s) s

/-- A tap table entry once the taps of a port are gone. -/
def withoutOwner (port : Port) : Option Tap → Option Tap
  | some x => if x.owner = port then none else some x
  | none => none

/-- RESET PORT removes every tap the port still owns; the records would go to that port and are left unfiled
(R101, R103). -/
def State.removeTapsOwned (s : State) (port : Port) : State :=
  { s with mixer := { s.mixer with taps := s.mixer.taps.map (withoutOwner port) } }

/-! ## ADD TAP (R97, R98) -/

/-- Whether one of the limits of R96 would be exceeded. -/
def State.tapLimit (s : State) (listener target : Fin 64) (kind : TapKind) : Bool :=
  (s.listenerTap listener).isSome
    || 3 ≤ (s.tapsInUse.filter fun x => x.2.target = target).length
    || (kind = .coach && (s.coachTap target).isSome)
    || s.freeTap.isNone

/-- ADD TAP accepted (R97, R98). -/
def State.addTapAccepted (s : State) (port : Port) (x : Tap) : State :=
  match s.freeTap with
  | some t =>
    let s := s.setTap t (some x)
    let s := if (s.pos x.target).owner = some port.other then
        s.file port.other .tapOn x.target.val (Tap.onDetail t x) else s
    s.answer port .ok [numberByte t]
  | none => s

/-- ADD TAP's checks after the first, and its effect (R97). -/
def State.addTap (s : State) (port : Port) (listener target : Fin 64) (kind : TapKind) (gain : Half) : State :=
  s.checked port
    [(listener = target, .badArg),
     ((s.pos listener).state = .closed, .state),
     ((s.pos listener).owner ≠ some port, .notOwner),
     ((s.pos listener).state ≠ .idle, .state),
     ((s.pos target).state = .closed, .state),
     (s.tapLimit listener target kind, .tapLimit)]
    fun s => s.addTapAccepted port ⟨listener, target, kind, clampGain gain.toNat, port⟩

/-- ADD TAP (R97). -/
def execAddTap (port : Port) (listener target kind : Byte) (gain : Half) (s : State) : Host.Outcome State Fault Refusal :=
  .next (s.request port Code.addTap fun s =>
    match number? 64 listener, number? 64 target, tapKind? kind with
    | some l, some t, some k => s.addTap port l t k gain
    | _, _, _ => s.refuse port .badArg)

/-! ## REMOVE TAP (R99) -/

/-- REMOVE TAP accepted (R99). -/
def State.removeTapAccepted (s : State) (port : Port) (t : Fin 16) (x : Tap) : State :=
  (if x.owner = port then s.setTap t none else s.dropTap t x .byTargetOwner).answer port .ok []

/-- REMOVE TAP (R99). -/
def execRemoveTap (port : Port) (tap : Byte) (s : State) : Host.Outcome State Fault Refusal :=
  .next (s.request port Code.removeTap fun s =>
    match number? 16 tap with
    | some t =>
      match s.tap t with
      | some x =>
        s.checked port [(x.owner ≠ port && (s.pos x.target).owner ≠ some port, .notOwner)]
          fun s => s.removeTapAccepted port t x
      | none => s.refuse port .state
    | none => s.refuse port .badArg)

/-! ## LIST TAPS (R100) -/

/-- The eight bytes of one tap (R100, R178). -/
def State.tapBytes (s : State) (t : Fin 16) (x : Tap) : List Byte :=
  [numberByte t, numberByte x.listener, numberByte x.target, countByte (tapKindNumber x.kind)]
    ++ (halfOf x.gain).bytes ++ [ownerByte (some x.owner), flagByte ((s.pos x.target).state = .connected)]

/-- LIST TAPS (R100). -/
def execListTaps (port : Port) (s : State) : Host.Outcome State Fault Refusal :=
  .next (s.request port Code.listTaps fun s =>
    s.answer port .ok
      (countByte s.tapsInUse.length :: s.tapsInUse.flatMap fun x => s.tapBytes x.1 x.2))

end Sys2Proof.Machine
end

