-- ==== Sys2Proof/Machine/Streams.lean ====
section
/-! DEFINITION. Stream players: placing fetch requests, producing samples, and the requests START STREAM,
LOAD STREAM, STOP STREAM and STREAM INFO (08_hold_streams_and_playlists.md). -/

namespace Sys2Proof.Machine

/-! ## Fetching (R146) -/

/-- A stream places a request when it is RUNNING, its next slot is empty and its fetch cursor names a page
(R146). The fetch cursor moves on, or becomes undecided after an item's last page. -/
def State.streamRequest (s : State) (k : Fin 16) : State :=
  let x := s.stream k
  match x.state, x.next, x.cursor with
  | .running, .empty, .page item index =>
    match x.item item with
    | some it =>
      let c := s.clip it.clip
      (s.setStream k { x with
        next := .awaited item
        cursor := if c.lastIndex index then .undecided else .page item (index + 1) }).requestFetch
        ⟨.stream k, x.generation, c.base + index, index⟩
    | none => s
  | _, _, _ => s

/-! ## Playing (R147, R150, R151) -/

/-- A stream whose playing and next slots are empty and whose fetch cursor is exhausted becomes ENDED and
files STREAM_ENDED (R150). -/
def State.endIfDone (s : State) (k : Fin 16) : State :=
  let x := s.stream k
  match x.playing, x.next, x.cursor with
  | none, .empty, .exhausted =>
    (s.setStream k { x with state := .ended }).fileOwner x.owner .streamEnded k.val 0
  | _, _, _ => s

/-- The value of the next sample of a page in a playing slot of a stream (R88, R147). -/
def StreamPlaying.value (l : Law) (y : StreamPlaying) : Int :=
  applyGain y.page.gain (expand l (y.page.codes.nth y.played 0))

/-- Playing one sample of the page in the playing slot; a page whose last sample is played leaves the slot
(R147; log entry 19). -/
def State.streamPlay (s : State) (k : Fin 16) (y : StreamPlaying) : Int × State :=
  (y.value s.law,
    if y.played + 1 < y.page.samples then
      s.setStream k { s.stream k with playing := some { y with played := y.played + 1 } }
    else (s.setStream k { s.stream k with playing := none }).endIfDone k)

/-- The page in the next slot moves into the playing slot; priming and underrun end, and a request may be
placed (R147). -/
def State.streamTake (s : State) (k : Fin 16) (page : StreamPage) : State :=
  (s.setStream k { s.stream k with
    playing := some ⟨page, 0⟩, next := .empty, priming := false, underrun := false }).streamRequest k

/-- A sample needed while the next slot is awaited: priming gives 0; otherwise it is an underrun sample, and
the first of an episode files STREAM_UNDERRUN (R151). -/
def State.streamStarve (s : State) (k : Fin 16) (item : Nat) : State :=
  let x := s.stream k
  if x.priming then s
  else
    let s := s.setStream k { x with underrun := true, underrunSamples := satAdd max32 x.underrunSamples 1 }
    if x.underrun then s else s.fileOwner x.owner .streamUnderrun k.val item

/-- One sample of a stream (R147). -/
def State.streamSample (s : State) (k : Fin 16) : Int × State :=
  match (s.stream k).state with
  | .running =>
    match (s.stream k).playing with
    | some y => s.streamPlay k y
    | none =>
      match (s.stream k).next with
      | .filled page => (s.streamTake k page).streamPlay k ⟨page, 0⟩
      | .awaited item => (0, s.streamStarve k item)
      | .empty => (0, s.endIfDone k)
  | .stopped => (0, s)
  | .ended => (0, s)

/-- The next `n` samples of a stream. -/
def State.streamSamples (k : Fin 16) : Nat → State → List Int × State
  | 0, s => ([], s)
  | n + 1, s =>
    let r := s.streamSample k
    let rest := State.streamSamples k n r.2
    (r.1 :: rest.1, rest.2)

/-- The frame of one stream at a frame completion (R147): zeros and no change unless it is RUNNING. -/
def State.streamFrame (s : State) (k : Fin 16) : Frame × State :=
  match (s.stream k).state with
  | .running =>
    let r := State.streamSamples k 32 s
    (Table.ofList 32 0 r.1, r.2)
  | .stopped => (Frame.zero, s)
  | .ended => (Frame.zero, s)

/-- The frames of all streams, in ascending order (R88; log entry 9). -/
def State.streamFrames (s : State) : Table 16 Frame × State :=
  (List.finRange 16).foldl
    (fun acc k =>
      let r := acc.2.streamFrame k
      (acc.1.put k r.1, r.2))
    (Table.fill 16 Frame.zero, s)

/-! ## Playlists (R141) -/

/-- Whether an enabled loop lies in the list (R141). -/
def loopInList (l : LoopArg) (items : Nat) : Bool :=
  !l.enabled || (l.top.toNat ≤ l.bottom.toNat && l.bottom.toNat < items)

/-- The checks of R141. -/
def playlistLegal (p : PlaylistArg) : Bool :=
  1 ≤ p.items.length && p.items.length ≤ 16
    && loopInList p.inner p.items.length && loopInList p.outer p.items.length
    && (!(p.inner.enabled && p.outer.enabled)
      || (p.outer.top.toNat ≤ p.inner.top.toNat && p.inner.bottom.toNat ≤ p.outer.bottom.toNat))

/-- An item as stored (R141). -/
def storedItem (i : ItemArg) : Item := ⟨clipNumber i.clip, clampGain i.gain.toNat⟩

/-- A playlist as stored: gains above 32768 become 32768, and an inner count of 0 becomes 1 (R141). -/
def storedPlaylist (p : PlaylistArg) : Playlist where
  items := p.items.map storedItem
  inner := ⟨p.inner.enabled, p.inner.top.toNat, p.inner.bottom.toNat, max 1 p.inner.count.toNat⟩
  outer := ⟨p.outer.enabled, p.outer.top.toNat, p.outer.bottom.toNat, p.outer.count.toNat⟩

/-- The acceptance of a playlist by the clip store controller: play counts rise and notes are made (R107,
R115). -/
def State.acceptItems (s : State) (p : Port) (items : List Item) : State := (s.addPlays items).noteItems p items

/-! ## START STREAM (R142) -/

/-- A stream as START STREAM leaves it, before its first request. -/
def Stream.started (x : Stream) (p : Port) (l : Playlist) : Stream :=
  { x with
    state := .running, owner := some p, current := some l, staged := none,
    inner := loadRemainder l.inner.count, outer := loadRemainder l.outer.count,
    cursor := .page 0 0, next := .empty, playing := none, priming := true, underrun := false,
    underrunSamples := 0 }

/-- START STREAM accepted (R142). -/
def State.startAccepted (s : State) (p : Port) (k : Fin 16) (l : Playlist) : State :=
  let s := s.acceptItems p l.items
  ((s.setStream k ((s.stream k).started p l)).streamRequest k).answer p .ok []

/-- START STREAM (R142). -/
def execStartStream (p : Port) (stream : Byte) (l : PlaylistArg) (s : State) : Host.Outcome State Fault Refusal :=
  .next (s.request p Code.startStream fun s =>
    s.withNumber p stream fun k s =>
      s.checked p
        [(!playlistLegal l, .badArg),
         ((s.stream k).state ≠ .stopped && (s.stream k).owner = some p, .state),
         ((s.stream k).state ≠ .stopped, .notOwner)]
        fun s => s.checkItems p Code.startStream (storedPlaylist l).items fun s => s.startAccepted p k (storedPlaylist l))

/-! ## LOAD STREAM (R143) -/

/-- A LOAD on an ENDED stream restarts it with the new playlist (R143). -/
def Stream.restarted (x : Stream) (l : Playlist) : Stream :=
  { x with
    state := .running, current := some l, staged := none,
    inner := loadRemainder l.inner.count, outer := loadRemainder l.outer.count,
    cursor := .page 0 0, priming := true }

/-- The index of the item at whose end the current playlist was found at its end (R148 step 5). -/
def Stream.lastItem (x : Stream) : Nat :=
  match x.current with
  | some l => l.items.length - 1
  | none => 0

/-- LOAD STREAM accepted (R143). -/
def State.loadAccepted (s : State) (p : Port) (k : Fin 16) (l : Playlist) : State :=
  let s := s.acceptItems p l.items
  let x := s.stream k
  match x.state with
  | .ended =>
    let s := s.dropPlays x.current
    ((s.setStream k (x.restarted l)).streamRequest k).answer p .ok []
  | .running =>
    let s := s.dropPlays x.staged
    let s := s.setStream k { x with staged := some l }
    match x.cursor with
    | .exhausted => ((s.switch k x.lastItem).streamRequest k).answer p .ok []
    | _ => s.answer p .ok []
  | .stopped => s.answer p .ok []

/-- LOAD STREAM (R143). -/
def execLoadStream (p : Port) (stream : Byte) (l : PlaylistArg) (s : State) : Host.Outcome State Fault Refusal :=
  .next (s.request p Code.loadStream fun s =>
    s.withNumber p stream fun k s =>
      s.checked p
        [(!playlistLegal l, .badArg),
         ((s.stream k).state = .stopped, .state),
         ((s.stream k).owner ≠ some p, .notOwner)]
        fun s => s.checkItems p Code.loadStream (storedPlaylist l).items fun s => s.loadAccepted p k (storedPlaylist l))

/-! ## STOP STREAM (R144) -/

/-- A stopped stream: its underrun samples and remainders are kept (R144). -/
def Stream.stoppedFrom (x : Stream) : Stream :=
  { x with
    state := .stopped, owner := none, generation := x.generation + 1, current := none, staged := none,
    cursor := .absent, next := .empty, playing := none, priming := false, underrun := false }

/-- Stopping a stream: playlists discarded and play counts returned, slots emptied, generation raised and the
waiting request removed (R144, R153). -/
def State.stopStream (s : State) (k : Fin 16) : State :=
  let x := s.stream k
  let s := (s.dropPlays x.staged).dropPlays x.current
  (s.setStream k x.stoppedFrom).cancelFetch (.stream k)

/-- STOP STREAM (R144). -/
def execStopStream (p : Port) (stream : Byte) (s : State) : Host.Outcome State Fault Refusal :=
  .next (s.request p Code.stopStream fun s =>
    s.withNumber p stream fun k s =>
      s.checked p
        [((s.stream k).state = .stopped, .state),
         ((s.stream k).owner ≠ some p, .notOwner),
         (0 < (s.stream k).listeners, .inUse)]
        fun s => (s.stopStream k).answer p .ok [])

/-! ## STREAM INFO (R145) -/

/-- The bytes of a stored loop (R178). -/
def Loop.bytes (l : Loop) : List Byte := [flagByte l.enabled, countByte l.top, countByte l.bottom, countByte l.count]

/-- The bytes of a stored playlist (R178). -/
def Playlist.bytes (l : Playlist) : List Byte :=
  countByte l.items.length :: (l.items.flatMap fun i => numberByte i.clip :: (halfOf i.gain).bytes)
    ++ l.inner.bytes ++ l.outer.bytes

/-- A playlist in a reply; an absent one has no item, and its loops' bytes are open (log entry 18). -/
def playlistBytes (l : Option Playlist) (free : List Byte) : List Byte :=
  match l with
  | some l => l.bytes
  | none => 0 :: free

/-- The play cursor: item, page index and sample of the page in the playing slot; open when it is empty
(R140, log entry 14). -/
def playCursorBytes (y : Option StreamPlaying) (free : List Byte) : List Byte :=
  match y with
  | some y => [countByte y.page.item] ++ (halfOf y.page.index).bytes ++ [countByte y.played]
  | none => free

/-- The fetch cursor: item, page index and mark (R178); what a cursor does not name is open. -/
def fetchCursorBytes (c : FetchCursor) (free : List Byte) : List Byte :=
  match c with
  | .page item index => [countByte item] ++ (halfOf index).bytes ++ [0]
  | .undecided => free.take 3 ++ [1]
  | .exhausted => free.take 3 ++ [2]
  | .absent => free

/-- The priming and underrun flags in one byte (R178). -/
def streamFlags (x : Stream) : Byte := countByte (detailBit x.priming 0 + detailBit x.underrun 1)

/-- The payload of STREAM INFO's reply (R145, R178), over 24 open bytes. -/
def streamInfoPayload (x : Stream) (free : List Byte) : List Byte :=
  [streamStateByte x.state, ownerByte x.owner] ++ x.generation.bytes
    ++ playlistBytes x.current (free.take 8)
    ++ [flagByte x.staged.isSome] ++ playlistBytes x.staged ((free.drop 8).take 8)
    ++ [countByte x.inner, countByte x.outer]
    ++ playCursorBytes x.playing ((free.drop 16).take 4)
    ++ fetchCursorBytes x.cursor ((free.drop 20).take 4)
    ++ [streamFlags x, countByte x.listeners] ++ (wideOf x.underrunSamples).bytes

/-- STREAM INFO (R145). -/
def execStreamInfo (p : Port) (stream : Byte) (clear : Bool) (s : State) : Host.Outcome State Fault Refusal :=
  .next (s.request p Code.streamInfo fun s =>
    s.withNumber p stream fun k s =>
      s.checked p
        [(clear && (s.stream k).state = .stopped, .state),
         (clear && (s.stream k).owner ≠ some p, .notOwner)]
        fun s =>
          let payload := streamInfoPayload (s.stream k) (s.freeBytes 24)
          let s := s.drawn 24
          let s := if clear then s.setStream k { s.stream k with underrunSamples := 0 } else s
          s.answer p .ok payload)

/-! ## Listeners (R33, R152) -/

/-- A position comes to name a stream. -/
def State.addListener (s : State) (k : Option (Fin 16)) : State :=
  match k with
  | some k => s.setStream k { s.stream k with listeners := (s.stream k).listeners + 1 }
  | none => s

/-- A position stops naming a stream. -/
def State.dropListener (s : State) (k : Option (Fin 16)) : State :=
  match k with
  | some k => s.setStream k { s.stream k with listeners := (s.stream k).listeners - 1 }
  | none => s

end Sys2Proof.Machine
end

