-- ==== Sys2Proof/Machine/WhisperBlock.lean ====
section
/-! DEFINITION. The whisper block: queues, flushes, the assignment of prompt players, the frames they hand
to the mixer, and the requests WHISPER and CANCEL WHISPER (09_whisper_queues_and_prompt_players.md; the
end of an announcement is R31 of 02_agent_positions.md). -/

namespace Sys2Proof.Machine

/-! ## The end of an announcement (R31) -/

/-- The report that a position's ANNOUNCE entry has left its queue, played or cancelled (R31, R33). -/
def State.announceEnded (s : State) (p : Fin 64) (cancelled : Bool) : State :=
  let x := s.pos p
  let s := match x.state with
    | .announce => (s.setPos p { x with state := .connected, stream := none }).dropListener x.stream
    | .held => s.setPos p { x with announcePending := false }
    | .closed => s
    | .idle => s
    | .connected => s
  s.fileOwner x.owner .announceDone p.val (if cancelled then 1 else 0)

/-! ## Players: assignment and fetching (R162 to R164) -/

/-- A free player of a generation. -/
def PromptPlayer.free (generation : Half) : PromptPlayer := ⟨none, generation, .absent, .empty, none⟩

/-- The player assigned to a position's head. -/
def State.playerOf (s : State) (p : Fin 64) : Option (Fin 16) :=
  (List.finRange 16).find? fun w => (s.player w).assigned = some p

/-- The lowest-numbered free player (R163). -/
def State.freePlayer (s : State) : Option (Fin 16) :=
  (List.finRange 16).find? fun w => (s.player w).assigned.isNone

/-- How far a position's WAITING head lies behind the arrival counter; none when its queue has no WAITING
head (R157). -/
def State.waitingAge (s : State) (p : Fin 64) : Option Nat :=
  match (s.queue p).head? with
  | some e => if e.phase = .waiting then some (s.whisper.arrival - e.arrival).toNat else none
  | none => none

/-- The older of two positions' WAITING heads. -/
def State.olderHead (s : State) (best : Option (Fin 64)) (p : Fin 64) : Option (Fin 64) :=
  match s.waitingAge p, best.bind s.waitingAge with
  | none, _ => best
  | some _, none => some p
  | some a, some b => if b < a then some p else best

/-- The position with the oldest WAITING head (R163). -/
def State.oldestHead (s : State) : Option (Fin 64) := (List.finRange 64).foldl s.olderHead none

/-- A player places a request when it is assigned, its next slot is empty and its fetch cursor names a page
(R164). -/
def State.promptRequest (s : State) (w : Fin 16) : State :=
  let x := s.player w
  match x.next, x.cursor, s.playedClip w with
  | .empty, .page index, some c =>
    (s.setPlayer w { x with
      next := .awaited
      cursor := if (s.clip c).lastIndex index then .done else .page (index + 1) }).requestFetch
      ⟨.prompt w, x.generation, (s.clip c).base + index, index⟩
  | _, _, _ => s

/-- A queue whose head is in a phase. -/
def withHeadPhase (phase : EntryPhase) : List Entry → List Entry
  | [] => []
  | e :: rest => { e with phase := phase } :: rest

/-- Assigning a player to a position's head, which becomes PRIMING (R163). -/
def State.assign (s : State) (w : Fin 16) (p : Fin 64) : State :=
  ((s.setQueue p (withHeadPhase .priming (s.queue p))).setPlayer w
    ⟨some p, (s.player w).generation, .page 0, .empty, none⟩).promptRequest w

/-- Up to `n` assignments, while a player is free and a head WAITING (R163). -/
def State.assignments : Nat → State → State
  | 0, s => s
  | n + 1, s =>
    match s.freePlayer, s.oldestHead with
    | some w, some p => State.assignments n (s.assign w p)
    | _, _ => s

/-- The assignment of players (R163): each one takes one of the 16 players. -/
def State.assignPlayers (s : State) : State := State.assignments 16 s

/-! ## Flushes (R161) -/

/-- Why an entry is flushed (R178). -/
inductive FlushCause where
  | cancel
  | release
  | close
  | portReset
  deriving DecidableEq, Repr

/-- The code of a cause (R178). -/
def FlushCause.number : FlushCause → Nat
  | .cancel => 0
  | .release => 1
  | .close => 2
  | .portReset => 3

/-- The code of an entry's kind (R178). -/
def EntryKind.number : EntryKind → Nat
  | .prompt => 0
  | .announce => 1

/-- The clip and kind of an entry in an event's detail (R178). -/
def Entry.detail (e : Entry) : Nat := e.clip.val + 256 * e.kind.number

/-- The player of a flushed entry: its generation rises, its slots empty, its waiting fetch is removed, and
it returns to the pool (R161, R127). -/
def State.flushPlayer (s : State) (p : Fin 64) : State :=
  match s.playerOf p with
  | some w => (s.setPlayer w (PromptPlayer.free ((s.player w).generation + 1))).cancelFetch (.prompt w)
  | none => s

/-- What the flush of one entry does once it has left its queue (R161). -/
def State.flushed (s : State) (p : Fin 64) (cause : FlushCause) (e : Entry) : State :=
  let s := s.dropPlay e.clip
  let s := if e.phase = .waiting then s else s.flushPlayer p
  let s := s.file e.origin .promptFlushed p.val (e.detail + 4096 * cause.number)
  if cause = .cancel && e.kind = .announce then s.announceEnded p true else s

/-- The flush of the chosen entries of a position's queue, head first (R161). The assignment of players is
the flushing request's own last step (log entry 11). -/
def State.flush (s : State) (p : Fin 64) (cause : FlushCause) (chosen : Entry → Bool) : State :=
  ((s.queue p).filter chosen).foldl (fun s e => s.flushed p cause e)
    (s.setQueue p ((s.queue p).filter fun e => !chosen e))

/-- Whether a position's queue holds an ANNOUNCE entry. -/
def State.announceQueued (s : State) (p : Fin 64) : Bool := (s.queue p).any fun e => e.kind = .announce

/-! ## Queuing (R158, R159) -/

/-- The arrival number is given out, and the arrival counter adds one (R157). -/
def State.numbered (s : State) : State :=
  { s with whisper := { s.whisper with arrival := s.whisper.arrival + 1 } }

/-- A new entry, which takes the next arrival number (R157). -/
def State.newEntry (s : State) (clip : Fin 256) (gain : Half) (origin : Port) (kind : EntryKind) : Entry :=
  ⟨clip, clampGain gain.toNat, origin, kind, s.whisper.arrival, .waiting⟩

/-- Where an ANNOUNCE entry is placed (R159). -/
def placeAnnounce (e : Entry) : List Entry → List Entry
  | [] => [e]
  | h :: rest => if h.phase = .waiting then e :: h :: rest else h :: e :: rest

/-- An entry joins a queue: the play count rises, a PLAY_NOTE reference is noted, and players are assigned
(R107, R115, R158, R159, R163). -/
def State.queueEntry (s : State) (p : Fin 64) (port : Port) (e : Entry) (place : List Entry → List Entry) : State :=
  (((s.setQueue p (place (s.queue p))).numbered.addPlay e.clip).note port .whisper e.clip).assignPlayers

/-- The checks on a new entry, in the order of R158: QUEUE_FULL, CLIP_FAULT, IN_USE; then the effect. -/
def State.checkEntry (s : State) (port : Port) (code : Byte) (p : Fin 64) (c : Fin 256) (effect : State → State) : State :=
  if 4 ≤ (s.queue p).length then s.refuse port .queueFull
  else s.checkItems port code [⟨c, 0⟩] effect

/-- WHISPER accepted (R158). -/
def State.whisperAccepted (s : State) (port : Port) (p : Fin 64) (c : Fin 256) (gain : Half) : State :=
  (s.queueEntry p port (s.newEntry c gain port .prompt) (fun q => q ++ [s.newEntry c gain port .prompt])).answer
    port .ok s.whisper.arrival.bytes

/-- WHISPER (R158). -/
def execWhisper (port : Port) (position clip : Byte) (gain : Half) (s : State) : Host.Outcome State Fault Refusal :=
  .next (s.request port Code.whisper fun s =>
    s.withNumber port position fun p s =>
      s.checked port [((s.pos p).state = .closed, .state)]
        fun s => s.checkEntry port Code.whisper p (clipNumber clip)
          fun s => s.whisperAccepted port p (clipNumber clip) gain)

/-- The entries CANCEL WHISPER flushes: all of them from the owner, else the requester's own (R160). -/
def State.cancelled (s : State) (port : Port) (p : Fin 64) (e : Entry) : Bool :=
  (s.pos p).owner = some port || e.origin = port

/-- CANCEL WHISPER accepted (R160). -/
def State.cancelAccepted (s : State) (port : Port) (p : Fin 64) : State :=
  ((s.flush p .cancel (s.cancelled port p)).assignPlayers).answer port .ok
    [countByte ((s.queue p).filter (s.cancelled port p)).length]

/-- CANCEL WHISPER (R160). -/
def execCancelWhisper (port : Port) (position : Byte) (s : State) : Host.Outcome State Fault Refusal :=
  .next (s.request port Code.cancelWhisper fun s =>
    s.withNumber port position fun p s =>
      s.checked port [((s.pos p).state = .closed, .state)] fun s => s.cancelAccepted port p)

/-! ## Sounding (R164, R165) -/

/-- Whether a position's head is SOUNDING. -/
def State.sounding (s : State) (p : Fin 64) : Bool :=
  match (s.queue p).head? with
  | some e => e.phase = .sounding
  | none => false

/-- Whether a position's head is PRIMING and its player's next slot is filled. -/
def State.primed (s : State) (p : Fin 64) : Bool :=
  match (s.queue p).head?, (s.playerOf p).map fun w => (s.player w).next with
  | some e, some (.filled _) => e.phase = .priming
  | _, _ => false

/-- At a frame completion, a primed head becomes SOUNDING (R164). -/
def State.soundHeads (s : State) : State :=
  (List.finRange 64).foldl
    (fun s p => if s.primed p then s.setQueue p (withHeadPhase .sounding (s.queue p)) else s) s

/-- Playing one sample of the page in a player's playing slot. -/
def State.promptPlay (s : State) (w : Fin 16) (y : PromptPlaying) : Int × State :=
  (expand s.law (y.page.codes.nth y.played 0),
    s.setPlayer w { s.player w with
      playing := if y.played + 1 < y.page.samples then some { y with played := y.played + 1 } else none })

/-- The page in the next slot moves into the playing slot, and a request may be placed (R165). -/
def State.promptTake (s : State) (w : Fin 16) (page : PromptPage) : State :=
  (s.setPlayer w { s.player w with playing := some ⟨page, 0⟩, next := .empty }).promptRequest w

/-- A sample handed as 0 for want of a page adds one to the position's whisper-underrun statistic (R165). -/
def State.whisperStarve (s : State) (p : Fin 64) : State :=
  let x := s.pos p
  s.setPos p { x with stats := { x.stats with whisperUnderrun := satAdd max32 x.stats.whisperUnderrun 1 } }

/-- One sample of a SOUNDING head (R165). -/
def State.whisperSample (s : State) (p : Fin 64) (w : Fin 16) : Int × State :=
  match (s.player w).playing, (s.player w).next with
  | some y, _ => s.promptPlay w y
  | none, .filled page => (s.promptTake w page).promptPlay w ⟨page, 0⟩
  | none, .awaited => (0, s.whisperStarve p)
  | none, .empty => (0, s)

/-- The next `n` samples of a SOUNDING head. -/
def State.whisperSamples (p : Fin 64) (w : Fin 16) : Nat → State → List Int × State
  | 0, s => ([], s)
  | n + 1, s =>
    let r := s.whisperSample p w
    let rest := State.whisperSamples p w n r.2
    (r.1 :: rest.1, rest.2)

/-- The 32 samples a position's SOUNDING head hands to the mixer, not scaled (R165); zeros for any other
position. -/
def State.whisperFrame (s : State) (p : Fin 64) : Frame × State :=
  if s.sounding p then
    match s.playerOf p with
    | some w =>
      let r := State.whisperSamples p w 32 s
      (Table.ofList 32 0 r.1, r.2)
    | none => (Frame.zero, s)
  else (Frame.zero, s)

/-- The whisper frames of all positions, in ascending order (R165; log entry 9). -/
def State.whisperFrames (s : State) : Table 64 Frame × State :=
  (List.finRange 64).foldl
    (fun acc p =>
      let r := acc.2.whisperFrame p
      (acc.1.put p r.1, r.2))
    (Table.fill 64 Frame.zero, s)

/-! ## Completion (R166) -/

/-- Whether a player has played its entry's last sample (R165). -/
def PromptPlayer.finished (x : PromptPlayer) : Bool :=
  match x.playing, x.next, x.cursor with
  | none, .empty, .done => true
  | _, _, _ => false

/-- The completion of a position's head, played by player `w` (R166). -/
def State.completeEntry (s : State) (p : Fin 64) (w : Fin 16) (e : Entry) : State :=
  let s := (s.setQueue p (s.queue p).tail).dropPlay e.clip
  let s := s.setPlayer w (PromptPlayer.free (s.player w).generation)
  let s := s.file e.origin .promptDone p.val e.detail
  let s := if e.kind = .announce then s.announceEnded p false else s
  s.assignPlayers

/-- The completion of a position's head, if it has played its last sample. -/
def State.completeHead (s : State) (p : Fin 64) : State :=
  match (s.queue p).head?, s.playerOf p with
  | some e, some w =>
    if e.phase = .sounding && (s.player w).finished then s.completeEntry p w e else s
  | _, _ => s

/-- The completions of one frame completion, in ascending order of position (R166; log entry 10). -/
def State.completeHeads (s : State) : State := (List.finRange 64).foldl (fun s p => s.completeHead p) s

end Sys2Proof.Machine
end

