-- ==== Sys2Proof/Machine/Mixing.lean ====
section
/-! DEFINITION. What the mixer forms at a frame completion: trunk-send frames, ear frames, the coach-duck
hangovers (05_ear_and_line_mixing_monitor_and_coach_taps.md, sections 5.1 and 5.2). -/

namespace Sys2Proof.Machine

/-- The frames the mixer's neighbours hand it at a completion (R86); the suppressor's stand in its kept
state. -/
structure MixInputs where
  clean   : Table 64 Frame
  streams : Table 16 Frame
  whisper : Table 64 Frame
  deriving DecidableEq, Repr

/-! ## Coach-duck hangovers (R93) -/

/-- Whether the listener of a position's COACH tap speaks at this completion. -/
def State.coachSpeaks (s : State) (p : Fin 64) : Bool :=
  match s.coachTap p with
  | some x => (s.suppressor x.listener).speech
  | none => false

/-- The hangover of an open position, brought up to date (R93). -/
def State.coachDuckAfter (s : State) (p : Fin 64) : Nat :=
  if (s.pos p).state = .closed then s.coachDuck p
  else if s.coachSpeaks p then 8 else s.coachDuck p - 1

/-- The hangovers of all positions, brought up to date (R93). -/
def State.updateCoachDuck (s : State) : State :=
  { s with mixer := { s.mixer with coachDuck := Table.build s.coachDuckAfter } }

/-! ## Trunk-send frames (R87) -/

/-- The frame of the stream a position names, or zeros. -/
def State.streamFrameOf (s : State) (m : MixInputs) (p : Fin 64) : Frame :=
  match (s.pos p).stream with
  | some k => m.streams.cell k
  | none => Frame.zero

/-- The trunk-send frame of a position (R87). -/
def State.trunkSend (s : State) (m : MixInputs) (p : Fin 64) : Frame :=
  match (s.pos p).state with
  | .connected => (s.suppressor p).send
  | .announce => s.streamFrameOf m p
  | .held => s.streamFrameOf m p
  | .idle => Frame.zero
  | .closed => Frame.zero

/-! ## Ear frames (R89 to R95) -/

/-- The duck factor (R91). -/
def State.duckFactor (s : State) (p : Fin 64) : Nat :=
  if s.sounding p || 0 < s.coachDuck p then (s.pos p).duck else 32768

/-- The caller's contribution to an ear sample (R91). -/
def State.callerPart (s : State) (m : MixInputs) (p : Fin 64) (i : Fin 32) : Int :=
  if s.connected p then applyGain (s.duckFactor p) ((m.clean.cell p).cell i) else 0

/-- The whisper's contribution (R92). -/
def State.whisperPart (s : State) (m : MixInputs) (p : Fin 64) (i : Fin 32) : Int :=
  match (s.queue p).head? with
  | some e => if e.phase = .sounding then applyGain e.gain ((m.whisper.cell p).cell i) else 0
  | none => 0

/-- The coaching voice's contribution (R94). -/
def State.coachPart (s : State) (p : Fin 64) (i : Fin 32) : Int :=
  if s.connected p then
    match s.coachTap p with
    | some x => applyGain x.gain ((s.suppressor x.listener).send.cell i)
    | none => 0
  else 0

/-- Half a sample, rounded half up (R95). -/
def halved (a : Int) : Int := shiftRight (a + 1) 1

/-- The monitored call's contribution (R95). -/
def State.monitorPart (s : State) (m : MixInputs) (p : Fin 64) (i : Fin 32) : Int :=
  match s.listenerTap p with
  | some x =>
    if s.connected x.target then
      halved ((m.clean.cell x.target).cell i) + halved ((s.trunkSend m x.target).cell i)
    else 0
  | none => 0

/-- The exact sum of an ear sample (R90). -/
def State.earSum (s : State) (m : MixInputs) (p : Fin 64) (i : Fin 32) : Int :=
  s.callerPart m p i + s.whisperPart m p i + s.coachPart p i + s.monitorPart m p i

/-- The exact sums of a position's ear frame (R90). -/
def State.earSums (s : State) (m : MixInputs) (p : Fin 64) : Frame := Table.build (s.earSum m p)

/-- The number of samples of a frame that saturation changes (R89). -/
def clippedCount (f : Frame) : Nat := (f.toList.filter clips).length

/-! ## Transmit buffers and statistics (R6, R89) -/

/-- A frame saturated and compressed (R6). -/
def coded (l : Law) (f : Frame) : Table 32 Byte := f.map fun x => compress l (saturate x)

/-- The agent timeslots with their ear frames in their transmit buffers (R6). -/
def State.earBuffers (s : State) (ears : Table 64 Frame) : Table 64 (Option Line) :=
  s.highway.agent.map fun x => x.map fun l => { l with transmit := coded s.law (ears.cell l.position) }

/-- The trunk timeslots with their trunk-send frames in their transmit buffers (R6). -/
def State.trunkBuffers (s : State) (m : MixInputs) : Table 64 (Option TrunkLine) :=
  s.highway.trunk.map fun x => x.map fun l =>
    { l with line := { l.line with transmit := coded s.law (s.trunkSend m l.line.position) } }

/-- The positions with their clipped samples counted; the mixer forms no frame for a CLOSED one (R86, R89). -/
def State.clippedCounted (s : State) (ears : Table 64 Frame) : Table 64 Position :=
  Table.build fun p =>
    let x := s.pos p
    if x.state = .closed then x
    else { x with stats := { x.stats with clipped := satAdd max32 x.stats.clipped (clippedCount (ears.cell p)) } }

/-- The mixer's work at a frame completion (R86 to R95). -/
def State.mix (s : State) (m : MixInputs) : State :=
  let ears := Table.build (s.earSums m)
  { s with
    positions := s.clippedCounted ears
    highway := { s.highway with agent := s.earBuffers ears, trunk := s.trunkBuffers m } }

end Sys2Proof.Machine
end

