-- ==== Sys2Proof/Machine/HighwayEvents.lean ====
section
/-! DEFINITION. The highway interface: cycles, debouncing, frame completion, and the sync monitor
(01_highways_and_sample_coding.md). -/

namespace Sys2Proof.Machine

/-! ## Bit periods of a cycle (R3, R18) -/

/-- Bit period `i` of timeslot `n`: the timeslot occupies bit periods 8n to 8n + 7 of the cycle (R3). -/
def slotPeriod (n : Fin 64) (i : Fin 8) : Fin 512 := ⟨8 * n.val + i.val, by omega⟩

/-- The code a line carries in a timeslot, most significant bit first (R3). -/
def slotCode (line : LineBits) (n : Fin 64) : Byte :=
  let bit := fun i => line.cell (slotPeriod n i)
  byteOfBits (bit 0) (bit 1) (bit 2) (bit 3) (bit 4) (bit 5) (bit 6) (bit 7)

/-- What a line on which each timeslot carries a code or is at high impedance shows in a bit period (R3, R7). -/
def slotLevel (codes : Table 64 (Option Byte)) (period : Fin 512) : Option Bool :=
  (codes.cell ⟨period.val / 8, by omega⟩).map fun code => code.getMsbD (period.val % 8)

/-- The level of TRK_TX in a bit period of the last cycle; none at high impedance (R3, R7; log entry 22). -/
def State.trkTx (s : State) (period : Fin 512) : Option Bool := slotLevel s.highway.trunkOut period

/-- The level of AGT_TX in a bit period of the last cycle. -/
def State.agtTx (s : State) (period : Fin 512) : Option Bool := slotLevel s.highway.agentOut period

/-- The two bits AGT_SIG carries in an agent timeslot of one cycle (section 1.8). -/
structure SigBits where
  present : Bool
  mute    : Bool
  deriving DecidableEq, Repr

/-- PRESENT in the first bit period of an agent timeslot, MUTE in the second; the other six are not read (R18). -/
def slotSig (agentSig : LineBits) (a : Fin 64) : SigBits where
  present := agentSig.cell (slotPeriod a 0)
  mute := agentSig.cell (slotPeriod a 1)

/-! ## Headset signalling (R18, R19) -/

/-- A debounce counter after one sample (R18); 24 is an expiry still to be taken (log entry 7). -/
def countSample (debounced sampled : Bool) (count : Nat) : Nat := if sampled = debounced then 0 else count + 1

/-- A timeslot's debounce state after one cycle (R18). -/
def Debounce.sampled (d : Debounce) (b : SigBits) : Debounce :=
  { d with
    presentCount := countSample d.present b.present d.presentCount
    muteCount := countSample d.mute b.mute d.muteCount }

/-- Whether a timeslot's PRESENT or MUTE counter has reached 24. -/
def Debounce.presentDue (d : Debounce) : Bool := d.presentCount = 24
def Debounce.muteDue (d : Debounce) : Bool := d.muteCount = 24

/-- The values take the sampled values, which differ from them, and the counters return to 0 (R18). -/
def Debounce.expired (d : Debounce) : Debounce where
  present := if d.presentDue then !d.present else d.present
  mute := if d.muteDue then !d.mute else d.mute
  presentCount := if d.presentDue then 0 else d.presentCount
  muteCount := if d.muteDue then 0 else d.muteCount

/-- The detail of HEADSET_CHANGE (R178): the new values, and which changed. -/
def Debounce.changeDetail (d : Debounce) : Nat :=
  detailBit d.expired.present 0 + detailBit d.expired.mute 1 + detailBit d.presentDue 8 + detailBit d.muteDue 9

/-- The debounce state of an agent timeslot. -/
def State.debounced (s : State) (a : Fin 64) : Debounce := s.highway.debounce.cell a

/-- The state with an agent timeslot's debounce state replaced. -/
def State.setDebounced (s : State) (a : Fin 64) (d : Debounce) : State :=
  { s with highway := { s.highway with debounce := s.highway.debounce.put a d } }

/-- HEADSET_CHANGE for the owner of the position on a timeslot; none for an unbound one (R19). -/
def State.headsetChange (s : State) (a : Fin 64) (detail : Nat) : State :=
  match s.highway.agent.cell a with
  | some l => s.fileOwner (s.pos l.position).owner .headsetChange l.position.val detail
  | none => s

/-- The expiry of an agent timeslot's debounce counters (R18, R19). -/
def State.expireSlot (s : State) (a : Fin 64) : State :=
  let d := s.debounced a
  if d.presentDue || d.muteDue then (s.setDebounced a d.expired).headsetChange a d.changeDetail else s

/-- The expiries still to be taken, in ascending order of timeslot. -/
def State.settleDebounce (s : State) : State := (List.finRange 64).foldl State.expireSlot s

/-- DEBOUNCE_COUNT_EXPIRY (R18). -/
def execDebounceCountExpiry (slot : Fin 64) (s : State) : Host.Outcome State Fault Refusal :=
  .next (s.expireSlot slot)

/-! ## Frame completion (R4, R5) -/

/-- A line at the beginning of a frame: its receive buffer is empty and fills (R5). -/
def Line.beginFrame (x : Line) : Line := { x with received := some [] }

/-- A trunk line at the beginning of a frame: no code of the frame is sent yet (R6). -/
def TrunkLine.beginFrame (x : TrunkLine) : TrunkLine := ⟨x.line.beginFrame, []⟩

/-- Every bound timeslot begins a frame (R5, R8). -/
def State.beginFrame (s : State) : State :=
  { s with highway := { s.highway with
    agent := s.highway.agent.map (Option.map Line.beginFrame)
    trunk := s.highway.trunk.map (Option.map TrunkLine.beginFrame) } }

/-- The frame stamp advances (R20), and the completion is no longer due. -/
def State.stamped (s : State) : State :=
  { s with highway := { s.highway with stamp := s.highway.stamp + 1, frameDue := false } }

/-- The frame in progress is no longer the first since LOCKED. -/
def State.pastFirstFrame (s : State) : State := { s with highway := { s.highway with firstFrame := false } }

/-- The work of one frame completion (R4), in the order of log entry 9: canceller, suppressor, streams,
whisper block, mixer, the frame buffers, and then the whisper entries that have ended (R31, R166). -/
def State.completeFrame (s : State) : State :=
  let echo := s.stamped.echoFrames
  let streams := echo.2.suppressFrames.streamFrames
  let whisper := streams.2.soundHeads.whisperFrames
  let mixed := whisper.2.updateCoachDuck.mix ⟨echo.1, streams.1, whisper.1⟩
  mixed.beginFrame.pastFirstFrame.completeHeads

/-- A frame completion that is due. -/
def State.settleFrame (s : State) : State := if s.highway.frameDue then s.completeFrame else s

/-- The effects of the cycles so far that are still to be taken: expiries, then a frame completion (log
entry 7). -/
def State.settle (s : State) : State := s.settleDebounce.settleFrame

/-- FRAME_COMPLETION (R4); when none is due nothing happens (log entries 3 and 7). -/
def execFrameCompletion (s : State) : Host.Outcome State Fault Refusal :=
  .next (if s.highway.frameDue then s.settle else s)

/-! ## Cycles (R3, R5 to R7) -/

/-- A receive buffer after one more code (R5). -/
def received1 (buffer : Option (List Byte)) (code : Byte) : Option (List Byte) := buffer.map fun l => l ++ [code]

/-- A line after one received code. -/
def Line.receive (x : Line) (code : Byte) : Line := { x with received := received1 x.received code }

/-- A trunk line after one received code and one sent one (R6). -/
def TrunkLine.exchange (x : TrunkLine) (code : Byte) (cycle : Fin 32) : TrunkLine :=
  ⟨x.line.receive code, x.sent ++ [x.line.transmit.cell cycle]⟩

/-- Where the sync monitor and the cycle counter stand after a cycle (R3). -/
def nextCycle (start : Nat) (cycle : Fin 32) : Sync :=
  .locked (start + 512) (if h : cycle.val + 1 < 32 then ⟨cycle.val + 1, h⟩ else 0)

/-- A cycle while LOCKED (R3, R5, R6, R18). It is taken whole: a cycle that a pulse out of place cuts short leaves
nothing behind (log entry 26). -/
def State.lockedCycle (s : State) (start : Nat) (cycle : Fin 32) (trunkRx agentRx agentSig : LineBits) : State :=
  let h := s.highway
  { s with highway := { h with
    sync := nextCycle start cycle
    frameDue := decide (cycle.val = 31)
    agent := Table.build fun a => (h.agent.cell a).map fun x => x.receive (slotCode agentRx a)
    trunk := Table.build fun t => (h.trunk.cell t).map fun x => x.exchange (slotCode trunkRx t) cycle
    debounce := Table.build fun a => (h.debounce.cell a).sampled (slotSig agentSig a)
    agentOut := h.agent.map (Option.map fun x => x.transmit.cell cycle)
    trunkOut := h.trunk.map (Option.map fun x => x.line.transmit.cell cycle) } }

/-- A cycle while LOST: every bound timeslot is driven with the silence code (R7, R9, R10). DESIGN CHOICE, log entry 34: the
cycle at whose first bit period the expected pulse is missing is such a cycle from that bit period on, though R9 gives silence
only from the next one; and a cycle while LOST has no place of its own on the highways. -/
def State.lostCycle (s : State) : State :=
  { s with highway := { s.highway with
    agentOut := s.highway.agent.map (Option.map fun _ => s.silence)
    trunkOut := s.highway.trunk.map (Option.map fun _ => s.silence) } }

/-- A cycle, what was due having been taken. -/
def State.cycled (s : State) (trunkRx agentRx agentSig : LineBits) : State :=
  match s.highway.sync with
  | .locked start cycle => s.lockedCycle start cycle trunkRx agentRx agentSig
  | .lost _ => s.lostCycle

/-- CYCLE (R3); until the part runs no timeslot is driven and AGT_SIG is ignored (R7). -/
def execCycle (trunkRx agentRx agentSig : LineBits) (s : State) : Host.Outcome State Fault Refusal :=
  match s.phase with
  | .running => .next (s.settle.cycled trunkRx agentRx agentSig)
  | .shifting => .next s
  | .preparing => .next s

/-! ## Frame sync (R9 to R12) -/

/-- A line whose partial frame is discarded and whose transmit buffer holds silence (R9). -/
def Line.silenced (silence : Byte) (x : Line) : Line := freshLine silence x.position

/-- A trunk line likewise. -/
def TrunkLine.silenced (silence : Byte) (x : TrunkLine) : TrunkLine := ⟨x.line.silenced silence, []⟩

/-- All bound timeslots silenced. -/
def State.silencedLines (s : State) : State :=
  { s with highway := { s.highway with
    agent := s.highway.agent.map (Option.map (Line.silenced s.silence))
    trunk := s.highway.trunk.map (Option.map (TrunkLine.silenced s.silence)) } }

/-- The state with the sync monitor replaced. -/
def State.setSync (s : State) (x : Sync) : State := { s with highway := { s.highway with sync := x } }

/-- The entry to LOST (R9): detail 1 for a missing pulse, 2 for a pulse out of place, which is held. -/
def State.loseSync (s : State) (held : Option Nat) (detail : Nat) : State :=
  ((s.setSync (.lost held)).silencedLines).fileBoth .syncLost 0 detail

/-- SYNC_LOSS_MISSING_PULSE (R9): it comes before the cycle that has no pulse, which is LOST as a whole (log entry 34); while
LOST no pulse is expected (log entry 3). -/
def execSyncLossMissingPulse (s : State) : Host.Outcome State Fault Refusal :=
  match s.phase, s.highway.sync with
  | .running, .locked _ _ => .next (s.settle.loseSync none 1)
  | .running, .lost _ => .next s
  | .shifting, _ => .next s
  | .preparing, _ => .next s

/-- The marks of a first frame (R11, R12). -/
def State.markFirstFrame (s : State) : State :=
  { s with highway := { s.highway with firstFrame := true, lockedBefore := true } }

/-- The entry to LOCKED at a pulse (R11): cycle 0 of a new frame begins there. -/
def State.restoreSync (s : State) (bit : Nat) : State :=
  let first := !s.highway.lockedBefore
  ((((s.setSync (.locked bit 0)).silencedLines).beginFrame.markFirstFrame).setFirstFrames).fileBoth
    .syncRestored 0 (if first then 1 else 0)

/-- A pulse on HW_FS (R9, R11), what was due having been taken. -/
def State.pulsed (s : State) (bit : Nat) : State :=
  match s.highway.sync with
  | .locked start _ => if bit % 512 = start % 512 then s else s.loseSync (some bit) 2
  | .lost held => if held.map (· + 512) = some bit then s.restoreSync bit else s.setSync (.lost (some bit))

/-- FS_PULSE (R9, R11); until the part runs the highways are not watched (R12). -/
def execFsPulse (bit : Nat) (s : State) : Host.Outcome State Fault Refusal :=
  match s.phase with
  | .running => .next (s.settle.pulsed bit)
  | .shifting => .next s
  | .preparing => .next s

end Sys2Proof.Machine
end

