-- ==== Sys2Proof/Machine/PinReset.lean ====
section
/-! DEFINITION. Pin reset, the start-up word and the completion of memory preparation (R177 of
10_control_ports.md, R138 of 07_clip_memory_arbitration_and_scrubbing.md). -/

namespace Sys2Proof.Machine

/-- PIN_RESET (R177): the whole part returns to its initial state. The queue of commands and the count of free
values are no part of it (log entry 6). -/
def execPinReset (s : State) : Host.Outcome State Fault Refusal :=
  .next { State.reset with pending := s.pending, freeCount := s.freeCount }

/-- READY goes high on both ports (R169). -/
def State.bothReady (s : State) : State :=
  { s with ports := ⟨{ s.ports.cp0 with ready := true }, { s.ports.cp1 with ready := true }⟩ }

/-- START_UP_WORD_SHIFTED (R177): the word fixes its items, READY goes high and memory preparation begins. A
word comes only while it is being shifted in (log entry 3). -/
def execStartUpWordShifted (word : Half) (s : State) : Host.Outcome State Fault Refusal :=
  match s.phase with
  | .shifting => .next { s.bothReady with phase := .preparing, startUp := startUpOf word }
  | .preparing => .next s
  | .running => .next s

/-- The highway interface at the completion of preparation (R12, R20): the frame stamp is 0, and the sync
monitor begins LOST, holding no pulse. -/
def Highway.begun (h : Highway) : Highway := { h with sync := .lost none, stamp := 0 }

/-- START_UP_MEMORY_PREPARATION_COMPLETE (R138): every page holds the silence code, which is what a byte that
is not listed reads as; the arbiter takes its values and the part runs. -/
def execStartUpMemoryPreparationComplete (s : State) : Host.Outcome State Fault Refusal :=
  match s.phase with
  | .preparing =>
    .next { s with
      phase := .running, arbiter := Arbiter.atReset, memory := ⟨[], []⟩, highway := s.highway.begun }
  | .shifting => .next s
  | .running => .next s

end Sys2Proof.Machine
end

