-- ==== Sys2Proof/Machine/Positions.lean ====
section
/-! DEFINITION. The position controller's requests: opening and closing, calls, parameters, ownership,
reading (02_agent_positions.md). -/

namespace Sys2Proof.Machine

/-- A request that only the owner of an open position may make: STATE when it is CLOSED, NOT_OWNER, then the
request's own checks (R22). -/
def State.owned (s : State) (port : Port) (p : Fin 64) (checks : List (Bool × Status)) (effect : State → State) : State :=
  s.checked port
    (((s.pos p).state = .closed, .state) :: ((s.pos p).owner ≠ some port, .notOwner) :: checks) effect

/-! ## OPEN POSITION (R24) -/

/-- A record at OPEN (R21). -/
def Position.opened (port : Port) (slot : Fin 64) (tail : Nat) (profile : Fin 4) : Position :=
  { Position.closedContents with
    state := .idle, owner := some port, agentSlot := some slot, tail := tail, profile := profile }

/-- OPEN POSITION accepted (R24, R46, R66, R93). -/
def State.openAccepted (s : State) (port : Port) (p slot : Fin 64) (tail : Nat) (profile : Fin 4) : State :=
  let s := s.setPos p (Position.opened port slot tail profile)
  let s := (s.setCanceller p (Canceller.zeroed [])).allocate p tail
  let s := s.bindAgent slot p
  let s := s.setSuppressor p (Suppressor.fresh (s.profile profile))
  (s.setCoachDuck p 0).answer port .ok []

/-- OPEN POSITION (R24). -/
def execOpenPosition (port : Port) (position slot tail profile : Byte) (s : State) : Host.Outcome State Fault Refusal :=
  .next (s.request port Code.openPosition fun s =>
    match number? 64 position, number? 64 slot with
    | some p, some a =>
      s.checked port
        [(tail.toNat < 1 || 4 < tail.toNat, .badArg),
         ((s.pos p).state ≠ .closed && (s.pos p).owner ≠ some port, .notOwner),
         ((s.pos p).state ≠ .closed, .state),
         ((s.highway.agent.cell a).isSome, .slotTaken),
         (s.echo.free.length < tail.toNat, .noSegments)]
        fun s => s.openAccepted port p a tail.toNat (profileNumber profile)
    | _, _ => s.refuse port .badArg)

/-! ## CLOSE POSITION (R25) -/

/-- The record returns to the closed contents, and an offer still outstanding is reported withdrawn to the
port that held it (R25, R38). -/
def State.closeRecord (s : State) (p : Fin 64) : State :=
  let x := s.pos p
  let s := s.setPos p Position.closedContents
  if x.offer then s.fileOwner (x.owner.map Port.other) .handoverOffer p.val 1 else s

/-- The values a closure leaves in the suppressor, the canceller and the mixer (R46, R66, R93). -/
def State.closeBlocks (s : State) (p : Fin 64) : State :=
  let s := s.setSuppressor p (Suppressor.fresh (s.profile 2))
  let s := s.setCanceller p (Canceller.zeroed [])
  s.setCoachDuck p 0

/-- A closure (R25): its five steps. -/
def State.closing (s : State) (p : Fin 64) (cause : FlushCause) : State :=
  let s := s.flush p cause fun _ => true
  let s := s.dropTapsOf p
  let s := s.keepSegments p 0
  let s := s.unbindAgent (s.pos p).agentSlot
  (s.closeRecord p).closeBlocks p

/-- CLOSE POSITION (R25). -/
def execClosePosition (port : Port) (position : Byte) (s : State) : Host.Outcome State Fault Refusal :=
  .next (s.request port Code.closePosition fun s =>
    s.withNumber port position fun p s =>
      s.owned port p [((s.pos p).state.inCall, .state)]
        fun s => ((s.closing p .close).assignPlayers).answer port .ok [])

/-! ## CONNECT (R26, R27) -/

/-- What CONNECT does with and without a prompt (R27), before the whisper entry is placed. -/
def State.connecting (s : State) (p t : Fin 64) (state : PositionState) (stream : Option (Fin 16)) : State :=
  let s := s.setPos p { s.pos p with state := state, trunkSlot := some t, stream := stream }
  let s := (s.bindTrunk t p).clearCanceller p
  ((s.dropListenerTaps p).setFirstFrame p).addListener stream

/-- CONNECT with a prompt accepted (R27, R159). -/
def State.connectPrompt (s : State) (port : Port) (p t : Fin 64) (clip : Fin 256) (gain : Half)
    (stream : Option (Fin 16)) : State :=
  let s := s.connecting p t .announce stream
  let e := s.newEntry clip gain port .announce
  (s.queueEntry p port e (placeAnnounce e)).answer port .ok []

/-- The announce stream a CONNECT names: none when its number is out of range or no prompt is named, and
`some none` when no stream is named (R26). -/
def announceStream (prompt : Option PromptArg) (stream : Option Byte) : Option (Option (Fin 16)) :=
  match stream, prompt with
  | none, _ => some none
  | some _, none => none
  | some k, some _ => (number? 16 k).map some

/-- Whether a named stream is STOPPED (R26, R28). -/
def State.namedStopped (s : State) (stream : Option (Fin 16)) : Bool :=
  match stream with
  | some k => (s.stream k).state = .stopped
  | none => false

/-- CONNECT's clip checks and effect (R26 step 7, R27). -/
def State.connect (s : State) (port : Port) (p t : Fin 64) (prompt : Option PromptArg)
    (stream : Option (Fin 16)) : State :=
  match prompt with
  | none => (s.connecting p t .connected none).answer port .ok []
  | some x =>
    s.checkEntry port Code.connect p (clipNumber x.clip)
      fun s => s.connectPrompt port p t (clipNumber x.clip) x.gain stream

/-- CONNECT (R26). -/
def execConnect (port : Port) (position trunk : Byte) (prompt : Option PromptArg) (stream : Option Byte) (s : State) :
    Host.Outcome State Fault Refusal :=
  .next (s.request port Code.connect fun s =>
    match number? 64 position, number? 64 trunk, announceStream prompt stream with
    | some p, some t, some k =>
      s.owned port p
        [((s.pos p).state ≠ .idle, .state),
         ((s.highway.trunk.cell t).isSome, .slotTaken),
         (s.namedStopped k, .state)]
        fun s => s.connect port p t prompt k
    | _, _, _ => s.refuse port .badArg)

/-! ## HOLD (R28) -/

/-- HOLD accepted (R28, R33): from ANNOUNCE the announce pending flag is set. -/
def State.holdAccepted (s : State) (port : Port) (p : Fin 64) (stream : Option (Fin 16)) : State :=
  let x := s.pos p
  let s := s.setPos p { x with state := .held, announcePending := x.state = .announce, stream := stream }
  ((s.dropListener x.stream).addListener stream).answer port .ok []

/-- The stream a HOLD names: none when its number is out of range. -/
def holdStream (stream : Option Byte) : Option (Option (Fin 16)) :=
  match stream with
  | none => some none
  | some k => (number? 16 k).map some

/-- HOLD (R28). -/
def execHold (port : Port) (position : Byte) (stream : Option Byte) (s : State) : Host.Outcome State Fault Refusal :=
  .next (s.request port Code.hold fun s =>
    match number? 64 position, holdStream stream with
    | some p, some k =>
      s.owned port p
        [((s.pos p).state = .idle || (s.pos p).state = .held, .state), (s.namedStopped k, .state)]
        fun s => s.holdAccepted port p k
    | _, _ => s.refuse port .badArg)

/-! ## RETRIEVE (R29) -/

/-- RETRIEVE accepted (R29, R33). It changes nothing of the canceller. DESIGN CHOICE, log entry 32: when no frame was
completed in HELD, the divergence counter is therefore kept, though R76 has a RETRIEVE start the count afresh. -/
def State.retrieveAccepted (s : State) (port : Port) (p : Fin 64) : State :=
  let x := s.pos p
  if x.announcePending then
    (s.setPos p { x with state := .announce, announcePending := false }).answer port .ok []
  else ((s.setPos p { x with state := .connected, stream := none }).dropListener x.stream).answer port .ok []

/-- RETRIEVE (R29). -/
def execRetrieve (port : Port) (position : Byte) (s : State) : Host.Outcome State Fault Refusal :=
  .next (s.request port Code.retrieve fun s =>
    s.withNumber port position fun p s =>
      s.owned port p [((s.pos p).state ≠ .held, .state)] fun s => s.retrieveAccepted port p)

/-! ## RELEASE (R30) -/

/-- A release (R30): its four steps. -/
def State.releasing (s : State) (p : Fin 64) (cause : FlushCause) : State :=
  let announced := s.announceQueued p
  let s := s.flush p cause fun _ => true
  let x := s.pos p
  let s := if announced then s.fileOwner x.owner .announceDone p.val 1 else s
  let s := s.dropListener x.stream
  let s := s.unbindTrunk x.trunkSlot
  s.setPos p { x with state := .idle, stream := none, announcePending := false, trunkSlot := none }

/-- RELEASE (R30). -/
def execRelease (port : Port) (position : Byte) (s : State) : Host.Outcome State Fault Refusal :=
  .next (s.request port Code.release fun s =>
    s.withNumber port position fun p s =>
      s.owned port p [((s.pos p).state = .idle, .state)]
        fun s => ((s.releasing p .release).assignPlayers).answer port .ok [])

/-! ## SET POSITION (R34) -/

/-- The EC mode a SET POSITION names: none when its code is not one of the three (R34). -/
def namedMode (mode : Option Byte) : Option (Option EcMode) :=
  match mode with
  | none => some none
  | some b => (ecMode? b).map some

/-- A record with the present parameters replaced, after their adjustments (R34). -/
def Position.adjusted (x : Position) (a : ParamsArg) (mode : Option EcMode) : Position :=
  { x with
    duck := match a.duck with | some g => clampGain g.toNat | none => x.duck
    profile := match a.profile with | some b => profileNumber b | none => x.profile
    mode := mode.getD x.mode
    step := match a.step with | some b => clampTo 0 7 b.toNat | none => x.step
    reg := match a.reg with | some b => clampTo 16 30 b.toNat | none => x.reg
    hang := match a.hang with | some b => clampTo 0 15 b.toNat | none => x.hang
    nlp := a.nlp.getD x.nlp
    shift := match a.shift with | some b => clampTo 0 15 b.toNat | none => x.shift }

/-- The parameters as stored, in the order of R34 (log entry 17). -/
def Position.paramBytes (x : Position) : List Byte :=
  (halfOf x.duck).bytes ++ [countByte x.profile.val, ecModeByte x.mode, countByte x.step, countByte x.reg,
    countByte x.hang, flagByte x.nlp, countByte x.shift]

/-- SET POSITION accepted (R34); a newly named profile raises the floor to its Nmin (R59). -/
def State.setAccepted (s : State) (port : Port) (p : Fin 64) (a : ParamsArg) (mode : Option EcMode) : State :=
  let x := (s.pos p).adjusted a mode
  let s := s.setPos p x
  let s := s.setSuppressor p ((s.suppressor p).atLeast (if a.profile.isSome then (s.profile x.profile).nmin else 0))
  s.answer port .ok x.paramBytes

/-- SET POSITION (R34). -/
def execSetPosition (port : Port) (position : Byte) (params : ParamsArg) (s : State) : Host.Outcome State Fault Refusal :=
  .next (s.request port Code.setPosition fun s =>
    match number? 64 position, namedMode params.mode with
    | some p, some mode => s.owned port p [] fun s => s.setAccepted port p params mode
    | _, _ => s.refuse port .badArg)

/-! ## SET TAIL (R35) -/

/-- SET TAIL accepted (R35, R64, R65). -/
def State.tailAccepted (s : State) (port : Port) (p : Fin 64) (tail : Nat) : State :=
  let x := s.pos p
  let s := if x.tail < tail then s.allocate p (tail - x.tail)
    else if tail < x.tail then s.keepSegments p tail else s
  (s.setPos p { x with tail := tail }).answer port .ok []

/-- SET TAIL (R35). -/
def execSetTail (port : Port) (position tail : Byte) (s : State) : Host.Outcome State Fault Refusal :=
  .next (s.request port Code.setTail fun s =>
    s.withNumber port position fun p s =>
      s.checked port [(tail.toNat < 1 || 4 < tail.toNat, .badArg)] fun s =>
        s.owned port p
          [((s.pos p).state ≠ .idle, .state),
           (s.echo.free.length < tail.toNat - (s.pos p).tail, .noSegments)]
          fun s => s.tailAccepted port p tail.toNat)

/-! ## OFFER POSITION and ACCEPT POSITION (R37 to R39) -/

/-- OFFER POSITION "offer" (R37); a choice that is neither 0 nor 1 is out of range (log entry 16). -/
def execOfferPositionOffer (port : Port) (position choice : Byte) (s : State) : Host.Outcome State Fault Refusal :=
  .next (s.request port Code.offerPosition fun s =>
    s.withNumber port position fun p s =>
      s.checked port [(choice ≠ 0, .badArg)] fun s =>
        s.owned port p [(!s.enabled port.other, .portOff), ((s.pos p).offer, .state)]
          fun s => ((s.setPos p { s.pos p with offer := true }).file port.other .handoverOffer p.val 0).answer port .ok [])

/-- OFFER POSITION "withdraw" (R38). -/
def execOfferPositionWithdraw (port : Port) (position : Byte) (s : State) : Host.Outcome State Fault Refusal :=
  .next (s.request port Code.offerPosition fun s =>
    s.withNumber port position fun p s =>
      s.owned port p [(!(s.pos p).offer, .state)]
        fun s => ((s.setPos p { s.pos p with offer := false }).file port.other .handoverOffer p.val 1).answer port .ok [])

/-- The ANNOUNCE entry of a queue takes a new origin (R39, R159). -/
def withAnnounceOrigin (port : Port) (q : List Entry) : List Entry :=
  q.map fun e => match e.kind with | .announce => { e with origin := port } | .prompt => e

/-- A position passes to a port: the owner, the offer and the origin of its ANNOUNCE entry (R39, R41). -/
def State.passTo (s : State) (p : Fin 64) (port : Port) : State :=
  (s.setPos p { s.pos p with owner := some port, offer := false }).setQueue p (withAnnounceOrigin port (s.queue p))

/-- ACCEPT POSITION (R39). -/
def execAcceptPosition (port : Port) (position : Byte) (s : State) : Host.Outcome State Fault Refusal :=
  .next (s.request port Code.acceptPosition fun s =>
    s.withNumber port position fun p s =>
      s.checked port
        [((s.pos p).state = .closed || (s.pos p).owner = some port || !(s.pos p).offer, .state)]
        fun s => ((s.passTo p port).fileOwner (s.pos p).owner .handoverTaken p.val (Port.number port)).answer port .ok [])

/-! ## POSITION INFO (R44) -/

/-- The number of a slot or stream, 0 when absent (R178). -/
def absentZero {n : Nat} (x : Option (Fin n)) : Byte :=
  match x with
  | some i => numberByte i
  | none => 0

/-- The flags of POSITION INFO (R178). -/
def State.infoFlags (s : State) (p : Fin 64) : Byte :=
  let x := s.pos p
  countByte (detailBit x.announcePending 0 + detailBit x.offer 1 + detailBit (s.headsetPresent p) 2
    + detailBit (s.headsetMuted p) 3 + detailBit x.nlp 4 + detailBit x.agentSlot.isSome 5
    + detailBit x.trunkSlot.isSome 6 + detailBit x.stream.isSome 7)

/-- The 17 bytes of POSITION INFO (R178). -/
def State.positionRecord (s : State) (p : Fin 64) : List Byte :=
  let x := s.pos p
  [numberByte p, positionStateByte x.state, ownerByte x.owner, absentZero x.agentSlot, absentZero x.trunkSlot,
    absentZero x.stream, s.infoFlags p] ++ (halfOf x.duck).bytes
  ++ [countByte x.profile.val, countByte x.tail, ecModeByte x.mode, countByte x.step, countByte x.reg,
    countByte x.hang, countByte x.shift, countByte (s.queue p).length]

/-- POSITION INFO (R44). -/
def execPositionInfo (port : Port) (position : Byte) (s : State) : Host.Outcome State Fault Refusal :=
  .next (s.request port Code.positionInfo fun s =>
    s.withNumber port position fun p s => s.answer port .ok (s.positionRecord p))

/-! ## POSITION STATS (R45) -/

/-- The five statistics, in the order of R21 (R45, R178; log entry 17). -/
def Stats.bytes (x : Stats) : List Byte :=
  (halfOf x.echoResets).bytes ++ (wideOf x.clipped).bytes ++ (wideOf x.doubleTalk).bytes
    ++ (wideOf x.nlpFrames).bytes ++ (wideOf x.whisperUnderrun).bytes

/-- POSITION STATS accepted (R45). -/
def State.statsAccepted (s : State) (port : Port) (p : Fin 64) (clear : Bool) : State :=
  let x := s.pos p
  (if clear then s.setPos p { x with stats := Stats.zero } else s).answer port .ok x.stats.bytes

/-- POSITION STATS (R45). -/
def execPositionStats (port : Port) (position : Byte) (clear : Bool) (s : State) : Host.Outcome State Fault Refusal :=
  .next (s.request port Code.positionStats fun s =>
    s.withNumber port position fun p s => s.owned port p [] fun s => s.statsAccepted port p clear)

end Sys2Proof.Machine
end

