-- ==== Sys2Proof/Machine/Ports.lean ====
section
/-! DEFINITION. The control ports' own commands: PORT STATUS, RESET PORT, the frame ignored and the frame
that cannot be read (10_control_ports.md; the steps of RESET PORT in 02 R41 to R43, 05 R103, 06 R123, 08
R156, 09 R161, 11 R185). -/

namespace Sys2Proof.Machine

/-! ## Frames that are no readable request (R169, R170) -/

/-- IGNORED_REQUEST_FRAME (R169): a frame that arrives while READY is low. No frame is received while the
start-up word is shifted in, and none is ignored while READY is high (log entry 3). -/
def execIgnoredRequestFrame (port : Port) (s : State) : Host.Outcome State Fault Refusal :=
  match s.phase with
  | .shifting => .next s
  | .preparing => .next (if (s.port port).ready then s else s.ignoreFrame port)
  | .running => .next (if (s.port port).ready then s else s.ignoreFrame port)

/-- UNKNOWN_REQUEST_CODE (R170): BAD_REQUEST after the earlier port checks. -/
def execUnknownRequestCode (port : Port) (code : Byte) (s : State) : Host.Outcome State Fault Refusal :=
  .next (s.request port code fun s => s.refuse port .badRequest)

/-! ## PORT STATUS (R175) -/

/-- The payload of PORT STATUS (R175, R178; log entry 17). -/
def State.portBytes (s : State) (port : Port) : List Byte :=
  Config.partCode.bytes ++ [Config.revisionCode, countByte (Port.number port), countByte (s.port port).ignored]
    ++ (halfOf (s.eventsOf port).lost).bytes
    ++ [flagByte (s.fault port).record.isSome, flagByte (s.enabled .cp0), flagByte (s.enabled .cp1)]

/-- PORT STATUS (R175). -/
def execPortStatus (port : Port) (s : State) : Host.Outcome State Fault Refusal :=
  .next (s.request port Code.portStatus fun s => s.answer port .ok (s.portBytes port))

/-! ## RESET PORT (R176) -/

/-- The positions a port owns and has offered (R41), and those it owns and has not (R42), each in ascending order
of number (log entry 27). -/
def State.offeredBy (s : State) (port : Port) : List (Fin 64) :=
  (List.finRange 64).filter fun p => (s.pos p).owner = some port && (s.pos p).offer
def State.keptBy (s : State) (port : Port) : List (Fin 64) :=
  (List.finRange 64).filter fun p => (s.pos p).owner = some port && !(s.pos p).offer

/-- The streams a port owns. -/
def State.streamsOf (s : State) (port : Port) : List (Fin 16) :=
  (List.finRange 16).filter fun k => (s.stream k).owner = some port

/-- The hand-over of one position (R41). -/
def State.inherit (s : State) (port : Port) (p : Fin 64) : State :=
  (s.passTo p port.other).file port.other .positionInherited p.val (Port.number port)

/-- The release, if it is in a call, and the closure of one position (R42). -/
def State.tearDown (s : State) (p : Fin 64) : State :=
  (if (s.pos p).state.inCall then s.releasing p .portReset else s).closing p .portReset

/-- The offers outstanding to a port that resets are cleared (R38, R43). -/
def State.clearOffersTo (s : State) (port : Port) : State :=
  { s with positions := s.positions.map fun x =>
    if x.owner = some port.other then { x with offer := false } else x }

/-- A position that names a stopped stream loses its stream field, with STREAM_LOST (R156). -/
def State.loseStream (s : State) (k : Fin 16) (p : Fin 64) : State :=
  let x := s.pos p
  if x.stream = some k then (s.setPos p { x with stream := none }).fileOwner x.owner .streamLost p.val k.val else s

/-- The stop of one stream at its owner's port reset (R156). -/
def State.resetStream (s : State) (k : Fin 16) : State :=
  let s := (List.finRange 64).foldl (fun s p => s.loseStream k p) s
  (s.setStream k { s.stream k with listeners := 0 }).stopStream k

/-- Step 1 (R41, R42, R43): hand-overs first, then closures. Among several positions the manual gives no order;
the model takes them in ascending order of number (log entry 27). -/
def State.resetPositions (s : State) (port : Port) : State :=
  let handed := (s.offeredBy port).foldl (fun s p => s.inherit port p) s
  (s.keptBy port).foldl State.tearDown (handed.clearOffersTo port)

/-- Step 2 (R156). -/
def State.resetStreams (s : State) (port : Port) : State := (s.streamsOf port).foldl State.resetStream s

/-- Step 3 (R161): the port's entries in the positions still open, and the assignment of players (R163). -/
def State.resetWhispers (s : State) (port : Port) : State :=
  ((List.finRange 64).foldl (fun s p => s.flush p .portReset fun e => e.origin = port) s).assignPlayers

/-- Steps 5 to 7 (R123, R185, R169). Emptying the port's event state here is what leaves unfiled every record
that the earlier steps would file for it. -/
def State.resetLocal (s : State) (port : Port) : State :=
  let s := (s.setFault port ⟨none, 0⟩).setEvents port EventState.atReset
  s.setPort port { s.port port with ignored := 0 }

/-- The teardown of RESET PORT, in the order of R176; PEER_RESET is the last step. -/
def State.resetTeardown (s : State) (port : Port) : State :=
  let s := ((s.resetPositions port).resetStreams port).resetWhispers port
  ((s.removeTapsOwned port).resetLocal port).file port.other .peerReset (Port.number port) 0

/-- The three counts of the reply (R176): positions passed, positions closed, streams stopped. -/
def State.resetCounts (s : State) (port : Port) : List Byte :=
  [countByte (s.offeredBy port).length, countByte (s.keptBy port).length, countByte (s.streamsOf port).length]

/-- RESET PORT (R176). -/
def execResetPort (port : Port) (s : State) : Host.Outcome State Fault Refusal :=
  .next (s.request port Code.resetPort fun s => (s.resetTeardown port).answer port .ok (s.resetCounts port))

end Sys2Proof.Machine
end

