-- ==== Sys2Proof/Machine/Dispatch.lean ====
section
/-! DEFINITION. The meaning of each command: one arm for each constructor of Instr. -/

namespace Sys2Proof.Machine

/-- The effect of a command on everything but the queue of commands. -/
def exec (i : Instr) (s : State) : Host.Outcome State Fault Refusal :=
  match i with
  | .pinReset => Sys2Proof.Machine.execPinReset s
  | .startUpWordShifted word => Sys2Proof.Machine.execStartUpWordShifted word s
  | .startUpMemoryPreparationComplete => Sys2Proof.Machine.execStartUpMemoryPreparationComplete s
  | .cycle trunkRx agentRx agentSig => Sys2Proof.Machine.execCycle trunkRx agentRx agentSig s
  | .debounceCountExpiry slot => Sys2Proof.Machine.execDebounceCountExpiry slot s
  | .frameCompletion => Sys2Proof.Machine.execFrameCompletion s
  | .syncLossMissingPulse => Sys2Proof.Machine.execSyncLossMissingPulse s
  | .fsPulse bit => Sys2Proof.Machine.execFsPulse bit s
  | .refreshTimerExpiry => Sys2Proof.Machine.execRefreshTimerExpiry s
  | .pageFetchCompletion upsets => Sys2Proof.Machine.execPageFetchCompletion upsets s
  | .portPageWriteCompletion => Sys2Proof.Machine.execPortPageWriteCompletion s
  | .portPageReadCompletion upsets => Sys2Proof.Machine.execPortPageReadCompletion upsets s
  | .scrubStepCompletion upsets => Sys2Proof.Machine.execScrubStepCompletion upsets s
  | .ignoredRequestFrame port => Sys2Proof.Machine.execIgnoredRequestFrame port s
  | .unknownRequestCode port code => Sys2Proof.Machine.execUnknownRequestCode port code s
  | .portStatus port => Sys2Proof.Machine.execPortStatus port s
  | .resetPort port => Sys2Proof.Machine.execResetPort port s
  | .openPosition port position slot tail profile => Sys2Proof.Machine.execOpenPosition port position slot tail profile s
  | .closePosition port position => Sys2Proof.Machine.execClosePosition port position s
  | .connect port position trunk prompt stream => Sys2Proof.Machine.execConnect port position trunk prompt stream s
  | .hold port position stream => Sys2Proof.Machine.execHold port position stream s
  | .retrieve port position => Sys2Proof.Machine.execRetrieve port position s
  | .release port position => Sys2Proof.Machine.execRelease port position s
  | .setPosition port position params => Sys2Proof.Machine.execSetPosition port position params s
  | .setTail port position tail => Sys2Proof.Machine.execSetTail port position tail s
  | .offerPositionOffer port position choice => Sys2Proof.Machine.execOfferPositionOffer port position choice s
  | .offerPositionWithdraw port position => Sys2Proof.Machine.execOfferPositionWithdraw port position s
  | .acceptPosition port position => Sys2Proof.Machine.execAcceptPosition port position s
  | .positionInfo port position => Sys2Proof.Machine.execPositionInfo port position s
  | .positionStats port position clear => Sys2Proof.Machine.execPositionStats port position clear s
  | .writeProfile port profile gains threshold nmin => Sys2Proof.Machine.execWriteProfile port profile gains threshold nmin s
  | .addTap port listener target kind gain => Sys2Proof.Machine.execAddTap port listener target kind gain s
  | .removeTap port tap => Sys2Proof.Machine.execRemoveTap port tap s
  | .listTaps port => Sys2Proof.Machine.execListTaps port s
  | .defineClip port clip base length fill key0 key1 => Sys2Proof.Machine.execDefineClip port clip base length fill key0 key1 s
  | .setKeys port clip key0 key1 => Sys2Proof.Machine.execSetKeys port clip key0 key1 s
  | .freeClip port clip => Sys2Proof.Machine.execFreeClip port clip s
  | .clipInfo port clip => Sys2Proof.Machine.execClipInfo port clip s
  | .writePage port clip index codes => Sys2Proof.Machine.execWritePage port clip index codes s
  | .readPage port clip index => Sys2Proof.Machine.execReadPage port clip index s
  | .readFault port => Sys2Proof.Machine.execReadFault port s
  | .clearFault port => Sys2Proof.Machine.execClearFault port s
  | .memoryStatus port => Sys2Proof.Machine.execMemoryStatus port s
  | .startStream port stream playlist => Sys2Proof.Machine.execStartStream port stream playlist s
  | .loadStream port stream playlist => Sys2Proof.Machine.execLoadStream port stream playlist s
  | .stopStream port stream => Sys2Proof.Machine.execStopStream port stream s
  | .streamInfo port stream clear => Sys2Proof.Machine.execStreamInfo port stream clear s
  | .whisper port position clip gain => Sys2Proof.Machine.execWhisper port position clip gain s
  | .cancelWhisper port position => Sys2Proof.Machine.execCancelWhisper port position s
  | .readEvent port => Sys2Proof.Machine.execReadEvent port s
  | .routeEvent port kind cls => Sys2Proof.Machine.execRouteEvent port kind cls s
  | .maskEvents port mask => Sys2Proof.Machine.execMaskEvents port mask s

end Sys2Proof.Machine
end

