-- ==== Sys2Proof/Safety.lean ====
section
/-! DEFINITION. The terms claims use: when a port takes a request, what a reply leaves, and what holds of the
part at every moment. -/

namespace Sys2Proof.Machine

/-! ## Requests -/

/-- A port takes a request frame and passes it to the request's own checks: the part runs, READY is high and
the port is enabled (R169, R170). -/
def State.takes (s : State) (p : Port) : Prop :=
  s.phase = .running ∧ (s.port p).ready = true ∧ s.enabled p = true

/-- The state once a request has been taken and replied to, with no other effect (R169, R170, R172). -/
def State.replied (s : State) (p : Port) (code : Byte) (status : Status) (payload : List Byte) : State :=
  s.setPort p { s.port p with ready := true, inFlight := none, lastReply := some ⟨status, code, payload⟩ }

/-! ## The checks of requests

Each request's checks in the order its own rule lists them, with the status the first that fails gives (R22). A check
that names an object reads it through `objectAt`; the BAD_ARG check before it rules out numbers out of range. -/

/-- The object a number byte names. -/
def objectAt (n : Nat) [NeZero n] (b : Byte) : Fin n := Fin.ofNat n b.toNat

/-- What a clip fault enters in the fault record (R121): the kinds found, the clip, and the page index of a read or a
write. -/
abbrev FaultFound := FaultKinds × Fin 256 × Option Nat

/-- The fault that one reference finds (R113). -/
def State.referenceFault (s : State) (port : Port) (kind : RefKind) (clip : Fin 256) (index : Option Nat) :
    Option FaultFound :=
  if ((s.clip clip).check port kind index).found then some ((s.clip clip).check port kind index, clip, index) else none

/-- The fault that a playlist's references for play find: that of the first item that finds one (R114). -/
def State.playlistFault (s : State) (port : Port) (l : PlaylistArg) : Option FaultFound :=
  l.items.findSome? fun i => s.referenceFault port .play (clipNumber i.clip) none

/-- The fault a request's references find (R114). -/
def State.faultOf (s : State) (port : Port) : Instr → Option FaultFound
  | .connect _ _ _ (some x) _ => s.referenceFault port .play (clipNumber x.clip) none
  | .whisper _ _ clip _ => s.referenceFault port .play (clipNumber clip) none
  | .startStream _ _ l => s.playlistFault port l
  | .loadStream _ _ l => s.playlistFault port l
  | .writePage _ clip index _ => s.referenceFault port .write (clipNumber clip) (some index.toNat)
  | .readPage _ clip index => s.referenceFault port .read (clipNumber clip) (some index.toNat)
  | _ => none

/-- A check: whether it fails, and the status it then gives. -/
abbrev Check := Bool × Status

/-- The checks of a request that only the owner of an open position may make (R22): BAD_ARG, STATE for a CLOSED
position, NOT_OWNER, and then its own. -/
def State.ownerChecks (s : State) (port : Port) (p : Fin 64) (badArg : Bool) (own : List Check) : List Check :=
  (badArg, .badArg) :: ((s.pos p).state = .closed, .state) :: ((s.pos p).owner ≠ some port, .notOwner) :: own

/-- The checks of a reference for play by a whisper entry (R158): QUEUE_FULL, CLIP_FAULT, IN_USE. -/
def State.entryChecks (s : State) (port : Port) (p : Fin 64) (clip : Fin 256) : List Check :=
  [(4 ≤ (s.queue p).length, .queueFull), ((s.referenceFault port .play clip none).isSome, .clipFault),
    (0 < (s.clip clip).writeBusy, .inUse)]

/-- The clip checks of a playlist (R114): CLIP_FAULT, then IN_USE. -/
def State.playlistChecks (s : State) (port : Port) (l : PlaylistArg) : List Check :=
  [((s.playlistFault port l).isSome, .clipFault),
    (l.items.any fun i => 0 < (s.clip (clipNumber i.clip)).writeBusy, .inUse)]

/-- Whether a key code is none of the five keys (R178). -/
def badKey (b : Byte) : Bool := 4 < b.toNat

/-- The checks of a request of a port, in order. -/
def State.checksOf (s : State) (port : Port) : Instr → List Check
  | .openPosition _ position slot tail _ =>                                                   -- R24
    let x := s.pos (objectAt 64 position)
    [(63 < position.toNat || 63 < slot.toNat || tail.toNat < 1 || 4 < tail.toNat, .badArg),
      (x.state ≠ .closed && x.owner ≠ some port, .notOwner), (x.state ≠ .closed, .state),
      ((s.highway.agent.cell (objectAt 64 slot)).isSome, .slotTaken), (s.echo.free.length < tail.toNat, .noSegments)]
  | .closePosition _ position =>                                                              -- R25
    s.ownerChecks port (objectAt 64 position) (63 < position.toNat)
      [((s.pos (objectAt 64 position)).state ≠ .idle, .state)]
  | .connect _ position trunk prompt stream =>                                                -- R26
    s.ownerChecks port (objectAt 64 position)
      (63 < position.toNat || 63 < trunk.toNat || stream.any (fun k => 15 < k.toNat) || (stream.isSome && prompt.isNone))
      [((s.pos (objectAt 64 position)).state ≠ .idle, .state),
        ((s.highway.trunk.cell (objectAt 64 trunk)).isSome, .slotTaken),
        (stream.any fun k => (s.stream (objectAt 16 k)).state = .stopped, .state)]
      ++ match prompt with
        | some x => s.entryChecks port (objectAt 64 position) (clipNumber x.clip)
        | none => []
  | .hold _ position stream =>                                                                -- R28
    s.ownerChecks port (objectAt 64 position) (63 < position.toNat || stream.any (fun k => 15 < k.toNat))
      [((s.pos (objectAt 64 position)).state = .idle || (s.pos (objectAt 64 position)).state = .held, .state),
        (stream.any fun k => (s.stream (objectAt 16 k)).state = .stopped, .state)]
  | .retrieve _ position =>                                                                   -- R29
    s.ownerChecks port (objectAt 64 position) (63 < position.toNat)
      [((s.pos (objectAt 64 position)).state ≠ .held, .state)]
  | .release _ position =>                                                                    -- R30
    s.ownerChecks port (objectAt 64 position) (63 < position.toNat)
      [((s.pos (objectAt 64 position)).state = .idle, .state)]
  | .setPosition _ position params =>                                                         -- R34
    s.ownerChecks port (objectAt 64 position) (63 < position.toNat || params.mode.any (fun b => 2 < b.toNat)) []
  | .setTail _ position tail =>                                                               -- R35
    s.ownerChecks port (objectAt 64 position) (63 < position.toNat || tail.toNat < 1 || 4 < tail.toNat)
      [((s.pos (objectAt 64 position)).state ≠ .idle, .state),
        (s.echo.free.length < tail.toNat - (s.pos (objectAt 64 position)).tail, .noSegments)]
  | .offerPositionOffer _ position choice =>                                                  -- R37; log entry 16
    s.ownerChecks port (objectAt 64 position) (63 < position.toNat || choice ≠ 0)
      [(!s.enabled port.other, .portOff), ((s.pos (objectAt 64 position)).offer, .state)]
  | .offerPositionWithdraw _ position =>                                                      -- R38
    s.ownerChecks port (objectAt 64 position) (63 < position.toNat)
      [(!(s.pos (objectAt 64 position)).offer, .state)]
  | .acceptPosition _ position =>                                                             -- R39
    let x := s.pos (objectAt 64 position)
    [(63 < position.toNat, .badArg), (x.state = .closed || x.owner = some port || !x.offer, .state)]
  | .positionInfo _ position => [(63 < position.toNat, .badArg)]                              -- R44
  | .positionStats _ position _ =>                                                            -- R45
    s.ownerChecks port (objectAt 64 position) (63 < position.toNat) []
  | .writeProfile _ number _ _ _ => [(3 < number.toNat, .badArg)]                             -- R58
  | .addTap _ listener target kind _ =>                                                       -- R97
    let l := objectAt 64 listener
    let g := objectAt 64 target
    [(63 < listener.toNat || 63 < target.toNat || 1 < kind.toNat || listener = target, .badArg),
      ((s.pos l).state = .closed, .state), ((s.pos l).owner ≠ some port, .notOwner), ((s.pos l).state ≠ .idle, .state),
      ((s.pos g).state = .closed, .state),
      (s.tapsInUse.any (fun x => x.2.listener = l) || 3 ≤ (s.tapsInUse.filter fun x => x.2.target = g).length
        || (kind = 1 && s.tapsInUse.any fun x => x.2.target = g && x.2.kind = .coach) || 16 ≤ s.tapsInUse.length, .tapLimit)]
  | .removeTap _ tap =>                                                                       -- R99
    let x := s.tap (objectAt 16 tap)
    [(15 < tap.toNat, .badArg), (x.isNone, .state),
      (x.any fun x => x.owner ≠ port && (s.pos x.target).owner ≠ some port, .notOwner)]
  | .defineClip _ clip base length fill key0 key1 =>                                          -- R108
    let x := s.clip (clipNumber clip)
    [(length.toNat < 1 || 4096 < length.toNat || fill.toNat < 1 || 256 < fill.toNat || badKey key0 || badKey key1
        || s.pageCount < base.toNat + length.toNat, .badArg),
      (x.defined && x.owner ≠ some port, .notOwner), (x.defined && (0 < x.plays || 0 < x.writeBusy), .inUse),
      (s.overlaps (clipNumber clip) base.toNat length.toNat, .overlap)]
  | .setKeys _ clip key0 key1 =>                                                              -- R110
    [(badKey key0 || badKey key1, .badArg), (!(s.clip (clipNumber clip)).defined, .state),
      ((s.clip (clipNumber clip)).owner ≠ some port, .notOwner)]
  | .freeClip _ clip =>                                                                       -- R111
    let x := s.clip (clipNumber clip)
    [(!x.defined, .state), (x.owner ≠ some port, .notOwner), (0 < x.plays || 0 < x.writeBusy, .inUse)]
  | .writePage _ clip index _ =>                                                              -- R117
    [(4095 < index.toNat, .badArg),
      ((s.referenceFault port .write (clipNumber clip) (some index.toNat)).isSome, .clipFault),
      (0 < (s.clip (clipNumber clip)).plays, .inUse)]
  | .readPage _ clip index =>                                                                 -- R119
    [(4095 < index.toNat, .badArg),
      ((s.referenceFault port .read (clipNumber clip) (some index.toNat)).isSome, .clipFault)]
  | .readFault _ => [((s.fault port).record.isNone, .empty)]                                  -- R122
  | .startStream _ stream l =>                                                                -- R142
    let x := s.stream (objectAt 16 stream)
    (15 < stream.toNat || !playlistLegal l, .badArg) :: (x.state ≠ .stopped && x.owner ≠ some port, .notOwner)
      :: (x.state ≠ .stopped, .state) :: s.playlistChecks port l
  | .loadStream _ stream l =>                                                                 -- R143
    let x := s.stream (objectAt 16 stream)
    (15 < stream.toNat || !playlistLegal l, .badArg) :: (x.state = .stopped, .state) :: (x.owner ≠ some port, .notOwner)
      :: s.playlistChecks port l
  | .stopStream _ stream =>                                                                   -- R144
    let x := s.stream (objectAt 16 stream)
    [(15 < stream.toNat, .badArg), (x.state = .stopped, .state), (x.owner ≠ some port, .notOwner),
      (0 < x.listeners, .inUse)]
  | .streamInfo _ stream clear =>                                                             -- R145
    let x := s.stream (objectAt 16 stream)
    [(15 < stream.toNat, .badArg), (clear && x.state = .stopped, .state), (clear && x.owner ≠ some port, .notOwner)]
  | .whisper _ position clip _ =>                                                             -- R158
    (63 < position.toNat, .badArg) :: ((s.pos (objectAt 64 position)).state = .closed, .state)
      :: s.entryChecks port (objectAt 64 position) (clipNumber clip)
  | .cancelWhisper _ position =>                                                              -- R160
    [(63 < position.toNat, .badArg), ((s.pos (objectAt 64 position)).state = .closed, .state)]
  | .readEvent _ => [(!(s.eventsOf port).unmaskedPresent, .empty)]                            -- R183
  | .routeEvent _ kind cls => [(kind.toNat < 1 || 21 < kind.toNat || 7 < cls.toNat, .badArg)] -- R180
  | _ => []

/-- The status that a request's checks refuse it with; none when all pass (R22). -/
def State.verdict (s : State) (port : Port) (c : Instr) : Option Status :=
  ((s.checksOf port c).find? Prod.fst).map Prod.snd

/-! ## Records filed one after another -/

/-- An event to be filed: for whom, the kind, the object and the detail. -/
abbrev Filing := Option Port × EventKind × Nat × Nat

/-- The state after a list of filings, in order. -/
def State.filed (s : State) (l : List Filing) : State :=
  l.foldl (fun s x => s.fileOwner x.1 x.2.1 x.2.2.1 x.2.2.2) s

/-- PROMPT_FLUSHED for entries of a position's queue, to their origins (R161, R178). -/
def flushFilings (p : Fin 64) (cause : Nat) (entries : List Entry) : List Filing :=
  entries.map fun e =>
    (some e.origin, .promptFlushed, p.val, e.clip.val + (if e.kind = .announce then 256 else 0) + 4096 * cause)

/-- TAP_DROPPED for taps that end with the closure of a position, to their owners (R101, R178). -/
def tapFilings (p : Fin 64) (taps : List (Fin 16 × Tap)) : List Filing :=
  taps.map fun x =>
    (some x.2.owner, .tapDropped, x.2.listener.val,
      x.1.val + (if x.2.kind = .coach then 16 else 0) + 256 * (if x.2.listener = p then 1 else 2))

/-- The taps that name a position. -/
def State.tapsNaming (s : State) (p : Fin 64) : List (Fin 16 × Tap) :=
  s.tapsInUse.filter fun x => x.2.listener = p || x.2.target = p

/-- What the closures of a port reset file for one position (R42): PROMPT_FLUSHED for its queue, and TAP_DROPPED for
the taps that name it and that no closure before it has removed. -/
def State.tearDownFilings (s : State) (closed : List (Fin 64)) (p : Fin 64) : List Filing :=
  flushFilings p 3 (s.queue p)
    ++ tapFilings p ((s.tapsNaming p).filter fun x => !closed.any fun q => q < p && (x.2.listener = q || x.2.target = q))

/-- What RESET PORT files, in order, before its whisper step (R41, R42, R156), given the positions handed over, the
positions closed and the streams stopped: POSITION_INHERITED, the closures' records, and STREAM_LOST. Records for the
resetting port itself are left unfiled; they are listed here too. -/
def State.resetFilings (s : State) (port : Port) (passed closed : List (Fin 64)) (stopped : List (Fin 16)) : List Filing :=
  passed.map (fun p => (some port.other, .positionInherited, p.val, Port.number port))
    ++ closed.flatMap (s.tearDownFilings closed)
    ++ stopped.flatMap fun k =>
        ((List.finRange 64).filter fun p => !closed.contains p && (s.pos p).stream = some k).map fun p =>
          (some port.other, .streamLost, p.val, k.val)

/-! ## What a command may change -/

/-- The pieces of the state, one for each field. -/
inductive Part where
  | phase
  | startUp
  | highway
  | positions
  | suppress
  | echo
  | mixer
  | clipStore
  | arbiter
  | memory
  | streams
  | whisper
  | ports
  | events
  | freeCount
  | pending
  deriving DecidableEq, Repr

/-- Two states hold the same in one piece. -/
def Part.same : Part → State → State → Prop
  | .phase, s, t => t.phase = s.phase
  | .startUp, s, t => t.startUp = s.startUp
  | .highway, s, t => t.highway = s.highway
  | .positions, s, t => t.positions = s.positions
  | .suppress, s, t => t.suppress = s.suppress
  | .echo, s, t => t.echo = s.echo
  | .mixer, s, t => t.mixer = s.mixer
  | .clipStore, s, t => t.clipStore = s.clipStore
  | .arbiter, s, t => t.arbiter = s.arbiter
  | .memory, s, t => t.memory = s.memory
  | .streams, s, t => t.streams = s.streams
  | .whisper, s, t => t.whisper = s.whisper
  | .ports, s, t => t.ports = s.ports
  | .events, s, t => t.events = s.events
  | .freeCount, s, t => t.freeCount = s.freeCount
  | .pending, s, t => t.pending = s.pending

/-- From `s` to `t` nothing has changed outside the listed pieces. -/
def Touches (parts : List Part) (s t : State) : Prop := ∀ x, x ∉ parts → x.same s t

/-- The pieces a grant, or what leads to one, may change (R126, R128, R130). -/
def grantParts : List Part := [.arbiter, .streams, .clipStore, .events, .whisper, .ports]

/-- The pieces a frame completion may change (R4). -/
def frameParts : List Part :=
  [.highway, .positions, .suppress, .echo, .mixer, .clipStore, .arbiter, .streams, .whisper, .ports, .events]

/-- The pieces the release and the closure of a position may change (R25, R30). -/
def closeParts : List Part :=
  [.highway, .positions, .suppress, .echo, .mixer, .clipStore, .arbiter, .streams, .whisper, .events]

/-- The pieces a command may change when it leads to a next state. -/
def commandParts : Instr → List Part
  | .pinReset => [.phase, .startUp, .highway, .positions, .suppress, .echo, .mixer, .clipStore, .arbiter, .memory,
      .streams, .whisper, .ports, .events]
  | .startUpWordShifted _ => [.phase, .startUp, .ports]
  | .startUpMemoryPreparationComplete => [.phase, .highway, .arbiter, .memory]
  | .cycle _ _ _ => frameParts
  | .debounceCountExpiry _ => [.highway, .events]
  | .frameCompletion => frameParts
  | .syncLossMissingPulse => frameParts
  | .fsPulse _ => frameParts
  | .refreshTimerExpiry => grantParts
  | .pageFetchCompletion _ => .memory :: grantParts
  | .portPageWriteCompletion => .memory :: grantParts
  | .portPageReadCompletion _ => .memory :: grantParts
  | .scrubStepCompletion _ => .memory :: grantParts
  | .ignoredRequestFrame _ => [.ports]
  | .unknownRequestCode _ _ => [.ports]
  | .portStatus _ => [.ports]
  | .resetPort _ => .ports :: closeParts
  | .openPosition _ _ _ _ _ => [.ports, .positions, .highway, .suppress, .echo, .mixer]
  | .closePosition _ _ => .ports :: closeParts
  | .connect _ _ _ _ _ => .positions :: .highway :: .suppress :: .echo :: .mixer :: grantParts
  | .hold _ _ _ => [.ports, .positions, .streams]
  | .retrieve _ _ => [.ports, .positions, .streams]
  | .release _ _ => .ports :: closeParts
  | .setPosition _ _ _ => [.ports, .positions, .suppress]
  | .setTail _ _ _ => [.ports, .positions, .echo]
  | .offerPositionOffer _ _ _ => [.ports, .positions, .events]
  | .offerPositionWithdraw _ _ => [.ports, .positions, .events]
  | .acceptPosition _ _ => [.ports, .positions, .whisper, .events]
  | .positionInfo _ _ => [.ports]
  | .positionStats _ _ _ => [.ports, .positions]
  | .writeProfile _ _ _ _ _ => [.ports, .suppress]
  | .addTap _ _ _ _ _ => [.ports, .mixer, .events]
  | .removeTap _ _ => [.ports, .mixer, .events]
  | .listTaps _ => [.ports]
  | .defineClip _ _ _ _ _ _ _ => [.ports, .clipStore]
  | .setKeys _ _ _ _ => [.ports, .clipStore]
  | .freeClip _ _ => [.ports, .clipStore]
  | .clipInfo _ _ => [.ports]
  | .writePage _ _ _ _ => grantParts
  | .readPage _ _ _ => grantParts
  | .readFault _ => [.ports, .freeCount]
  | .clearFault _ => [.ports, .clipStore]
  | .memoryStatus _ => [.ports]
  | .startStream _ _ _ => grantParts
  | .loadStream _ _ _ => grantParts
  | .stopStream _ _ => [.ports, .streams, .clipStore, .arbiter]
  | .streamInfo _ _ _ => [.ports, .streams, .freeCount]
  | .whisper _ _ _ _ => grantParts
  | .cancelWhisper _ _ => .positions :: grantParts
  | .readEvent _ => [.ports, .events]
  | .routeEvent _ _ _ => [.ports, .events]
  | .maskEvents _ _ => [.ports, .events]

/-! ## What a flush leaves -/

/-- What the flush of entries of a position's queue leaves in the whisper block, the clip store and the arbiter (R115, R127,
R157, R161): the kept entries, every other queue, the play counts one lower for each entry flushed; and, of an entry that
was PRIMING or SOUNDING at the head, its player free with its generation raised and its waiting fetch removed, every other
player and fetch as it was. -/
def FlushLeaves (s u : State) (p : Fin 64) (flushed kept : List Entry) : Prop :=
  u.queue p = kept ∧ (∀ q, q ≠ p → u.queue q = s.queue q) ∧ u.whisper.arrival = s.whisper.arrival
    ∧ u.clipStore.faults = s.clipStore.faults
    ∧ (∀ c, u.clip c = { s.clip c with plays := (s.clip c).plays - (flushed.filter fun e => e.clip = c).length })
    ∧ (flushed.all (fun e => e.phase = .waiting) = true →
        u.whisper.players = s.whisper.players ∧ u.arbiter = s.arbiter)
    ∧ ∀ e rest w, flushed = e :: rest → e.phase ≠ .waiting → rest.all (fun e => e.phase = .waiting) = true →
        s.playerOf p = some w →
        u.whisper.players = s.whisper.players.put w ⟨none, (s.player w).generation + 1, .absent, .empty, none⟩
          ∧ u.arbiter = { s.arbiter with queue := s.arbiter.queue.filter fun f => f.player ≠ .prompt w }

/-! ## What holds at every moment -/

/-- No expiry and no frame completion is still to be taken (log entry 7). -/
def State.quiet (s : State) : Prop :=
  s.highway.frameDue = false ∧ ∀ a, (s.debounced a).presentDue = false ∧ (s.debounced a).muteDue = false

/-- Clip memory is in its canonical form; until the part runs it lists nothing, and neither the bus nor the
highways are at work (R124, R138, log entry 5). -/
def State.memorySound (s : State) : Prop :=
  s.memory.wf s.silence = true
    ∧ (s.phase ≠ .running → s.memory = ⟨[], []⟩ ∧ s.arbiter.bus = none ∧ s.highway.frameDue = false)

/-- Each event store holds at most 32 records, and each lost count fits 16 bits (R179, R182). -/
def State.storesBounded (s : State) : Prop :=
  ∀ p, (s.eventsOf p).store.length ≤ 32 ∧ (s.eventsOf p).lost ≤ 65535

/-- READY is high exactly when the start-up word is in and no request is in flight, in the directions that
every step keeps (R169). -/
def State.readyAgrees (s : State) : Prop :=
  ∀ p, ((s.port p).ready = true → (s.port p).inFlight = none)
    ∧ ((s.port p).inFlight = none → s.phase ≠ .shifting → (s.port p).ready = true)
    ∧ (s.phase = .shifting → (s.port p).inFlight = none)

/-- The bad-page list holds at most 16 pages and no page twice (R134). -/
def State.badListSound (s : State) : Prop := s.arbiter.badPages.length ≤ 16 ∧ s.arbiter.badPages.Nodup

/-- The refresh owed count is at most 16, and the scrub pointer of a part that runs names a page that exists
(R131, R132). -/
def State.scrubSound (s : State) : Prop :=
  s.arbiter.owed ≤ 16 ∧ (s.phase = .running → s.arbiter.scrubPointer < s.pageCount)

/-- Every whisper queue holds at most four entries (R157). -/
def State.queuesBounded (s : State) : Prop := ∀ p, (s.queue p).length ≤ 4

/-- The ranges R21 gives a position's parameters. -/
def Position.legal (x : Position) : Prop :=
  x.duck ≤ 32768 ∧ 1 ≤ x.tail ∧ x.tail ≤ 4 ∧ x.step ≤ 7 ∧ 16 ≤ x.reg ∧ x.reg ≤ 30 ∧ x.hang ≤ 15 ∧ x.shift ≤ 15

/-- Every position record holds its parameters within their ranges (R21). -/
def State.parametersLegal (s : State) : Prop := ∀ p, (s.pos p).legal

/-- The free segments are listed in ascending order (R64). Every segment is either free or held by exactly one
position, at one place of its list; an open position's list is as long as its EC tail, and a CLOSED one holds none
(R62, R63). -/
def State.segmentsSound (s : State) : Prop :=
  s.echo.free.Pairwise (· < ·) ∧ (∀ p, (s.segments p).Nodup) ∧ (∀ p, ∀ g ∈ s.segments p, g ∉ s.echo.free)
    ∧ (∀ p q, p ≠ q → ∀ g ∈ s.segments p, g ∉ s.segments q)
    ∧ (∀ g, g ∈ s.echo.free ∨ ∃ p, g ∈ s.segments p)
    ∧ (∀ p, (s.pos p).state ≠ .closed → (s.segments p).length = (s.pos p).tail)
    ∧ (∀ p, (s.pos p).state = .closed → s.segments p = [])

/-- The ranges of a suppression profile (R57). -/
def Profile.legal (x : Profile) : Prop :=
  (∀ i, x.gains.cell i ≤ 32768) ∧ 1 ≤ x.threshold ∧ x.threshold ≤ 15 ∧ 1 ≤ x.nmin ∧ x.nmin ≤ 2 ^ 30

/-- The ranges of what the suppressor keeps (R46). -/
def Suppressor.legal (x : Suppressor) : Prop := 1 ≤ x.floor ∧ x.floor ≤ 2 ^ 35 ∧ x.index ≤ 15 ∧ x.gain ≤ 32768

/-- The ranges of what the canceller keeps (R66). -/
def Canceller.legal (x : Canceller) : Prop :=
  (∀ i, (x.history.cell i).natAbs ≤ 32256) ∧ x.power ≤ 512 * 32256 ^ 2 ∧ x.window ≤ 32256 ∧ x.hangover ≤ 15
    ∧ x.divergence ≤ 3

/-- The newest L entries of a position's history (R66). -/
def State.newest (s : State) (p : Fin 64) : List Int := (s.canceller p).history.toList.take (128 * (s.segments p).length)

/-- For the whole of a call the running power is the exact energy of the newest L history entries, and the window
maximum their largest magnitude (R66). -/
def State.powerSound (s : State) : Prop :=
  ∀ p, (s.pos p).state.inCall = true →
    (s.canceller p).power = ((s.newest p).map fun x => x.natAbs ^ 2).sum ∧ (s.canceller p).window = peak (s.newest p)

/-- Profiles, and what the suppressor, the canceller and the mixer keep for every position, stay within their ranges
(R46, R57, R62, R66, R93). -/
def State.blocksLegal (s : State) : Prop :=
  (∀ n, (s.profile n).legal) ∧ (∀ p, (s.suppressor p).legal ∧ (s.canceller p).legal ∧ s.coachDuck p ≤ 8)
    ∧ ∀ g i, -32768 ≤ (s.echo.coefficients.cell g).cell i ∧ (s.echo.coefficients.cell g).cell i ≤ 32767

/-- The limits of the tap table (R96): a position listens through at most one tap and is the target of at most
three, at most one of them COACH; a tap joins two positions, the listener IDLE and the target open. -/
def State.tapsSound (s : State) : Prop :=
  (∀ t x, s.tap t = some x →
      x.listener ≠ x.target ∧ (s.pos x.listener).state = .idle ∧ (s.pos x.target).state ≠ .closed)
    ∧ (∀ t u x y, s.tap t = some x → s.tap u = some y → x.listener = y.listener → t = u)
    ∧ (∀ t u x y, s.tap t = some x → s.tap u = some y → x.target = y.target →
        x.kind = .coach → y.kind = .coach → t = u)
    ∧ (∀ p, (s.tapsInUse.filter fun x => x.2.target = p).length ≤ 3)

/-- The page ranges of DEFINED clips are pairwise disjoint and lie below the page count, and each holds at
least one page, of which at least one sample is played (R104, R105); no clip is DEFINED until the part runs. -/
def State.clipsSound (s : State) : Prop :=
  (∀ c d, c ≠ d → (s.clip c).defined = true → (s.clip d).defined = true →
      rangesMeet (s.clip c).base (s.clip c).length (s.clip d).base (s.clip d).length = false)
    ∧ (∀ c, (s.clip c).defined = true → (s.clip c).base + (s.clip c).length ≤ s.pageCount
        ∧ 1 ≤ (s.clip c).length ∧ (s.clip c).length ≤ 4096 ∧ 1 ≤ (s.clip c).fill ∧ (s.clip c).fill ≤ 256)
    ∧ (s.phase ≠ .running → ∀ c, (s.clip c).defined = false)

/-- A clip that is being played is not being written (R115). -/
def State.playsExcludeWrites (s : State) : Prop := ∀ c, (s.clip c).plays = 0 ∨ (s.clip c).writeBusy = 0

/-- Every noise floor stays at or above the Nmin of the profile its position names (R46). -/
def State.floorsSound (s : State) : Prop :=
  ∀ p, (s.profile (s.pos p).profile).nmin ≤ (s.suppressor p).floor

/-- A timeslot is bound to a position exactly when the position's record names it; a CLOSED position names no
agent timeslot, and one that is in no call no trunk timeslot (R7, R21). -/
def State.bindingsAgree (s : State) : Prop :=
  (∀ a p, (s.highway.agent.cell a).map Line.position = some p ↔ (s.pos p).agentSlot = some a)
    ∧ (∀ t p, (s.highway.trunk.cell t).map (fun x => x.line.position) = some p ↔ (s.pos p).trunkSlot = some t)
    ∧ (∀ p, (s.pos p).agentSlot.isSome = decide ((s.pos p).state ≠ .closed))
    ∧ (∀ p, (s.pos p).trunkSlot.isSome = (s.pos p).state.inCall)

/-- How many codes the cycle counter says the frame in progress, or the one whose completion is due, has. -/
def Highway.gathered (h : Highway) : Option Nat :=
  match h.sync with
  | .lost _ => none
  | .locked _ cycle => some (if h.frameDue then 32 else cycle.val)

/-- A timeslot that assembles a frame has received, and a trunk timeslot has also sent, one code in each cycle
of it so far; while LOST no timeslot assembles one and no completion is due (R3, R5, R6, R9); a due completion
finds the counter at cycle 0 (log entry 7); and the monitor is LOST until the part runs (R12). -/
def Highway.inStep (h : Highway) : Prop :=
  (∀ a x l, h.agent.cell a = some x → x.received = some l → some l.length = h.gathered)
    ∧ (∀ t x l, h.trunk.cell t = some x → x.line.received = some l →
        some l.length = h.gathered ∧ x.sent.length = l.length)
    ∧ (h.frameDue = true → ∃ start, h.sync = .locked start 0)

/-- The timeslots agree with the positions and with the cycle counter. -/
def State.timeslotsSound (s : State) : Prop :=
  s.bindingsAgree ∧ s.highway.inStep ∧ (s.phase ≠ .running → ∃ held, s.highway.sync = .lost held)

/-- The ANNOUNCE entries of a position's queue. -/
def State.announcements (s : State) (p : Fin 64) : List Entry := (s.queue p).filter fun e => e.kind = .announce

/-- What a position's record says of its call (R21, R31, R33, R39): a CLOSED position holds the closed contents
and queues nothing, an open one has an owner; only ANNOUNCE and HELD name a stream; announce pending is set in
HELD only; and a position that announces, or whose announcement is pending, queues one ANNOUNCE entry, of its
owner's, and any other position none. -/
def State.callSound (s : State) (p : Fin 64) : Prop :=
  ((s.pos p).state = .closed → s.pos p = Position.closedContents ∧ s.queue p = [])
    ∧ ((s.pos p).state ≠ .closed → (s.pos p).owner.isSome = true)
    ∧ ((s.pos p).stream.isSome = true → (s.pos p).state = .announce ∨ (s.pos p).state = .held)
    ∧ ((s.pos p).announcePending = true → (s.pos p).state = .held)
    ∧ (s.announcements p).length
        = (if (s.pos p).state = .announce ∨ (s.pos p).announcePending = true then 1 else 0)
    ∧ (∀ e ∈ s.announcements p, (s.pos p).owner = some e.origin)

/-- What the records of all positions say of their calls. -/
def State.callsSound (s : State) : Prop := ∀ p, s.callSound p

/-- A stream's listener count is the number of positions that name it (R33, R152). -/
def State.listenersCounted (s : State) : Prop :=
  ∀ k, (s.stream k).listeners = ((List.finRange 64).filter fun p => (s.pos p).stream = some k).length

/-- A page operation waits or is on the bus for a port only while that port's request is in flight, and not in both
places (R129, R171). -/
def State.opsInFlight (s : State) : Prop :=
  ∀ p, ((s.arbiter.pendingOps.cell p).isSome = true → (s.port p).inFlight.isSome = true)
    ∧ ∀ op, s.arbiter.bus = some (.port p op) →
        (s.port p).inFlight.isSome = true ∧ s.arbiter.pendingOps.cell p = none

/-- The items of a playlist that name a clip. -/
def namings (c : Fin 256) (l : Option Playlist) : Nat :=
  match l with
  | some l => (l.items.filter fun i => i.clip = c).length
  | none => 0

/-- The references for play to a clip (R115): the items that name it in the current and staged playlists of all
streams, and the whisper entries that name it. -/
def State.references (s : State) (c : Fin 256) : Nat :=
  ((List.finRange 16).map fun k => namings c (s.stream k).current + namings c (s.stream k).staged).sum
    + ((List.finRange 64).map fun p => ((s.queue p).filter fun e => e.clip = c).length).sum

/-- Play counts count the references (R115). With it, what a stream holds in each state: a STOPPED one no playlist; an
ENDED one no awaited page and an exhausted fetch cursor, and with such a cursor there is no staged playlist (R143,
R148, R150). A FREE clip has no reference (R104). -/
def State.playsCounted (s : State) : Prop :=
  (∀ c, (s.clip c).plays = s.references c)
    ∧ (∀ c, (s.clip c).defined = false → (s.clip c).plays = 0)
    ∧ (∀ k, (s.stream k).state = .stopped → (s.stream k).current = none ∧ (s.stream k).staged = none)
    ∧ (∀ k, (s.stream k).state = .ended → (s.stream k).cursor = .exhausted ∧ (s.stream k).next = .empty)
    ∧ (∀ k, (s.stream k).cursor = .exhausted → (s.stream k).staged = none)

/-- A STOPPED stream has no listeners (R152). -/
def State.stoppedUnheard (s : State) : Prop := ∀ k, (s.stream k).state = .stopped → (s.stream k).listeners = 0

/-- A PRIMING or SOUNDING head holds exactly one prompt player, assigned to it, and only heads are PRIMING or SOUNDING
(R157, R162); no player is free while a head waits (R163). -/
def State.playersSound (s : State) : Prop :=
  (∀ w p, (s.player w).assigned = some p → ∃ e, (s.queue p).head? = some e ∧ e.phase ≠ .waiting)
    ∧ (∀ p e, (s.queue p).head? = some e → e.phase ≠ .waiting → ∃ w, (s.player w).assigned = some p)
    ∧ (∀ v w p, (s.player v).assigned = some p → (s.player w).assigned = some p → v = w)
    ∧ (∀ p, ∀ e ∈ (s.queue p).tail, e.phase = .waiting)
    ∧ (∀ w p e, (s.player w).assigned = none → (s.queue p).head? = some e → e.phase ≠ .waiting)

/-! ## Fetches and the pages of memory operations -/

/-- A player's generation number (R140, R162). -/
def State.generationOf (s : State) : PlayerId → Half
  | .stream k => (s.stream k).generation
  | .prompt w => (s.player w).generation

/-- Whether a player's next slot awaits a page. -/
def State.awaits (s : State) : PlayerId → Bool
  | .stream k => match (s.stream k).next with | .awaited _ => true | .empty => false | .filled _ => false
  | .prompt w => match (s.player w).next with | .awaited => true | .empty => false | .filled _ => false

/-- At most one request of a player waits, under its present generation, and its next slot awaits the page; none waits
while a fetch of that generation is on the bus; and what plays nothing awaits nothing (R127, R140, R162). -/
def State.fetchesSound (s : State) : Prop :=
  (∀ x, (s.arbiter.queue.filter fun f => f.player = x).length ≤ 1)
    ∧ (∀ f ∈ s.arbiter.queue, f.generation = s.generationOf f.player ∧ s.awaits f.player = true)
    ∧ (∀ f, s.arbiter.bus = some (.fetch f) → f.generation = s.generationOf f.player →
        s.awaits f.player = true ∧ ∀ g ∈ s.arbiter.queue, g.player ≠ f.player)
    ∧ (∀ k, (s.stream k).state = .stopped → (s.stream k).next = .empty)
    ∧ (∀ w, (s.player w).assigned = none → (s.player w).next = .empty)

/-- No player's generation comes round, from `s` to `t`, to that of an older fetch still on the bus. Generations wrap
after 65536 stops (R140, R162), so the manual does not rule that out by itself. -/
def noneComesRound (s t : State) : Prop :=
  ∀ f, s.arbiter.bus = some (.fetch f) → t.arbiter.bus = some (.fetch f) →
    t.generationOf f.player = f.generation → s.generationOf f.player = f.generation

/-- The fetch cursor of a stream or of a prompt player names a page index of the clip it plays (R140, R162). -/
def State.cursorsSound (s : State) : Prop :=
  (∀ k l item index x, (s.stream k).current = some l → (s.stream k).cursor = .page item index →
      l.items[item]? = some x → index < (s.clip x.clip).length)
    ∧ (∀ w p e index, (s.player w).assigned = some p → (s.queue p).head? = some e →
        (s.player w).cursor = .page index → index < (s.clip e.clip).length)

/-- The page of a port operation (R117, R119). -/
def PortOp.page : PortOp → Nat
  | .write _ _ page _ _ => page
  | .read _ _ page => page

/-- The page of the operation on the bus (R124). -/
def State.busPage (s : State) : Option Nat :=
  match s.arbiter.bus with
  | some (.fetch f) => some f.page
  | some (.port _ (.write _ _ page _ _)) => some page
  | some (.port _ (.read _ _ page)) => some page
  | some .scrub => some s.arbiter.scrubPointer
  | none => none

/-- Every page that waits to be fetched, written or read, and the page of the operation on the bus, exists (R105,
R124); and until the part runs nothing waits and the bus is free (R138). -/
def State.pagesSound (s : State) : Prop :=
  (∀ f ∈ s.arbiter.queue, f.page < s.pageCount)
    ∧ (∀ p op, s.arbiter.pendingOps.cell p = some op → op.page < s.pageCount)
    ∧ (∀ page, s.busPage = some page → page < s.pageCount)
    ∧ (s.phase ≠ .running → s.arbiter.queue = [] ∧ s.arbiter.pendingOps = ⟨none, none⟩ ∧ s.arbiter.bus = none)

end Sys2Proof.Machine
end

