-- ==== Sys2Proof/Certificates/Slice0/Obligations.lean ====
section
/-! DEFINITION. The statements for the provers. A docstring names the rules of spec/ a statement rests on, and
the log entries (notes/assumptions) where it rests on the model's own choices. -/

open Sys2Proof Sys2Proof.Machine

/-! ## The machine -/

/-- The model's queue (log entry 1): a step carries out the command at the front over the queue's rest, and a
part with an empty queue idles. -/
def Obligations.StepRunsTheFrontCommand : Prop :=
  (∀ c s, step { s with pending := c :: s.pending } = exec c s) ∧ ∀ s, s.pending = [] → step s = .next s

/-- Frame of every command: what it leaves alone when it leads to a next state. Each block keeps everything that
the command's rules do not give it to change; no command changes the queue. -/
def Obligations.CommandsChangeOnlyTheirPieces : Prop :=
  ∀ c s t, exec c s = .next t → Touches (commandParts c) s t ∧ t.pending = s.pending

/-- Every command has its effect: none is refused by the model, and only the completion of a memory operation on a
page that does not exist stops it (R124, log entry 24); and none stops in a state in which every page that memory
operations name exists, as R105 has it and ClipsStaySound keeps it. -/
def Obligations.OnlyMissingPagesStopThePart : Prop :=
  (∀ c s r, exec c s ≠ .refused r)
    ∧ (∀ c s r, exec c s = .fault r →
      ∃ page, r = .noSuchPage page ∧ s.busPage = some page ∧ s.pageCount ≤ page)
    ∧ ∀ c s r, s.pagesSound → exec c s ≠ .fault r

/-! ## Control ports -/

/-- R22, R24 to R45, R58, R97, R99, R108 to R122, R142 to R145, R158, R160, R170, R180, R183: a request that a port takes
and answers with a status other than OK changes nothing but the port's reply; CLIP_FAULT also enters the fault in the
port's fault record. Which status that is, the first of the request's checks that fails gives, in the order of its rule
(`State.checksOf`); a CLIP_FAULT enters the kinds, the clip and the page index of the reference that finds a fault
(`State.faultOf`), with the request's code; and a request whose checks all pass is not refused. That an offer choice above 1
is refused is log entry 16's. -/
def Obligations.RefusedRequestsChangeNothingElse : Prop :=
  (∀ c s t port code payload r, s.takes port → c.codeAndPayload = some (port, code, payload) → exec c s = .next t →
    (t.port port).lastReply = some r → r.status ≠ .ok →
    t = s.replied port code r.status []
      ∨ r.status = .clipFault ∧ ∃ kinds clip index, kinds.found = true
          ∧ t = (s.recordFault port kinds clip index code).replied port code .clipFault [])
  ∧ ∀ c s port code payload, s.takes port → c.codeAndPayload = some (port, code, payload) →
    (∀ status, s.verdict port c = some status → status ≠ .clipFault →
      exec c s = .next (s.replied port code status []))
    ∧ (s.verdict port c = some .clipFault → ∃ kinds clip index, s.faultOf port c = some (kinds, clip, index)
        ∧ exec c s = .next ((s.recordFault port kinds clip index code).replied port code .clipFault []))
    ∧ (s.verdict port c = none → ∃ t, exec c s = .next t ∧ ∀ r, (t.port port).lastReply = some r → r.status = .ok)

/-- R169, R170: what becomes of a request frame before its own checks. While the start-up word is shifted in no
frame is received; a frame while READY is low is ignored and counted up to 255; then STARTING; then PORT_OFF; and a
frame that cannot be read is answered BAD_REQUEST with its code echoed. -/
def Obligations.PortChecksComeFirst : Prop :=
  (∀ c s port code, (∃ payload, c.codeAndPayload = some (port, code, payload)) ∨ c = .unknownRequestCode port code →
    (s.phase = .shifting → exec c s = .next s)
    ∧ (s.phase ≠ .shifting → (s.port port).ready = false →
        exec c s = .next (s.setPort port { s.port port with ignored := min 255 ((s.port port).ignored + 1) }))
    ∧ (s.phase = .preparing → (s.port port).ready = true → exec c s = .next (s.replied port code .starting []))
    ∧ (s.phase = .running → (s.port port).ready = true → s.enabled port = false →
        exec c s = .next (s.replied port code .portOff [])))
  ∧ (∀ s port code, s.takes port →
      exec (.unknownRequestCode port code) s = .next (s.replied port code .badRequest []))
  ∧ ∀ s port, s.phase ≠ .shifting → (s.port port).ready = false →
      exec (.ignoredRequestFrame port) s
        = .next (s.setPort port { s.port port with ignored := min 255 ((s.port port).ignored + 1) })

/-- R168, R178: the frame a well-formed request makes is read back as that request, with every operand at every value
its fields hold, from its bytes and from the bits that carry them, most significant first, whatever bits of an incomplete
last byte follow. A period of fewer than eight clocks and a read period spell no command. Each request's frame is written out
byte by byte, with its code, its payload length and the order of its fields; a flag byte is 0 or 1. That the bits of a presence
byte which stand for no field are ignored is log entry 30's choice, and that an offer choice above 1 is read log entry 16's. -/
def Obligations.DecodeOfEncodedRequest : Prop :=
  (∀ c port bytes, c.wellFormed = true → encodeRequest c = some (port, bytes) → decodeRequest port bytes = some c
    ∧ ∀ extra : List Bool, extra.length < 8 → decodePeriod port (bitsOfBytes bytes ++ extra) = some c)
  ∧ (∀ port (sdi : List Bool), (sdi.length < 8 → decodePeriod port sdi = none)
    ∧ decodePeriod port ([true, true, false, false, false, false, true, true] ++ sdi) = none)
  ∧ ∀ (port : Port) (on : Bool) (b0 b1 b2 b3 b4 b5 b6 b7 b8 b9 : Byte),
    let reads := fun (frame : List Byte) (c : Instr) => decodeRequest port frame = some c
    let flagged := fun (presence : Byte) (bit : Nat) (b : Byte) => if presence.getLsbD bit then some b else none
    let wide := fun (presence : Byte) (bit : Nat) (h : Half) => if presence.getLsbD bit then some h else none
    let flag : Byte := if on then 1 else 0
    reads [0x01, 0, 0] (.portStatus port) ∧ reads [0x02, 0, 0] (.resetPort port)
    ∧ reads [0x10, 0, 4, b0, b1, b2, b3] (.openPosition port b0 b1 b2 b3) ∧ reads [0x11, 0, 1, b0] (.closePosition port b0)
    ∧ reads [0x12, 0, 7, b0, b1, b2, b3, b4, b5, b6]
        (.connect port b0 b1 (if b2.getLsbD 0 then some ⟨b3, b4 ++ b5⟩ else none) (flagged b2 1 b6))
    ∧ reads [0x13, 0, 3, b0, b1, b2] (.hold port b0 (flagged b1 0 b2)) ∧ reads [0x14, 0, 1, b0] (.retrieve port b0)
    ∧ reads [0x15, 0, 1, b0] (.release port b0)
    ∧ reads [0x16, 0, 11, b0, b1, b2, b3, b4, b5, b6, b7, b8, flag, b9] (.setPosition port b0 ⟨wide b1 0 (b2 ++ b3),
        flagged b1 1 b4, flagged b1 2 b5, flagged b1 3 b6, flagged b1 4 b7, flagged b1 5 b8,
        if b1.getLsbD 6 then some on else none, flagged b1 7 b9⟩)
    ∧ reads [0x17, 0, 2, b0, b1] (.setTail port b0 b1) ∧ reads [0x18, 0, 2, b0, 1] (.offerPositionWithdraw port b0)
    ∧ (b1 ≠ 1 → reads [0x18, 0, 2, b0, b1] (.offerPositionOffer port b0 b1))
    ∧ reads [0x19, 0, 1, b0] (.acceptPosition port b0) ∧ reads [0x1A, 0, 1, b0] (.positionInfo port b0)
    ∧ reads [0x1B, 0, 2, b0, flag] (.positionStats port b0 on)
    ∧ (∀ (gains : Table 16 Half) (nmin : Wide),
        reads ([0x20, 0, 38, b0] ++ gains.toList.flatMap Half.bytes ++ [b1] ++ nmin.bytes)
          (.writeProfile port b0 gains b1 nmin))
    ∧ reads [0x28, 0, 5, b0, b1, b2, b3, b4] (.addTap port b0 b1 b2 (b3 ++ b4)) ∧ reads [0x29, 0, 1, b0] (.removeTap port b0)
    ∧ reads [0x2A, 0, 0] (.listTaps port)
    ∧ reads [0x30, 0, 9, b0, b1, b2, b3, b4, b5, b6, b7, b8]
        (.defineClip port b0 (b1 ++ b2) (b3 ++ b4) (b5 ++ b6) b7 b8)
    ∧ reads [0x31, 0, 3, b0, b1, b2] (.setKeys port b0 b1 b2) ∧ reads [0x32, 0, 1, b0] (.freeClip port b0)
    ∧ (∀ codes : PageCodes, reads ([0x33, 1, 3, b0, b1, b2] ++ codes.toList) (.writePage port b0 (b1 ++ b2) codes))
    ∧ reads [0x34, 0, 3, b0, b1, b2] (.readPage port b0 (b1 ++ b2)) ∧ reads [0x35, 0, 1, b0] (.clipInfo port b0)
    ∧ reads [0x36, 0, 0] (.readFault port) ∧ reads [0x37, 0, 0] (.clearFault port) ∧ reads [0x38, 0, 0] (.memoryStatus port)
    ∧ (∀ (items : List ItemArg) (inner outer : Bool), items.length ≤ 255 →
        let payload := [b0, BitVec.ofNat 8 items.length] ++ (items.flatMap fun i => i.clip :: i.gain.bytes)
          ++ [if inner then 1 else 0, b1, b2, b3, if outer then 1 else 0, b4, b5, b6]
        let list : PlaylistArg := ⟨items, ⟨inner, b1, b2, b3⟩, ⟨outer, b4, b5, b6⟩⟩
        reads (0x40 :: Half.bytes (BitVec.ofNat 16 (10 + 3 * items.length)) ++ payload) (.startStream port b0 list)
        ∧ reads (0x41 :: Half.bytes (BitVec.ofNat 16 (10 + 3 * items.length)) ++ payload) (.loadStream port b0 list))
    ∧ reads [0x42, 0, 1, b0] (.stopStream port b0) ∧ reads [0x43, 0, 2, b0, flag] (.streamInfo port b0 on)
    ∧ reads [0x48, 0, 4, b0, b1, b2, b3] (.whisper port b0 b1 (b2 ++ b3)) ∧ reads [0x49, 0, 1, b0] (.cancelWhisper port b0)
    ∧ reads [0x50, 0, 0] (.readEvent port) ∧ reads [0x51, 0, 2, b0, b1] (.routeEvent port b0 b1)
    ∧ reads [0x52, 0, 1, b0] (.maskEvents port b0)

/-! ## Pin reset and start-up -/

/-- R177, R138, R169: pin reset restores the initial state (the model keeps its queue and its count of free values:
log entry 6); the start-up word fixes its items and raises READY; the completion of preparation leaves every page
silent, gives the arbiter its values and starts the frame stamp and the sync monitor. -/
def Obligations.PinResetAndStartUp : Prop :=
  (∀ s, exec .pinReset s = .next { State.reset with pending := s.pending, freeCount := s.freeCount })
  ∧ (∀ s (w : Half), s.phase = .shifting →
      exec (.startUpWordShifted w) s = .next { s with
        phase := .preparing
        startUp := {
          law := if w.getLsbD 0 then .a else .mu
          fairness := if w.getLsbD 1 then .cp0First else .alternate
          memorySize := if w.toNat / 4 % 4 = 0 then .mib4 else if w.toNat / 4 % 4 = 1 then .mib8 else .mib16
          cp1Enabled := w.getLsbD 4
          refresh := if w.getLsbD 5 then .fast else .slow }
        ports := ⟨{ s.ports.cp0 with ready := true }, { s.ports.cp1 with ready := true }⟩ })
  ∧ ∀ s, s.phase = .preparing →
      ∃ t, exec .startUpMemoryPreparationComplete s = .next t
        ∧ Touches [.phase, .highway, .arbiter, .memory] s t
        ∧ t.phase = .running
        ∧ (∀ page, t.memory.readPage t.silence page = Table.fill 256 t.silence) ∧ t.memory.flaws = []
        ∧ t.arbiter = { bus := none, queue := [], pendingOps := ⟨none, none⟩, alternation := .cp1, owed := 0,
                        scrubPointer := 0, badPages := [], correctable := 0, uncorrectable := 0, passes := 0 }
        ∧ t.highway = { s.highway with stamp := 0, sync := .lost none }

/-- The values the manual gives for pin reset (R18, R21, R46, R57, R62, R63, R66, R93, R96, R104, R121, R140, R157, R162,
R169, R172, R185). -/
def Obligations.StateAfterPinReset : Prop :=
  let s := State.reset
  (∀ p, s.pos p = ⟨.closed, none, none, none, none, false, false, 8192, 2, 2, .adapt, 3, 20, 8, true, 5, ⟨0, 0, 0, 0, 0⟩⟩)
  ∧ (∀ a, s.debounced a = ⟨false, false, 0, 0⟩ ∧ s.highway.agent.cell a = none ∧ s.highway.trunk.cell a = none)
  ∧ (∀ p, s.suppressor p = ⟨512, 0, 8192, true, Table.fill 32 0, false, false⟩)
  ∧ (∀ n : Fin 4, (s.profile n).nmin = 512 ∧ (s.profile n).threshold = [4, 3, 4, 5].getD n.val 0
      ∧ (s.profile n).gains.toList = (match n with
        | 0 => List.replicate 16 32768
        | 1 => [16384, 16384, 20643, 26008] ++ List.replicate 12 32768
        | 2 => [8192, 8192, 11585, 16384, 23170] ++ List.replicate 11 32768
        | 3 => [3277, 4096, 6500, 10362, 16384, 26008] ++ List.replicate 10 32768))
  ∧ (∀ p, s.canceller p = ⟨[], Table.fill 512 0, 0, 0, 0, 0⟩) ∧ s.echo.free = List.finRange 128
  ∧ (∀ g i, (s.echo.coefficients.cell g).cell i = 0)
  ∧ (∀ t, s.tap t = none) ∧ (∀ p, s.coachDuck p = 0)
  ∧ (∀ c, s.clip c = ⟨false, none, 0, 0, 0, ⟨.noAccess, .noAccess⟩, false, false, 0, 0⟩)
  ∧ (∀ k, s.stream k = ⟨.stopped, none, 0, none, none, 1, 1, .absent, .empty, none, false, false, 0, 0⟩)
  ∧ (∀ p, s.queue p = []) ∧ s.whisper.arrival = 0 ∧ (∀ w, s.player w = ⟨none, 0, .absent, .empty, none⟩)
  ∧ ∀ port, s.fault port = ⟨none, 0⟩ ∧ s.port port = ⟨false, none, none, 0⟩
      ∧ (s.eventsOf port).store = [] ∧ (s.eventsOf port).mask = 0 ∧ (s.eventsOf port).lost = 0
      ∧ (s.eventsOf port).classes.toList = [0, 0, 0, 0, 0, 1, 1, 1, 1, 1, 2, 3, 3, 4, 4, 4, 4, 5, 5, 6, 6]

/-! ## Highway interface -/

/-- R3, R5, R6, R7, R9, R10, R18: a cycle when nothing is due. Of a locked highway: every bound timeslot is driven from its
transmit buffer and adds the received code to a buffer that fills; every unbound one is left floating; each debounce counter
counts or returns to 0; the counter advances, and the end of cycle 31 makes a completion due. While LOST every bound
timeslot is driven with the silence code and nothing else happens (that this holds from the bit period of a missing pulse
on, and that such a cycle has no place of its own, is log entry 34's choice); before the part runs a cycle changes nothing.
Timeslot n occupies bit periods 8n to 8n + 7, its code most significant bit first; PRESENT and MUTE are the first two bit
periods of an agent timeslot on AGT_SIG. The state keeps what the transmit lines carried in the last cycle (log entry 22). -/
def Obligations.Cycles : Prop :=
  (∀ s start cycle (trunkRx agentRx agentSig : LineBits), s.phase = .running → s.quiet → s.highway.sync = .locked start cycle →
    let carries := fun (line : LineBits) (n : Fin 64) (code : Byte) =>
      ∀ i : Fin 8, code.getMsbD i.val = line.nth (8 * n.val + i.val) false
    ∃ t, exec (.cycle trunkRx agentRx agentSig) s = .next t ∧ Touches [.highway] s t
      ∧ t.highway.sync = .locked (start + 512) (if cycle = 31 then 0 else cycle + 1)
      ∧ (t.highway.frameDue = true ↔ cycle = 31)
      ∧ t.highway.stamp = s.highway.stamp ∧ t.highway.firstFrame = s.highway.firstFrame
      ∧ t.highway.lockedBefore = s.highway.lockedBefore
      ∧ (∀ a, t.highway.agentOut.cell a = (s.highway.agent.cell a).map (fun x => x.transmit.cell cycle)
          ∧ ∃ code, carries agentRx a code ∧ t.highway.agent.cell a = (s.highway.agent.cell a).map fun x =>
              { x with received := x.received.map fun l => l ++ [code] })
      ∧ (∀ u, t.highway.trunkOut.cell u = (s.highway.trunk.cell u).map (fun x => x.line.transmit.cell cycle)
          ∧ ∃ code, carries trunkRx u code ∧ t.highway.trunk.cell u = (s.highway.trunk.cell u).map fun x =>
              ⟨{ x.line with received := x.line.received.map fun l => l ++ [code] },
                x.sent ++ [x.line.transmit.cell cycle]⟩)
      ∧ ∀ a, (t.debounced a).present = (s.debounced a).present ∧ (t.debounced a).mute = (s.debounced a).mute
          ∧ (t.debounced a).presentCount
              = (if agentSig.nth (8 * a.val) false = (s.debounced a).present then 0 else (s.debounced a).presentCount + 1)
          ∧ (t.debounced a).muteCount
              = (if agentSig.nth (8 * a.val + 1) false = (s.debounced a).mute then 0 else (s.debounced a).muteCount + 1))
  ∧ (∀ s held trunkRx agentRx agentSig, s.phase = .running → s.quiet → s.highway.sync = .lost held →
    exec (.cycle trunkRx agentRx agentSig) s = .next { s with highway := { s.highway with
      agentOut := s.highway.agent.map fun (x : Option Line) => x.map fun _ => s.silence
      trunkOut := s.highway.trunk.map fun (x : Option TrunkLine) => x.map fun _ => s.silence } })
  ∧ (∀ s trunkRx agentRx agentSig, s.phase ≠ .running → exec (.cycle trunkRx agentRx agentSig) s = .next s)
  ∧ ∀ (s : State) (period : Fin 512) (n : Fin 64) (i : Fin 8), period.val = 8 * n.val + i.val →
    s.trkTx period = (s.highway.trunkOut.cell n).map (fun code => code.getMsbD i.val)
    ∧ s.agtTx period = (s.highway.agentOut.cell n).map fun code => code.getMsbD i.val

/-- The model's split of a cycle from what it brings about (log entry 7): a cycle and both sync events act on a state
whose expiries and frame completion have been taken; settling leaves none, and settling a quiet state changes
nothing. A missing pulse is looked for only while LOCKED; at any other time that event changes nothing, whatever is due
(log entry 3). Settling takes the expiries of all timeslots in ascending order, and then a frame completion that is due. -/
def Obligations.DueEffectsAreTakenFirst : Prop :=
  (∀ s trunkRx agentRx agentSig, exec (.cycle trunkRx agentRx agentSig) s.settle
      = if s.phase = .running then exec (.cycle trunkRx agentRx agentSig) s else .next s.settle)
  ∧ (∀ s bit, exec (.fsPulse bit) s.settle
      = if s.phase = .running then exec (.fsPulse bit) s else .next s.settle)
  ∧ (∀ s start cycle, s.highway.sync = .locked start cycle → exec .syncLossMissingPulse s.settle
      = if s.phase = .running then exec .syncLossMissingPulse s else .next s.settle)
  ∧ (∀ s, (s.phase ≠ .running ∨ ∃ held, s.highway.sync = .lost held) → exec .syncLossMissingPulse s = .next s)
  ∧ (∀ s : State, s.settle.quiet) ∧ (∀ s : State, s.quiet → s.settle = s)
  ∧ ∀ s : State, ∃ u : Nat → State, u 0 = s ∧ (∀ a : Fin 64, exec (.debounceCountExpiry a) (u a.val) = .next (u (a.val + 1)))
    ∧ (s.highway.frameDue = false → s.settle = u 64)
    ∧ (s.highway.frameDue = true → exec .frameCompletion s = .next s.settle ∧ exec .frameCompletion (u 64) = .next s.settle)

/-- R18, R19: when a debounce counter has reached 24, the value takes the sampled one, which differs from it, the
counter returns to 0, and HEADSET_CHANGE goes to the owner of the position bound to the slot. -/
def Obligations.DebounceExpiry : Prop :=
  ∀ s a, ((s.debounced a).presentCount = 24 ∨ (s.debounced a).muteCount = 24) →
    ∃ t d detail, exec (.debounceCountExpiry a) s = .next t
      ∧ d.present = (if (s.debounced a).presentCount = 24 then !(s.debounced a).present else (s.debounced a).present)
      ∧ d.mute = (if (s.debounced a).muteCount = 24 then !(s.debounced a).mute else (s.debounced a).mute)
      ∧ d.presentCount = (if (s.debounced a).presentCount = 24 then 0 else (s.debounced a).presentCount)
      ∧ d.muteCount = (if (s.debounced a).muteCount = 24 then 0 else (s.debounced a).muteCount)
      ∧ detail = detailBit d.present 0 + detailBit d.mute 1 + detailBit (decide ((s.debounced a).presentCount = 24)) 8
          + detailBit (decide ((s.debounced a).muteCount = 24)) 9
      ∧ (∀ l, s.highway.agent.cell a = some l →
          t = (s.setDebounced a d).fileOwner (s.pos l.position).owner .headsetChange l.position.val detail)
      ∧ (s.highway.agent.cell a = none → t = s.setDebounced a d)

/-- R4, R5, R6, R20, R47: the completion of a frame that is due, no expiry being due with it. The stamp adds one; every
bound timeslot starts to fill for the next frame; the suppressor has done its work for every position; and the sync monitor,
the debounced values, clip memory and the taps are as they were. The order in which the blocks work is R4's where it gives
one and the model's where it does not (log entry 9). R6, R86: the transmit buffers are then those of the mixer's sums,
formed from what its neighbours hand it at this completion. R88, R147, R150, R151: each sample of a RUNNING stream comes
from its playing slot, from the page that moves into it, or is 0 while the page is awaited or the list is at its end. R164
to R166: which heads begin to sound, the samples of a SOUNDING head, and how an entry that has played its last sample ends.
Streams, whisper frames and ended entries are taken one after another, each on the state the one before it left, in
ascending order (log entries 9 and 10). That a page leaves its slot at its last sample is log entry 19's, and that a listed
page may arrive within the frame log entry 25's. -/
def Obligations.FrameCompletion : Prop :=
  (∀ s, s.highway.frameDue = true →
    (∀ a, (s.debounced a).presentCount ≠ 24 ∧ (s.debounced a).muteCount ≠ 24) →
    ∃ t, exec .frameCompletion s = .next t
      ∧ t.highway.stamp = s.highway.stamp + 1 ∧ t.highway.frameDue = false ∧ t.highway.firstFrame = false
      ∧ t.highway.sync = s.highway.sync ∧ t.highway.debounce = s.highway.debounce
      ∧ (∀ a, (t.highway.agent.cell a).map (fun x => (x.position, x.received))
          = (s.highway.agent.cell a).map fun x => (x.position, some []))
      ∧ (∀ u, (t.highway.trunk.cell u).map (fun x => (x.line.position, x.line.received, x.sent))
          = (s.highway.trunk.cell u).map fun x => (x.line.position, some [], []))
      ∧ (∀ p, t.suppressor p = s.suppress1 p) ∧ t.suppress.profiles = s.suppress.profiles
      ∧ t.memory = s.memory ∧ t.mixer.taps = s.mixer.taps
      ∧ (∀ p, t.coachDuck p = (s.suppressFrames).coachDuckAfter p))
  ∧ (∀ s : State, s.highway.frameDue = true →
      let echo := s.settleDebounce.stamped.echoFrames
      let streams := echo.2.suppressFrames.streamFrames
      let whisper := streams.2.soundHeads.whisperFrames
      let before := whisper.2.updateCoachDuck
      let handed : MixInputs := ⟨echo.1, streams.1, whisper.1⟩
      let t := (before.mix handed).beginFrame.pastFirstFrame.completeHeads
      exec .frameCompletion s = .next t
      ∧ (∀ a, t.highway.agent.cell a = (s.highway.agent.cell a).map fun l => ⟨l.position, some [],
          Table.build fun i => compress s.law (saturate (before.earSum handed l.position i))⟩)
      ∧ ∀ u, t.highway.trunk.cell u = (s.highway.trunk.cell u).map fun l => ⟨⟨l.line.position, some [],
          Table.build fun i => compress s.law (saturate ((before.trunkSend handed l.line.position).cell i))⟩, []⟩)
  ∧ (∀ s : State,
    s.stamped = { s with highway := { s.highway with stamp := s.highway.stamp + 1, frameDue := false } }
    ∧ s.pastFirstFrame = { s with highway := { s.highway with firstFrame := false } }
    ∧ s.beginFrame = { s with highway := { s.highway with
        agent := s.highway.agent.map fun (x : Option Line) => x.map fun (l : Line) => { l with received := some [] }
        trunk := s.highway.trunk.map fun (x : Option TrunkLine) => x.map fun (l : TrunkLine) =>
          ⟨{ l.line with received := some [] }, []⟩ } }
    ∧ s.suppressFrames = { s with suppress := { s.suppress with positions := Table.build s.suppress1 } }
    ∧ s.updateCoachDuck = { s with mixer := { s.mixer with coachDuck := Table.build s.coachDuckAfter } }
    ∧ (∀ m : MixInputs, s.mix m = { s with
        positions := (s.mix m).positions
        highway := { s.highway with agent := (s.mix m).highway.agent, trunk := (s.mix m).highway.trunk } })
    ∧ Touches [.echo, .positions, .events] s s.echoFrames.2 ∧ Touches grantParts s s.streamFrames.2
    ∧ Touches (.positions :: grantParts) s s.whisperFrames.2 ∧ Touches (.positions :: grantParts) s s.completeHeads)
  ∧ (∀ s : State,
    (∃ u : Nat → State, u 0 = s ∧ s.streamFrames.2 = u 16 ∧ ∀ k : Fin 16,
      u (k.val + 1) = ((u k.val).streamFrame k).2 ∧ s.streamFrames.1.cell k = ((u k.val).streamFrame k).1)
    ∧ (∃ u : Nat → State, u 0 = s ∧ s.whisperFrames.2 = u 64 ∧ ∀ p : Fin 64,
      u (p.val + 1) = ((u p.val).whisperFrame p).2 ∧ s.whisperFrames.1.cell p = ((u p.val).whisperFrame p).1)
    ∧ ∃ u : Nat → State, u 0 = s ∧ s.completeHeads = u 64 ∧ ∀ p : Fin 64, u (p.val + 1) = (u p.val).completeHead p)
  ∧ (∀ (s : State) k,
    let x := s.stream k
    (x.state ≠ .running → s.streamFrame k = (Table.fill 32 0, s))
    ∧ (x.state = .running → s.streamFrame k
        = (Table.ofList 32 0 (State.streamSamples k 32 s).1, (State.streamSamples k 32 s).2))
    ∧ State.streamSamples k 0 s = ([], s)
    ∧ (∀ n, State.streamSamples k (n + 1) s = ((s.streamSample k).1 :: (State.streamSamples k n (s.streamSample k).2).1,
        (State.streamSamples k n (s.streamSample k).2).2))
    ∧ (x.playing = none → x.next = .empty → x.cursor = .exhausted →
        s.endIfDone k = (s.setStream k { x with state := .ended }).fileOwner x.owner .streamEnded k.val 0)
    ∧ (¬(x.playing = none ∧ x.next = .empty ∧ x.cursor = .exhausted) → s.endIfDone k = s)
    ∧ (x.state = .running →
      (∀ y, x.playing = some y → s.streamSample k
        = ((expand s.law (y.page.codes.nth y.played 0) * (y.page.gain : Int) + 16384) / 32768,
          if y.played + 1 < y.page.samples then
            s.setStream k { x with playing := some { y with played := y.played + 1 } }
          else (s.setStream k { x with playing := none }).endIfDone k))
      ∧ (∀ page, x.playing = none → x.next = .filled page → s.streamSample k
        = ((s.setStream k { x with
            playing := some ⟨page, 0⟩, next := .empty, priming := false, underrun := false }).streamRequest
              k).streamSample k)
      ∧ (∀ item, x.playing = none → x.next = .awaited item → s.streamSample k
        = (0, if x.priming then s else
            let t := s.setStream k { x with
              underrun := true, underrunSamples := min 4294967295 (x.underrunSamples + 1) }
            if x.underrun then t else t.fileOwner x.owner .streamUnderrun k.val item))
      ∧ (x.playing = none → x.next = .empty → s.streamSample k = (0, s.endIfDone k))))
  ∧ ∀ (s : State) p,
    let begins := ∃ e w page, (s.queue p).head? = some e ∧ e.phase = .priming ∧ s.playerOf p = some w
      ∧ (s.player w).next = .filled page
    (begins → s.soundHeads.queue p = (s.queue p).modifyHead fun e => { e with phase := .sounding })
    ∧ (¬begins → s.soundHeads.queue p = s.queue p)
    ∧ s.soundHeads.whisper = { s.whisper with queues := s.soundHeads.whisper.queues } ∧ Touches [.whisper] s s.soundHeads
    ∧ (∀ w, s.playerOf p = some w → (s.player w).assigned = some p)
    ∧ (s.playerOf p = none → ∀ w, (s.player w).assigned ≠ some p)
    ∧ (s.sounding p = true ↔ (s.queue p).head?.map Entry.phase = some EntryPhase.sounding)
    ∧ (s.sounding p = false → s.whisperFrame p = (Table.fill 32 0, s))
    ∧ ∀ w, s.playerOf p = some w →
      let x := s.player w
      let self := s.pos p
      (s.sounding p = true → s.whisperFrame p
        = (Table.ofList 32 0 (State.whisperSamples p w 32 s).1, (State.whisperSamples p w 32 s).2))
      ∧ State.whisperSamples p w 0 s = ([], s)
      ∧ (∀ n, State.whisperSamples p w (n + 1) s
        = ((s.whisperSample p w).1 :: (State.whisperSamples p w n (s.whisperSample p w).2).1,
          (State.whisperSamples p w n (s.whisperSample p w).2).2))
      ∧ (∀ y, x.playing = some y → s.whisperSample p w = (expand s.law (y.page.codes.nth y.played 0),
          s.setPlayer w { x with
            playing := if y.played + 1 < y.page.samples then some { y with played := y.played + 1 } else none }))
      ∧ (∀ page, x.playing = none → x.next = .filled page → s.whisperSample p w
        = ((s.setPlayer w { x with playing := some ⟨page, 0⟩, next := .empty }).promptRequest w).whisperSample p w)
      ∧ (x.playing = none → x.next = .awaited → s.whisperSample p w
        = (0, s.setPos p { self with stats := { self.stats with
            whisperUnderrun := min 4294967295 (self.stats.whisperUnderrun + 1) } }))
      ∧ (x.playing = none → x.next = .empty → s.whisperSample p w = (0, s))
      ∧ ∀ e rest, s.queue p = e :: rest →
        let ends := e.phase = .sounding ∧ x.playing = none ∧ x.next = .empty ∧ x.cursor = .done
        let done := (((s.setQueue p rest).setClip e.clip { s.clip e.clip with plays := (s.clip e.clip).plays - 1 }).setPlayer w
          ⟨none, x.generation, .absent, .empty, none⟩).file e.origin .promptDone p.val
            (e.clip.val + if e.kind = .announce then 256 else 0)
        (ends → e.kind = .prompt → s.completeHead p = done.assignPlayers)
        ∧ (ends → e.kind = .announce → self.state = .announce → s.completeHead p
          = (((done.setPos p { self with state := .connected, stream := none }).dropListener self.stream).fileOwner
              self.owner .announceDone p.val 0).assignPlayers)
        ∧ (ends → e.kind = .announce → self.state = .held → s.completeHead p
          = ((done.setPos p { self with announcePending := false }).fileOwner self.owner .announceDone p.val
              0).assignPlayers)
        ∧ (¬ends → s.completeHead p = s)

/-- R9, R11, R12, R48: the sync monitor, when nothing is due. At a loss the monitor is LOST and keeps the pulse out of
place, or none; every bound timeslot loses its partial frame and holds silence; SYNC_LOST is filed with detail 2 or 1. That
a pulse out of place leaves the debounce counters, and what was driven, as the last whole cycle left them, is log entry 26's
choice; that a missing pulse leaves them so, with nothing of its own bit period sampled or driven, is log entry 34's. A
pulse in place changes nothing. While LOST, a pulse 512 bit periods after the one held begins cycle 0 of a new frame in
which every bound timeslot sends silence, sets the first-frame flag of every open position and files SYNC_RESTORED, with
detail 1 at the first lock; any other pulse takes the held one's place; and a missing pulse is not looked for, so that event
changes nothing then, which is the model's choice (log entry 3). A pulse is in place when its bit number is the cycle's
first modulo 512, as the model numbers bits (log entry 8). -/
def Obligations.SyncMonitor : Prop :=
  (∀ s start cycle, s.phase = .running → s.quiet → s.highway.sync = .locked start cycle →
    let lost := fun (held : Option Nat) => { s with highway := { s.highway with
      sync := .lost held
      agent := s.highway.agent.map fun (x : Option Line) => x.map fun (l : Line) => ⟨l.position, none, Table.fill 32 s.silence⟩
      trunk := s.highway.trunk.map fun (x : Option TrunkLine) => x.map fun (l : TrunkLine) =>
        ⟨⟨l.line.position, none, Table.fill 32 s.silence⟩, []⟩ } }
    exec .syncLossMissingPulse s = .next ((lost none).fileBoth .syncLost 0 1)
    ∧ ∀ bit, (bit % 512 ≠ start % 512 → exec (.fsPulse bit) s = .next ((lost (some bit)).fileBoth .syncLost 0 2))
        ∧ (bit % 512 = start % 512 → exec (.fsPulse bit) s = .next s))
  ∧ ∀ s held, s.phase = .running → s.quiet → s.highway.sync = .lost held →
    exec .syncLossMissingPulse s = .next s
    ∧ ∀ bit,
      (held.map (· + 512) ≠ some bit →
        exec (.fsPulse bit) s = .next { s with highway := { s.highway with sync := .lost (some bit) } })
      ∧ (held.map (· + 512) = some bit → ∃ t, exec (.fsPulse bit) s
            = .next (t.fileBoth .syncRestored 0 (if s.highway.lockedBefore then 0 else 1))
          ∧ Touches [.highway, .suppress] s t ∧ t.suppress.profiles = s.suppress.profiles
          ∧ t.highway = { s.highway with
              sync := .locked bit 0, firstFrame := true, lockedBefore := true
              agent := s.highway.agent.map fun (x : Option Line) => x.map fun (l : Line) => ⟨l.position, some [], Table.fill 32 s.silence⟩
              trunk := s.highway.trunk.map fun (x : Option TrunkLine) => x.map fun (l : TrunkLine) =>
                ⟨⟨l.line.position, some [], Table.fill 32 s.silence⟩, []⟩ }
          ∧ ∀ p, t.suppressor p = (if (s.pos p).state = .closed then s.suppressor p
              else { s.suppressor p with firstFrame := true }))

/-! ## Gains and companding -/

/-- R1. -/
def Obligations.GainRule : Prop :=
  (∀ g, clampGain g ≤ 32768 ∧ (g ≤ 32768 → clampGain g = g) ∧ (32768 < g → clampGain g = 32768))
  ∧ (∀ g : Nat, ∀ x : Int, applyGain g x = (x * g + 16384) / 32768)
  ∧ (∀ x : Int, applyGain 32768 x = x)
  ∧ ∀ g : Nat, ∀ x : Int, g ≤ 32768 → -32768 ≤ x → x ≤ 32767 → -32768 ≤ applyGain g x ∧ applyGain g x ≤ 32767

/-- R14 and R15: μ-law compression of every 16-bit sample, and expansion of every code. -/
def Obligations.MuLaw : Prop :=
  (∀ x : Int, -32768 ≤ x → x ≤ 32767 →
    ∃ sign magnitude exponent mantissa : Nat,
      sign = (if x < 0 then 1 else 0) ∧ magnitude = min x.natAbs 32635 + 132
      ∧ 132 ≤ magnitude ∧ magnitude ≤ 32767
      ∧ 2 ^ (exponent + 7) ≤ magnitude ∧ magnitude < 2 ^ (exponent + 8) ∧ exponent ≤ 7
      ∧ mantissa = magnitude / 2 ^ (exponent + 3) % 16
      ∧ compress .mu x = ~~~ (BitVec.ofNat 8 (sign * 128 + exponent * 16 + mantissa)))
  ∧ (∀ x : Int, 32635 ≤ x → x ≤ 32767 → compress .mu x = 0x80)
  ∧ (∀ x : Int, -32768 ≤ x → x ≤ -32635 → compress .mu x = 0x00)
  ∧ ∀ code : Byte,
      let c := ~~~ code
      let value : Int := ((c.extractLsb' 0 4).toNat * 8 + 132) * 2 ^ (c.extractLsb' 4 3).toNat - 132
      expand .mu code = (if c.getLsbD 7 then -value else value)
      ∧ -32124 ≤ expand .mu code ∧ expand .mu code ≤ 32124

/-- R16 and R17: A-law compression of every 16-bit sample, and expansion of every code. -/
def Obligations.ALaw : Prop :=
  (∀ x : Int, -32768 ≤ x → x ≤ 32767 →
    ∃ p segment value : Nat,
      (p : Int) = (if x / 8 < 0 then -(x / 8) - 1 else x / 8) ∧ p ≤ 4095
      ∧ segment ≤ 7 ∧ p ≤ 32 * 2 ^ segment - 1 ∧ (∀ k < segment, 32 * 2 ^ k - 1 < p)
      ∧ value = segment * 16 + (if segment ≤ 1 then p / 2 % 16 else p / 2 ^ segment % 16)
      ∧ compress .a x = BitVec.ofNat 8 value ^^^ (if x / 8 < 0 then 0x55 else 0xD5))
  ∧ ∀ code : Byte,
      let a := code ^^^ 0x55
      let t := (a.extractLsb' 0 4).toNat * 16
      let segment := (a.extractLsb' 4 3).toNat
      let value : Int := if segment = 0 then t + 8 else (t + 264) * 2 ^ (segment - 1)
      expand .a code = (if a.getLsbD 7 then value else -value)
      ∧ -32256 ≤ expand .a code ∧ expand .a code ≤ 32256 ∧ expand .a code ≠ 0

/-! ## Noise suppressor -/

/-- R51: the floor after stage 4, the class of the frame having been formed against the floor from before it. -/
def Obligations.SuppressorFloor : Prop :=
  ∀ (x : Suppressor) (profile : Profile) (energy : Nat) (m : Frame),
    let y := x.stages profile energy m
    y.floor = max profile.nmin (min energy (x.floor + x.floor / 256 + 1))
    ∧ (y.speech = true ↔ profile.threshold ≤ min 15 (bitlen energy - bitlen x.floor))
    ∧ (energy ≤ x.floor → y.floor = max profile.nmin energy)
    ∧ (y.floor ≤ x.floor + x.floor / 256 + 1 ∨ y.floor = profile.nmin)
    ∧ (profile.nmin ≤ 2 ^ 35 → energy ≤ 2 ^ 35 → profile.nmin ≤ y.floor ∧ y.floor ≤ 2 ^ 35)

/-- R53: the ramp of the gain across a frame, the output samples, and the previous gain for the next frame. -/
def Obligations.SuppressorRamp : Prop :=
  (∀ previous next i : Nat, rampGain previous next i = (previous : Int) + ((next : Int) - previous) * (i + 1) / 32)
  ∧ (∀ previous next : Nat, rampGain previous next 31 = next)
  ∧ (∀ previous next i : Nat, i < 32 →
      min (previous : Int) next ≤ rampGain previous next i ∧ rampGain previous next i ≤ max (previous : Int) next)
  ∧ (∀ gain i : Nat, rampGain gain gain i = gain)
  ∧ (∀ previous next i : Nat, ∀ m : Int, rampSample previous next i m = (m * rampGain previous next i + 16384) / 32768)
  ∧ (∀ previous next i : Nat, ∀ m : Int, i < 32 → previous ≤ 32768 → next ≤ 32768 → -32768 ≤ m → m ≤ 32767 →
      -32768 ≤ rampSample previous next i m ∧ rampSample previous next i m ≤ 32767)
  ∧ ∀ (x : Suppressor) (profile : Profile) (energy : Nat) (m : Frame),
      let y := x.stages profile energy m
      y.gain = profile.gains.nth (nextIndex (speechClass energy x.floor) x.index) 0
      ∧ ∀ i : Fin 32, y.send.cell i = rampSample x.gain y.gain i.val (m.cell i)

/-- R2, R49, R50, R52: one processed frame. The energy is exact; the class is the excess of bit lengths; the index rises at
once and falls by one; and a position's first frame is never SPEECH and passes at the profile's first gain. -/
def Obligations.SuppressorFrame : Prop :=
  ∀ (x : Suppressor) (profile : Profile) (m : Frame),
    let energy := frameEnergy m
    let r := min 15 (bitlen energy - bitlen x.floor)
    let y := x.run profile m
    (energy : Int) = (m.toList.map fun v => v * v).sum
    ∧ (bitlen 0 = 0 ∧ ∀ n, 0 < n → 2 ^ (bitlen n - 1) ≤ n ∧ n < 2 ^ bitlen n)
    ∧ ((∀ i, -32768 ≤ m.cell i ∧ m.cell i ≤ 32767) → energy ≤ 2 ^ 35)
    ∧ y.firstFrame = false ∧ y.wasConnected = x.wasConnected
    ∧ (x.firstFrame = false →
        (y.speech = true ↔ profile.threshold ≤ r)
        ∧ y.index = (if x.index ≤ r then r else x.index - 1)
        ∧ y.floor = max profile.nmin (min energy (x.floor + x.floor / 256 + 1))
        ∧ y.gain = profile.gains.nth y.index 0
        ∧ ∀ i : Fin 32, y.send.cell i = rampSample x.gain y.gain i.val (m.cell i))
    ∧ (x.firstFrame = true → 1 ≤ profile.threshold →
        y.speech = false ∧ y.index = 0 ∧ y.floor = max energy profile.nmin ∧ y.gain = profile.gains.cell 0
        ∧ ∀ i : Fin 32, y.send.cell i = applyGain (profile.gains.cell 0) (m.cell i))

/-- R47, R54, R55: what the suppressor leaves for a position at a frame completion. R4, R5, R19: the microphone frame is the
expansion of the 32 codes that the position's agent timeslot received, and there is none when the slot assembled no whole
frame; the headset bits are that slot's debounced values. -/
def Obligations.SuppressorDecision : Prop :=
  ∀ (s : State) (p : Fin 64),
    let x := s.suppressor p
    let mark := decide ((s.pos p).state = .connected)
    (∀ m, s.microphone p = some m ↔ ∃ a l codes, (s.pos p).agentSlot = some a ∧ s.highway.agent.cell a = some l
      ∧ l.received = some codes ∧ codes.length = 32 ∧ m = Table.ofList 32 0 (codes.map (expand s.law)))
    ∧ (s.headsetPresent p = true ↔ ∃ a, (s.pos p).agentSlot = some a ∧ (s.debounced a).present = true)
    ∧ (s.headsetMuted p = true ↔ ∃ a, (s.pos p).agentSlot = some a ∧ (s.debounced a).mute = true)
    ∧ ((s.pos p).state = .closed → s.suppress1 p = x)
    ∧ ((s.pos p).state ≠ .closed →
        ((s.microphone p = none ∨ s.headsetPresent p = false) →
          s.suppress1 p = { x with send := Table.fill 32 0, speech := false, wasConnected := mark })
        ∧ ∀ m, s.microphone p = some m → s.headsetPresent p = true →
          let y := x.run (s.profile (s.pos p).profile) m
          (s.headsetMuted p = false → s.suppress1 p = { y with wasConnected := mark })
          ∧ (s.headsetMuted p = true →
              s.suppress1 p = { y with send := Table.fill 32 0, speech := false, wasConnected := mark }))

/-! ## Echo canceller -/

/-- R69 to R74, R78, R79: one sample, d received and x sent, for a position with taps. The history, the power and the
window maximum follow x; the error is d less the estimate; the double-talk test sets the hangover; and every tap is
updated from its own value when adaptation is allowed for the frame and the hangover is 0, and none otherwise. -/
def Obligations.EchoSample : Prop :=
  ∀ (rec : Position) (allowed : Bool) (r : EchoRun) (d x : Int),
    r.history.length = 512 → 1 ≤ r.taps.length → r.taps.length ≤ 512 →
    let L := r.taps.length
    let after := r.sample rec allowed (d, x)
    let bypass := rec.mode = .bypass
    let y := if bypass then 0 else saturate (((List.zipWith (· * ·) r.taps after.history).sum + 2 ^ 14) / 2 ^ 15)
    let e := saturate (d - y)
    let t := bitlen (after.power + 2 ^ rec.reg) + rec.step - 15
    after.history = x :: r.history.take 511
    ∧ after.power = r.power + x.natAbs ^ 2 - (r.history.getD (L - 1) 0).natAbs ^ 2
    ∧ (∀ k < L, (after.history.getD k 0).natAbs ≤ after.window)
    ∧ (∃ k < L, after.window = (after.history.getD k 0).natAbs)
    ∧ after.errors = r.errors ++ [e]
    ∧ after.hangover = (if ¬bypass ∧ after.window / 2 < d.natAbs then rec.hang else r.hangover)
    ∧ (¬(allowed = true ∧ after.hangover = 0) → after.taps = r.taps)
    ∧ (allowed = true → after.hangover = 0 → after.taps.length = L ∧ (16 ≤ rec.reg → ∀ k < L,
        after.taps.getD k 0
          = saturate (r.taps.getD k 0 + (e * after.history.getD k 0 + 2 ^ (t - 1)) / 2 ^ t)))

/-- R66, R69: the running power stays the exact energy of the L newest samples. -/
def Obligations.EchoPowerIsExact : Prop :=
  ∀ (rec : Position) (allowed : Bool) (r : EchoRun) (dx : Int × Int),
    r.history.length = 512 → 1 ≤ r.taps.length → r.taps.length ≤ 512 →
    r.power = ((r.history.take r.taps.length).map fun v => v.natAbs ^ 2).sum →
    let after := r.sample rec allowed dx
    after.history.length = 512 ∧ after.taps.length = r.taps.length
    ∧ after.power = ((after.history.take after.taps.length).map fun v => v.natAbs ^ 2).sum

/-- R67, R68, R73, R75 to R77, R79: the canceller at a frame completion for one position. Outside a call nothing happens. In
a call adaptation is allowed only in ADAPT, CONNECTED, with the sent frame SPEECH; the double-talk frame is counted and the
hangover counted down; the divergence counter, the guard and its EC_RESET, and the NLP act as given. In BYPASS the frame
passes unchanged and the taps hold. The history, power and window of the run are kept. R55, R67: the frames it takes, and
when the sent frame counts as SPEECH: as R55 has it, where R82 and R81 would say otherwise (log entry 31's choice); the
counters it starts from are those the last frame left (log entries 32 and 33). R63: the taps are the coefficients of its
segments. The positions are taken one after another, in ascending order (log entry 9). -/
def Obligations.EchoFrames : Prop :=
  (∀ s : State, ∃ u : Nat → State, u 0 = s ∧ s.echoFrames.2 = u 64 ∧ ∀ p : Fin 64,
    u (p.val + 1) = ((u p.val).echo1 p).2 ∧ s.echoFrames.1.cell p = ((u p.val).echo1 p).1)
  ∧ ∀ (s : State) (p : Fin 64),
    let self := s.pos p
    let f := s.echoFrame p
    let d := (s.echoInput p).1
    let x := (s.echoInput p).2
    let Ed := frameEnergy d
    let Ee := (f.run.errors.map fun e => e.natAbs * e.natAbs).sum
    let connected := self.state = .connected
    let active := connected ∧ self.mode ≠ .bypass
    let diverges := active ∧ 4 * Ed < Ee ∧ 2 ^ 16 ≤ Ed
    let acts := active ∧ self.nlp = true ∧ s.sentSpeech p = true ∧ f.run.hangover = 0
      ∧ Ee < frameEnergy x / 2 ^ self.shift
    let fires := diverges ∧ (s.canceller p).divergence = 3
    (s.sentSpeech p = true ↔ (s.suppressor p).speech = true ∧ (s.suppressor p).wasConnected = true
      ∧ s.highway.firstFrame = false)
    ∧ (∀ u l, self.trunkSlot = some u → s.highway.trunk.cell u = some l →
        (∀ codes, l.line.received = some codes → codes.length = 32 →
          d = Table.ofList 32 0 (codes.map (expand s.law)) ∧ x = Table.ofList 32 0 (l.sent.map (expand s.law)))
        ∧ (l.line.received = none → d = Table.fill 32 0 ∧ x = Table.fill 32 0))
    ∧ s.taps p = (s.segments p).flatMap (fun g => (s.echo.coefficients.cell g).toList)
    ∧ (self.state.inCall = false → s.echo1 p = (Table.fill 32 0, s))
    ∧ f.run = (List.zip d.toList x.toList).foldl
        (EchoRun.sample self (decide (self.mode = .adapt ∧ connected ∧ s.sentSpeech p = true)))
        ⟨(s.canceller p).history.toList, (s.canceller p).power, (s.canceller p).window,
          if self.mode = .bypass then 0 else (s.canceller p).hangover, s.taps p, []⟩
    ∧ (self.state.inCall = true → (s.canceller p).divergence ≤ 3 →
        let t := (s.echo1 p).2
        (acts → (s.echo1 p).1 = Table.fill 32 0)
        ∧ (¬acts → (s.echo1 p).1 = Table.ofList 32 0 f.run.errors)
        ∧ (t.canceller p).history = Table.ofList 512 0 f.run.history ∧ (t.canceller p).power = f.run.power
        ∧ (t.canceller p).window = f.run.window ∧ (t.canceller p).segments = s.segments p
        ∧ (t.canceller p).hangover = f.run.hangover - 1
        ∧ (t.canceller p).divergence
            = (if diverges ∧ ¬fires then (s.canceller p).divergence + 1 else 0)
        ∧ t.pos p = { self with stats := { self.stats with
            doubleTalk := if connected ∧ 0 < f.run.hangover then min 4294967295 (self.stats.doubleTalk + 1)
              else self.stats.doubleTalk
            nlpFrames := if acts then min 4294967295 (self.stats.nlpFrames + 1) else self.stats.nlpFrames
            echoResets := if fires then min 65535 (self.stats.echoResets + 1) else self.stats.echoResets } }
        ∧ (fires → t.events = (s.fileOwner self.owner .ecReset p.val (min 65535 (self.stats.echoResets + 1))).events)
        ∧ (¬fires → t.events = s.events)
        ∧ (∀ q, q ≠ p → t.pos q = s.pos q ∧ t.canceller q = s.canceller q)
        ∧ (∀ g, g ∉ s.segments p → t.echo.coefficients.cell g = s.echo.coefficients.cell g)
        ∧ ((s.segments p).Nodup → (s.segments p).length ≤ 4 → t.taps p = (if fires then f.run.taps.map fun _ => 0 else f.run.taps)))
    ∧ (self.state.inCall = true → self.mode = .bypass →
        (s.echo1 p).1 = d ∧ (s.echo1 p).2.echo.coefficients = s.echo.coefficients
        ∧ (s.echo1 p).2.pos p = self ∧ ((s.echo1 p).2.canceller p).hangover = 0
        ∧ ((s.echo1 p).2.canceller p).divergence = 0)

/-! ## Mixer -/

/-- R2, R6, R87, R89 to R95: the trunk-send frame, the contributions to an ear sample, the coach-duck hangover, and what the
mixer puts into transmit buffers and counts. The tap through which a position listens, and the COACH tap on it, are those the
table holds (R94 to R96). -/
def Obligations.EarAndTrunkFrames : Prop :=
  ∀ (s : State) (m : MixInputs) (p : Fin 64),
    let self := s.pos p
    let connected := self.state = .connected
    let sounding := (s.queue p).head?.map Entry.phase = some EntryPhase.sounding
    let lowest := fun (holds : Tap → Prop) (x : Tap) =>
      ∃ u, s.tap u = some x ∧ holds x ∧ ∀ v, v < u → ∀ y, s.tap v = some y → ¬holds y
    (∀ x, s.listenerTap p = some x ↔ lowest (fun y => y.listener = p) x)
    ∧ (s.listenerTap p = none ↔ ∀ u x, s.tap u = some x → x.listener ≠ p)
    ∧ (∀ x, s.coachTap p = some x ↔ lowest (fun y => y.target = p ∧ y.kind = .coach) x)
    ∧ (s.coachTap p = none ↔ ∀ u x, s.tap u = some x → ¬(x.target = p ∧ x.kind = .coach))
    ∧ (∀ x, saturate x = max (-32768) (min 32767 x))
    ∧ (s.trunkSend m p = (match self.state, self.stream with
      | .connected, _ => (s.suppressor p).send
      | .announce, some k => m.streams.cell k
      | .held, some k => m.streams.cell k
      | _, _ => Table.fill 32 0))
    ∧ (∀ i, s.earSum m p i = s.callerPart m p i + s.whisperPart m p i + s.coachPart p i + s.monitorPart m p i
        ∧ s.callerPart m p i = (if connected then applyGain
            (if sounding ∨ 0 < s.coachDuck p then self.duck else 32768) ((m.clean.cell p).cell i) else 0)
        ∧ (∀ e, (s.queue p).head? = some e → s.whisperPart m p i
            = if sounding then applyGain e.gain ((m.whisper.cell p).cell i) else 0)
        ∧ ((s.queue p) = [] → s.whisperPart m p i = 0)
        ∧ (∀ x, s.coachTap p = some x → s.coachPart p i
            = if connected then applyGain x.gain ((s.suppressor x.listener).send.cell i) else 0)
        ∧ (s.coachTap p = none → s.coachPart p i = 0)
        ∧ (∀ x, s.listenerTap p = some x → s.monitorPart m p i
            = if (s.pos x.target).state = .connected then
                ((m.clean.cell x.target).cell i + 1) / 2 + ((s.trunkSend m x.target).cell i + 1) / 2 else 0)
        ∧ (s.listenerTap p = none → s.monitorPart m p i = 0))
    ∧ (self.state ≠ .closed → s.coachDuckAfter p
        = if (s.coachTap p).any (fun x => (s.suppressor x.listener).speech) then 8 else s.coachDuck p - 1)
    ∧ (self.state = .closed → s.coachDuckAfter p = s.coachDuck p)
    ∧ (∀ a, (s.mix m).highway.agent.cell a = (s.highway.agent.cell a).map fun l =>
        { l with transmit := Table.build fun i => compress s.law (saturate (s.earSum m l.position i)) })
    ∧ (∀ u, (s.mix m).highway.trunk.cell u = (s.highway.trunk.cell u).map fun l =>
        { l with line := { l.line with
          transmit := Table.build fun i => compress s.law (saturate ((s.trunkSend m l.line.position).cell i)) } })
    ∧ (s.mix m).pos p = (if self.state = .closed then self else { self with stats := { self.stats with
        clipped := min 4294967295 (self.stats.clipped + ((List.finRange 32).filter fun i =>
          s.earSum m p i < -32768 ∨ 32767 < s.earSum m p i).length) } })

/-! ## Position requests -/

/-- R21, R24, R46, R64, R66, R93: OPEN POSITION accepted. -/
def Obligations.OpenPosition : Prop :=
  ∀ s port position slot tail profile p a, s.takes port → number? 64 position = some p → number? 64 slot = some a →
    1 ≤ tail.toNat → tail.toNat ≤ 4 → (s.pos p).state = .closed → s.highway.agent.cell a = none →
    tail.toNat ≤ s.echo.free.length →
    let taken := s.echo.free.take tail.toNat
    let named : Fin 4 := ⟨profile.toNat % 4, Nat.mod_lt _ (by decide)⟩
    exec (.openPosition port position slot tail profile) s = .next (({ s with
      positions := s.positions.put p ⟨.idle, some port, some a, none, none, false, false, 8192, named, tail.toNat,
        .adapt, 3, 20, 8, true, 5, ⟨0, 0, 0, 0, 0⟩⟩
      highway := { s.highway with agent := s.highway.agent.put a (some ⟨p, none, Table.fill 32 s.silence⟩) }
      echo := {
        coefficients := Table.build fun g => if g ∈ taken then Table.fill 128 0 else s.echo.coefficients.cell g
        free := s.echo.free.drop tail.toNat
        positions := s.echo.positions.put p ⟨taken, Table.fill 512 0, 0, 0, 0, 0⟩ }
      suppress := ⟨s.suppress.positions.put p
        ⟨(s.profile named).nmin, 0, (s.profile named).gains.cell 0, true, Table.fill 32 0, false, false⟩,
        s.suppress.profiles⟩
      mixer := { s.mixer with coachDuck := s.mixer.coachDuck.put p 0 } } : State).replied port
        Code.openPosition .ok [])

/-- R25, R42, R46, R65, R66, R93, R101: CLOSE POSITION accepted. The queue is flushed, every tap that names the position
goes, its segments return to the pool, its agent slot is unbound, and its record and what the blocks keep for it take
their closed values; no other position is changed. The records filed, in order, are PROMPT_FLUSHED for each entry,
TAP_DROPPED for each tap by ascending number, and HANDOVER_OFFER "withdrawn" for an offer outstanding (R25, R38); then
players are assigned (log entry 11). `u` is the part before that assignment: every other queue, player, stream, hangover and
timeslot, and what the highway interface keeps beside its bindings, is as it was. -/
def Obligations.ClosePosition : Prop :=
  ∀ s port position p, s.takes port → s.arbiter.pendingOps.cell port = none → number? 64 position = some p →
    (s.pos p).state = .idle → (s.pos p).owner = some port →
    ∃ t, exec (.closePosition port position) s = .next t
      ∧ t.pos p = ⟨.closed, none, none, none, none, false, false, 8192, 2, 2, .adapt, 3, 20, 8, true, 5,
          ⟨0, 0, 0, 0, 0⟩⟩
      ∧ (∀ q, q ≠ p → t.pos q = s.pos q) ∧ t.queue p = []
      ∧ (∀ u, t.tap u = (s.tap u).filter fun x => x.listener ≠ p ∧ x.target ≠ p)
      ∧ (∀ g, g ∈ t.echo.free ↔ g ∈ s.echo.free ∨ g ∈ s.segments p)
      ∧ t.echo.coefficients = s.echo.coefficients
      ∧ t.echo.positions = s.echo.positions.put p ⟨[], Table.fill 512 0, 0, 0, 0, 0⟩
      ∧ (∀ a, t.highway.agent.cell a = if (s.pos p).agentSlot = some a then none else s.highway.agent.cell a)
      ∧ t.highway = { s.highway with agent := t.highway.agent }
      ∧ t.suppress = { s.suppress with positions := s.suppress.positions.put p (
          ⟨(s.profile 2).nmin, 0, (s.profile 2).gains.cell 0, true, Table.fill 32 0, false, false⟩ : Suppressor) }
      ∧ t.mixer.coachDuck = s.mixer.coachDuck.put p 0
      ∧ t.port port = { s.port port with ready := true, inFlight := none, lastReply := some ⟨.ok, Code.closePosition, []⟩ }
      ∧ ∃ u : State, t = u.assignPlayers.answer port .ok []
        ∧ Touches [.positions, .highway, .suppress, .echo, .mixer, .clipStore, .arbiter, .whisper, .ports, .events] s u
        ∧ FlushLeaves s u p (s.queue p) []
        ∧ u.ports = s.ports.put port { s.port port with
            ready := false, inFlight := some Code.closePosition, lastReply := none }
        ∧ u.events = (s.filed (flushFilings p 2 (s.queue p) ++ tapFilings p (s.tapsNaming p)
            ++ if (s.pos p).offer then [(some port.other, .handoverOffer, p.val, 1)] else [])).events
        ∧ (s.arbiter.bus ≠ none → t.events = u.events)

/-- R26, R27, R33, R159: CONNECT accepted, without and with a prompt. The trunk slot is bound, the canceller cleared,
taps through which the position listens removed, and the suppressor's first-frame flag set; with a prompt the position
announces, an ANNOUNCE entry takes its place, and a named stream gains a listener. R101, R107, R115, R163: TAP_DROPPED "listener
connected" goes to the owner of each tap removed; the prompt clip is played once more, and under PLAY_NOTE marked accessed,
with CLIP_PLAYED to its owner; and then players are assigned. R93: the coach-duck hangovers are as they were. Without a prompt
nothing else changes; with one, `u` is the part before players are assigned. -/
def Obligations.Connect : Prop :=
  ∀ s port position trunk p u, s.takes port → number? 64 position = some p → number? 64 trunk = some u →
    (s.pos p).state = .idle → (s.pos p).owner = some port → s.highway.trunk.cell u = none →
    let entriesOf := fun (t : State) (q : Fin 64) => (t.queue q).map fun (x : Entry) => { x with phase := .waiting }
    let cleared := fun (t : State) =>
      t.highway = { s.highway with trunk := s.highway.trunk.put u (some ⟨⟨p, none, Table.fill 32 s.silence⟩, []⟩) }
      ∧ t.echo = { s.echo with
          coefficients := Table.build fun g =>
            if g ∈ s.segments p then Table.fill 128 0 else s.echo.coefficients.cell g
          positions := s.echo.positions.put p ⟨s.segments p, Table.fill 512 0, 0, 0, 0, 0⟩ }
      ∧ (∀ v, t.tap v = (s.tap v).filter fun x => x.listener ≠ p) ∧ t.mixer.coachDuck = s.mixer.coachDuck
      ∧ t.suppress = { s.suppress with
          positions := s.suppress.positions.put p { s.suppressor p with firstFrame := true } }
    let drops : List Filing := (s.tapsInUse.filter fun x => x.2.listener = p).map fun x =>
      (some x.2.owner, .tapDropped, p.val, x.1.val + if x.2.kind = .coach then 16 else 0)
    (∃ t, exec (.connect port position trunk none none) s = .next t ∧ cleared t
      ∧ t.positions = s.positions.put p { s.pos p with state := .connected, trunkSlot := some u, stream := none }
      ∧ t.events = (s.filed drops).events
      ∧ Touches [.positions, .highway, .suppress, .echo, .mixer, .events, .ports] s t
      ∧ t.port port.other = s.port port.other
      ∧ t.port port = { s.port port with ready := true, inFlight := none, lastReply := some ⟨.ok, Code.connect, []⟩ })
    ∧ ∀ clip gain stream k, (stream = none ∧ k = none ∨ ∃ b i, stream = some b ∧ number? 16 b = some i ∧ k = some i) →
        s.namedStopped k = false → (s.queue p).length < 4 → s.arbiter.pendingOps.cell port = none →
        ((s.clip (clipNumber clip)).check port .play none).found = false →
        (s.clip (clipNumber clip)).writeBusy = 0 →
        let e : Entry := ⟨clipNumber clip, min gain.toNat 32768, port, .announce, s.whisper.arrival, .waiting⟩
        ∃ t, exec (.connect port position trunk (some ⟨clip, gain⟩) stream) s = .next t ∧ cleared t
          ∧ t.positions = s.positions.put p { s.pos p with state := .announce, trunkSlot := some u, stream := k }
          ∧ t.whisper.arrival = s.whisper.arrival + 1
          ∧ entriesOf t p = (placeAnnounce e (s.queue p)).map (fun (x : Entry) => { x with phase := .waiting })
          ∧ (s.queue p = [] → placeAnnounce e (s.queue p) = [e])
          ∧ (∀ h rest, s.queue p = h :: rest →
              placeAnnounce e (s.queue p) = if h.phase = .waiting then e :: h :: rest else h :: e :: rest)
          ∧ (∀ i, (t.stream i).listeners = (s.stream i).listeners + if k = some i then 1 else 0)
          ∧ t.port port = { s.port port with
              ready := true, inFlight := none, lastReply := some ⟨.ok, Code.connect, []⟩ }
          ∧ let c := clipNumber clip
            let noted := (s.clip c).keys.cell port = .playNote
            ∃ u : State, t = u.assignPlayers.answer port .ok []
              ∧ Touches [.positions, .highway, .suppress, .echo, .mixer, .streams, .whisper, .clipStore, .ports, .events] s u
              ∧ (u.assignPlayers.freePlayer = none ∨ u.assignPlayers.oldestHead = none)
              ∧ u.queue p = placeAnnounce e (s.queue p) ∧ (∀ q, q ≠ p → u.queue q = s.queue q)
              ∧ u.whisper.players = s.whisper.players ∧ u.whisper.arrival = s.whisper.arrival + 1
              ∧ u.streams = (s.addListener k).streams
              ∧ u.clip c = { s.clip c with
                  plays := (s.clip c).plays + 1, accessed := (s.clip c).accessed || decide noted }
              ∧ (∀ d, d ≠ c → u.clip d = s.clip d) ∧ u.clipStore.faults = s.clipStore.faults
              ∧ u.ports = s.ports.put port { s.port port with
                  ready := false, inFlight := some Code.connect, lastReply := none }
              ∧ u.events = (s.filed (drops
                  ++ if noted then [((s.clip c).owner, .clipPlayed, c.val, Port.number port + 256)] else [])).events
              ∧ (s.arbiter.bus ≠ none → t.events = u.events)

/-- R28, R29, R33: HOLD and RETRIEVE accepted, with the listener counts of the streams they leave and name. That a
RETRIEVE keeps the canceller's divergence counter, also when no frame was completed in HELD, is log entry 32's choice. -/
def Obligations.HoldAndRetrieve : Prop :=
  (∀ (s : State) k, s.addListener none = s ∧ s.dropListener none = s
    ∧ s.addListener (some k) = s.setStream k { s.stream k with listeners := (s.stream k).listeners + 1 }
    ∧ s.dropListener (some k) = s.setStream k { s.stream k with listeners := (s.stream k).listeners - 1 })
  ∧ ∀ s port position p, s.takes port → number? 64 position = some p → (s.pos p).owner = some port →
    (∀ stream k, (stream = none ∧ k = none ∨ ∃ b i, stream = some b ∧ number? 16 b = some i ∧ k = some i) →
      ((s.pos p).state = .connected ∨ (s.pos p).state = .announce) → s.namedStopped k = false →
      exec (.hold port position stream) s
        = .next ((((s.setPos p { s.pos p with
            state := .held, stream := k, announcePending := decide ((s.pos p).state = .announce) }).dropListener
              (s.pos p).stream).addListener k).replied port Code.hold .ok []))
    ∧ ((s.pos p).state = .held → (s.pos p).announcePending = true →
      exec (.retrieve port position) s
        = .next ((s.setPos p { s.pos p with state := .announce, announcePending := false }).replied port
            Code.retrieve .ok []))
    ∧ ((s.pos p).state = .held → (s.pos p).announcePending = false →
      exec (.retrieve port position) s
        = .next (((s.setPos p { s.pos p with state := .connected, stream := none }).dropListener
            (s.pos p).stream).replied port Code.retrieve .ok []))

/-- R30, R33: RELEASE accepted. The queue is flushed, the stream loses its listener, the trunk slot is unbound and the
position is IDLE; the canceller, the taps and every other position are as they were. The records filed, in order, are
PROMPT_FLUSHED for each entry and ANNOUNCE_DONE "cancelled" when one of them was the announcement; then players are assigned
(log entry 11). `u` is the part before that assignment: every other queue, player, stream and timeslot, and what the highway
interface keeps beside its bindings, is as it was. -/
def Obligations.Release : Prop :=
  ∀ s port position p, s.takes port → s.arbiter.pendingOps.cell port = none → number? 64 position = some p →
    (s.pos p).state.inCall = true → (s.pos p).owner = some port →
    ∃ t, exec (.release port position) s = .next t
      ∧ t.positions = s.positions.put p { s.pos p with
          state := .idle, stream := none, announcePending := false, trunkSlot := none }
      ∧ t.queue p = []
      ∧ (∀ k, (t.stream k).listeners
          = if (s.pos p).stream = some k then (s.stream k).listeners - 1 else (s.stream k).listeners)
      ∧ (∀ u, t.highway.trunk.cell u = if (s.pos p).trunkSlot = some u then none else s.highway.trunk.cell u)
      ∧ t.highway = { s.highway with trunk := t.highway.trunk } ∧ t.echo = s.echo ∧ t.suppress = s.suppress ∧ t.mixer = s.mixer
      ∧ t.port port = { s.port port with ready := true, inFlight := none, lastReply := some ⟨.ok, Code.release, []⟩ }
      ∧ ∃ u : State, t = u.assignPlayers.answer port .ok []
        ∧ Touches [.positions, .highway, .clipStore, .arbiter, .streams, .whisper, .ports, .events] s u
        ∧ FlushLeaves s u p (s.queue p) []
        ∧ u.streams = (s.dropListener (s.pos p).stream).streams
        ∧ u.ports = s.ports.put port { s.port port with
            ready := false, inFlight := some Code.release, lastReply := none }
        ∧ u.events = (s.filed (flushFilings p 1 (s.queue p)
            ++ if (s.queue p).any (fun e => e.kind = .announce) then [(some port, .announceDone, p.val, 1)] else [])).events
        ∧ (s.arbiter.bus ≠ none → t.events = u.events)

/-- R34, R59: SET POSITION accepted. Each present parameter replaces the one in the record after its adjustment, a newly
named profile raises the floor to its Nmin, and the reply carries the values as stored (their order in the reply is log
entry 17's). That a change of mode keeps the canceller's counters, also when a BYPASS in which no frame was completed ends,
is log entry 33's choice. -/
def Obligations.SetPosition : Prop :=
  ∀ s port position p (a : ParamsArg) mode, s.takes port → number? 64 position = some p →
    (s.pos p).state ≠ .closed → (s.pos p).owner = some port →
    (a.mode = none ∧ mode = (s.pos p).mode ∨ ∃ b, a.mode = some b ∧ ecMode? b = some mode) →
    let old := s.pos p
    let x : Position := { old with
      duck := (a.duck.map fun g => min g.toNat 32768).getD old.duck
      profile := (a.profile.map profileNumber).getD old.profile
      mode := mode
      step := (a.step.map fun b => min b.toNat 7).getD old.step
      reg := (a.reg.map fun b => max 16 (min b.toNat 30)).getD old.reg
      hang := (a.hang.map fun b => min b.toNat 15).getD old.hang
      nlp := a.nlp.getD old.nlp
      shift := (a.shift.map fun b => min b.toNat 15).getD old.shift }
    let y := if a.profile.isSome then { s.suppressor p with floor := max (s.suppressor p).floor (s.profile x.profile).nmin }
      else s.suppressor p
    exec (.setPosition port position a) s
      = .next (((s.setPos p x).setSuppressor p y).replied port Code.setPosition .ok
          ((halfOf x.duck).bytes ++ [countByte x.profile.val, ecModeByte x.mode, countByte x.step, countByte x.reg,
            countByte x.hang, flagByte x.nlp, countByte x.shift]))

/-- R35, R64, R65: SET TAIL accepted: a larger tail takes the lowest-numbered free segments, cleared, a smaller one
returns the last segments, an equal one changes nothing. -/
def Obligations.SetTail : Prop :=
  ∀ s port position tail p, s.takes port → number? 64 position = some p → 1 ≤ tail.toNat → tail.toNat ≤ 4 →
    (s.pos p).state = .idle → (s.pos p).owner = some port → tail.toNat - (s.pos p).tail ≤ s.echo.free.length →
    let old := (s.pos p).tail
    let taken := s.echo.free.take (tail.toNat - old)
    ∃ echo, exec (.setTail port position tail) s
        = .next (({ s with positions := s.positions.put p { s.pos p with tail := tail.toNat }, echo := echo } : State).replied
            port Code.setTail .ok [])
      ∧ (tail.toNat = old → echo = s.echo)
      ∧ (old < tail.toNat → echo = {
          coefficients := Table.build fun g => if g ∈ taken then Table.fill 128 0 else s.echo.coefficients.cell g
          free := s.echo.free.drop (tail.toNat - old)
          positions := s.echo.positions.put p { s.canceller p with segments := s.segments p ++ taken } })
      ∧ (tail.toNat < old → echo.coefficients = s.echo.coefficients
          ∧ echo.positions = s.echo.positions.put p
              { s.canceller p with segments := (s.segments p).take tail.toNat }
          ∧ (∀ g, g ∈ echo.free ↔ g ∈ s.echo.free ∨ g ∈ (s.segments p).drop tail.toNat)
          ∧ echo.free.Pairwise (· < ·))

/-- R37 to R39: an offer made, withdrawn, and accepted, with the events for the other port. -/
def Obligations.OffersAndAcceptance : Prop :=
  ∀ s port position p, s.takes port → number? 64 position = some p → (s.pos p).state ≠ .closed →
    ((s.pos p).owner = some port → (s.pos p).offer = false → s.enabled port.other = true →
      exec (.offerPositionOffer port position 0) s
        = .next (((s.setPos p { s.pos p with offer := true }).file port.other .handoverOffer p.val 0).replied port
            Code.offerPosition .ok []))
    ∧ ((s.pos p).owner = some port → (s.pos p).offer = true →
      exec (.offerPositionWithdraw port position) s
        = .next (((s.setPos p { s.pos p with offer := false }).file port.other .handoverOffer p.val 1).replied port
            Code.offerPosition .ok []))
    ∧ ((s.pos p).owner = some port.other → (s.pos p).offer = true →
      exec (.acceptPosition port position) s
        = .next ((((s.setPos p { s.pos p with owner := some port, offer := false }).setQueue p
            ((s.queue p).map fun e => if e.kind = .announce then { e with origin := port } else e)).file port.other
              .handoverTaken p.val (Port.number port)).replied port Code.acceptPosition .ok []))

/-! ## Requests that read -/

/-- R44, R100, R112, R137, R175, R178: the requests that only read. Each replies OK with the record as it stands and changes
nothing. LIST TAPS gives the taps in use by ascending number. The layouts of LIST TAPS, MEMORY STATUS and PORT STATUS are
log entry 17's. -/
def Obligations.ReadingRequests : Prop :=
  ∀ s port, s.takes port →
    (∀ position p, number? 64 position = some p → exec (.positionInfo port position) s
      = .next (s.replied port Code.positionInfo .ok ([numberByte p, positionStateByte (s.pos p).state,
          ownerByte (s.pos p).owner, absentZero (s.pos p).agentSlot, absentZero (s.pos p).trunkSlot,
          absentZero (s.pos p).stream,
          countByte (detailBit (s.pos p).announcePending 0 + detailBit (s.pos p).offer 1
            + detailBit (s.headsetPresent p) 2 + detailBit (s.headsetMuted p) 3 + detailBit (s.pos p).nlp 4
            + detailBit (s.pos p).agentSlot.isSome 5 + detailBit (s.pos p).trunkSlot.isSome 6
            + detailBit (s.pos p).stream.isSome 7)]
          ++ (halfOf (s.pos p).duck).bytes
          ++ [countByte (s.pos p).profile.val, countByte (s.pos p).tail, ecModeByte (s.pos p).mode,
            countByte (s.pos p).step, countByte (s.pos p).reg, countByte (s.pos p).hang, countByte (s.pos p).shift,
            countByte (s.queue p).length])))
    ∧ (∀ clip, let c := s.clip (clipNumber clip)
      exec (.clipInfo port clip) s = .next (s.replied port Code.clipInfo .ok ([clip, flagByte c.defined,
        ownerByte c.owner] ++ (halfOf c.base).bytes ++ (halfOf c.length).bytes ++ (halfOf c.fill).bytes
        ++ [keyByte c.keys.cp0, keyByte c.keys.cp1, countByte (detailBit c.accessed 0 + detailBit c.written 1)]
        ++ (halfOf c.plays).bytes ++ [countByte c.writeBusy])))
    ∧ ((∀ u x, (u, x) ∈ s.tapsInUse ↔ s.tap u = some x) ∧ s.tapsInUse.Pairwise fun x y => x.1 < y.1)
    ∧ exec (.listTaps port) s = .next (s.replied port Code.listTaps .ok (countByte s.tapsInUse.length
        :: s.tapsInUse.flatMap fun x => [numberByte x.1, numberByte x.2.listener, numberByte x.2.target,
            countByte (tapKindNumber x.2.kind)] ++ (halfOf x.2.gain).bytes
            ++ [ownerByte (some x.2.owner), flagByte (decide ((s.pos x.2.target).state = .connected))]))
    ∧ exec (.memoryStatus port) s = .next (s.replied port Code.memoryStatus .ok ((wideOf s.arbiter.correctable).bytes
        ++ (wideOf s.arbiter.uncorrectable).bytes ++ (wideOf s.arbiter.passes).bytes ++ (wideOf s.pageCount).bytes
        ++ (halfOf s.arbiter.scrubPointer).bytes ++ [countByte s.arbiter.badPages.length]
        ++ s.arbiter.badPages.flatMap fun x => (halfOf x).bytes))
    ∧ exec (.portStatus port) s = .next (s.replied port Code.portStatus .ok ([0x06, 0x40, 0x01,
        (if port = .cp0 then 0 else 1), countByte (s.port port).ignored]
        ++ (halfOf (s.eventsOf port).lost).bytes
        ++ [flagByte (s.fault port).record.isSome, flagByte (s.enabled .cp0), flagByte (s.enabled .cp1)]))

/-- R45, R145, R178: POSITION STATS and STREAM INFO reply with what stands at the arrival and then clear their counters
when asked to. STREAM INFO's fields that hold no meaning are open bytes (log entries 14 and 18), so the statement holds
for whatever they are. -/
def Obligations.StatisticsRequests : Prop :=
  ∀ s port, s.takes port →
    (∀ position p clear, number? 64 position = some p → (s.pos p).state ≠ .closed → (s.pos p).owner = some port →
      let x := (s.pos p).stats
      exec (.positionStats port position clear) s
        = .next ((if clear = true then s.setPos p { s.pos p with stats := ⟨0, 0, 0, 0, 0⟩ } else s).replied port
            Code.positionStats .ok ((halfOf x.echoResets).bytes ++ (wideOf x.clipped).bytes ++ (wideOf x.doubleTalk).bytes
              ++ (wideOf x.nlpFrames).bytes ++ (wideOf x.whisperUnderrun).bytes)))
    ∧ ∀ stream k clear, number? 16 stream = some k →
      (clear = true → (s.stream k).state ≠ .stopped ∧ (s.stream k).owner = some port) →
      let x := s.stream k
      let loop := fun y : Loop => [flagByte y.enabled, countByte y.top, countByte y.bottom, countByte y.count]
      let playlist := fun (l : Option Playlist) (none8 : List Byte) => match l with
        | some l => countByte l.items.length :: (l.items.flatMap fun i => numberByte i.clip :: (halfOf i.gain).bytes)
            ++ loop l.inner ++ loop l.outer
        | none => 0 :: none8
      ∃ open1 open2 open3 open4 : List Byte,
        open1.length = 8 ∧ open2.length = 8 ∧ open3.length = 4 ∧ open4.length = 4
        ∧ exec (.streamInfo port stream clear) s
          = .next ((({ s with freeCount := s.freeCount + 24 } : State).setStream k { x with
              underrunSamples := if clear = true then 0 else x.underrunSamples }).replied port Code.streamInfo .ok
                ([streamStateByte x.state, ownerByte x.owner] ++ x.generation.bytes
                ++ playlist x.current open1 ++ [flagByte x.staged.isSome] ++ playlist x.staged open2
                ++ [countByte x.inner, countByte x.outer]
                ++ (match x.playing with
                  | some y => [countByte y.page.item] ++ (halfOf y.page.index).bytes ++ [countByte y.played]
                  | none => open3)
                ++ (match x.cursor with
                  | .page item index => [countByte item] ++ (halfOf index).bytes ++ [0]
                  | .undecided => open4.take 3 ++ [1]
                  | .exhausted => open4.take 3 ++ [2]
                  | .absent => open4)
                ++ [countByte (detailBit x.priming 0 + detailBit x.underrun 1), countByte x.listeners]
                ++ (wideOf x.underrunSamples).bytes))

/-! ## Profiles and taps -/

/-- R58, R59: WRITE PROFILE accepted: the profile is stored after its adjustments, and the floor of every position, open
or closed, that names it is raised to its Nmin. -/
def Obligations.WriteProfile : Prop :=
  ∀ s port number n (gains : Table 16 Half) (threshold : Byte) (nmin : Wide), s.takes port → number? 4 number = some n →
    let x : Profile := ⟨Table.build fun i => min (gains.cell i).toNat 32768, max 1 (min threshold.toNat 15),
      max 1 (min nmin.toNat (2 ^ 30))⟩
    exec (.writeProfile port number gains threshold nmin) s = .next (({ s with suppress := {
      profiles := s.suppress.profiles.put n x
      positions := Table.build fun p => if (s.pos p).profile = n then
        { s.suppressor p with floor := max (s.suppressor p).floor x.nmin } else s.suppressor p } } : State).replied
          port Code.writeProfile .ok
          ((x.gains.toList.flatMap fun g => (halfOf g).bytes) ++ [countByte x.threshold] ++ (wideOf x.nmin).bytes))

/-- R96 to R99: ADD TAP places the tap in the lowest free entry, with TAP_ON to the other port when that port owns the
target; REMOVE TAP frees the entry, with TAP_DROPPED to the tap's owner when the target's owner removes it. -/
def Obligations.AddAndRemoveTap : Prop :=
  (∀ s port listener target kind (gain : Half) l g k, s.takes port → number? 64 listener = some l →
    number? 64 target = some g → tapKind? kind = some k → l ≠ g → (s.pos l).state = .idle → (s.pos l).owner = some port →
    (s.pos g).state ≠ .closed → s.listenerTap l = none → (s.tapsInUse.filter fun x => x.2.target = g).length < 3 →
    (k = .coach → s.coachTap g = none) →
    ∀ u, s.tap u = none → (∀ v, v < u → (s.tap v).isSome = true) →
      let x : Tap := ⟨l, g, k, min gain.toNat 32768, port⟩
      let t := s.setTap u (some x)
      exec (.addTap port listener target kind gain) s = .next
        ((if (s.pos g).owner = some port.other then
            t.file port.other .tapOn g.val (u.val + (if k = .coach then 16 else 0) + 256 * l.val)
          else t).replied port Code.addTap .ok [numberByte u]))
  ∧ ∀ s port tap u x, s.takes port → number? 16 tap = some u → s.tap u = some x →
    (x.owner = port → exec (.removeTap port tap) s = .next ((s.setTap u none).replied port Code.removeTap .ok []))
    ∧ (x.owner ≠ port → (s.pos x.target).owner = some port → exec (.removeTap port tap) s
        = .next (((s.setTap u none).file x.owner .tapDropped x.listener.val
            (u.val + (if x.kind = .coach then 16 else 0) + 256 * 4)).replied port Code.removeTap .ok []))

/-! ## Clip store -/

/-- R108 to R111: DEFINE CLIP, SET KEYS and FREE CLIP accepted, and when page ranges overlap. -/
def Obligations.ClipDescriptors : Prop :=
  (∀ (s : State) c base length, 1 ≤ length → (∀ d, d ≠ c → (s.clip d).defined = true → 1 ≤ (s.clip d).length) →
    (s.overlaps c base length = true ↔ ∃ d, d ≠ c ∧ (s.clip d).defined = true ∧ ∃ page, base ≤ page ∧ page < base + length
      ∧ (s.clip d).base ≤ page ∧ page < (s.clip d).base + (s.clip d).length))
  ∧ ∀ s port clip, s.takes port →
    let c := clipNumber clip
    let x := s.clip c
    (∀ (base length fill : Half) key0 key1 k0 k1, key? key0 = some k0 → key? key1 = some k1 →
      1 ≤ length.toNat → length.toNat ≤ 4096 → 1 ≤ fill.toNat → fill.toNat ≤ 256 →
      base.toNat + length.toNat ≤ s.pageCount →
      (x.defined = true → x.owner = some port ∧ x.plays = 0 ∧ x.writeBusy = 0) →
      (∀ d, d ≠ c → (s.clip d).defined = true → ∀ page, base.toNat ≤ page → page < base.toNat + length.toNat →
        ¬((s.clip d).base ≤ page ∧ page < (s.clip d).base + (s.clip d).length)) →
      (∀ d, d ≠ c → (s.clip d).defined = true → 1 ≤ (s.clip d).length) →
      exec (.defineClip port clip base length fill key0 key1) s
        = .next ((s.setClip c ⟨true, if x.defined then x.owner else some port, base.toNat, length.toNat, fill.toNat,
            ⟨k0, k1⟩, false, false, 0, 0⟩).replied port Code.defineClip .ok []))
    ∧ (∀ key0 key1 k0 k1, key? key0 = some k0 → key? key1 = some k1 → x.defined = true → x.owner = some port →
      exec (.setKeys port clip key0 key1) s
        = .next ((s.setClip c { x with keys := ⟨k0, k1⟩, accessed := false, written := false }).replied port
            Code.setKeys .ok []))
    ∧ (x.defined = true → x.owner = some port → x.plays = 0 → x.writeBusy = 0 →
      exec (.freeClip port clip) s
        = .next ((s.setClip c ⟨false, none, 0, 0, 0, ⟨.noAccess, .noAccess⟩, false, false, 0, 0⟩).replied port
            Code.freeClip .ok []))

/-- R113, R121, R122: the kinds of fault a reference finds and the primary one; what the fault record and the second-fault
count become; and READ FAULT and CLEAR FAULT. The two bytes of an absent page index are open (log entry 14). -/
def Obligations.ReferenceFaults : Prop :=
  (∀ (c : Clip) port kind index,
    let k := c.check port kind index
    (c.defined = false → k = ⟨true, false, false, false⟩)
    ∧ (c.defined = true → k.undefined = false
        ∧ (k.noAccess = true ↔ c.keys.cell port = .noAccess)
        ∧ (k.length = true ↔ ∃ i, index = some i ∧ c.length ≤ i)
        ∧ (k.readOnly = true ↔ kind = .write ∧ (c.keys.cell port = .play ∨ c.keys.cell port = .playNote)))
    ∧ (k.found = true ↔ k.undefined = true ∨ k.noAccess = true ∨ k.length = true ∨ k.readOnly = true)
    ∧ (k.found = true → k.primary < 4 ∧ [k.undefined, k.noAccess, k.length, k.readOnly][k.primary]? = some true
        ∧ ∀ j < k.primary, [k.undefined, k.noAccess, k.length, k.readOnly][j]? = some false))
  ∧ (∀ (s : State) port kinds clip index code,
    let t := s.recordFault port kinds clip index code
    ((s.fault port).record = none →
      t = s.setFault port { s.fault port with record := some ⟨kinds, clip, index, code, s.highway.stamp⟩ })
    ∧ ((s.fault port).record ≠ none →
      t = s.setFault port { s.fault port with seconds := min 255 ((s.fault port).seconds + 1) }))
  ∧ (∀ s port, s.takes port →
    exec (.clearFault port) s = .next ((s.setFault port ⟨none, 0⟩).replied port Code.clearFault .ok []))
  ∧ (∀ s port, s.takes port → (s.fault port).record = none →
    exec (.readFault port) s = .next (s.replied port Code.readFault .empty []))
  ∧ ∀ s port x, s.takes port → (s.fault port).record = some x →
    ∃ open2, open2.length = 2
      ∧ exec (.readFault port) s = .next (({ s with freeCount := s.freeCount + 2 } : State).replied port
          Code.readFault .ok
          ([countByte (detailBit x.kinds.undefined 0 + detailBit x.kinds.noAccess 1 + detailBit x.kinds.length 2
              + detailBit x.kinds.readOnly 3), countByte x.kinds.primary, numberByte x.clip,
            flagByte x.index.isSome] ++ (match x.index with | some i => (halfOf i).bytes | none => open2)
            ++ [x.code] ++ x.stamp.bytes ++ [countByte (s.fault port).seconds]))

/-- R107, R117, R119, R129, R171: WRITE PAGE and READ PAGE admitted: the operation joins the arbiter as the port's pending
one and a grant follows; a write raises the write-busy count, a read under PLAY_NOTE is noted. While the bus is busy the
request stays in flight, with READY low and no reply. -/
def Obligations.PageOperationsAdmitted : Prop :=
  ∀ s port clip (index : Half), s.takes port → index.toNat ≤ 4095 →
    let c := clipNumber clip
    let x := s.clip c
    let flying := fun code => s.setPort port { s.port port with
      ready := false, inFlight := some code, lastReply := none }
    (∀ codes, (x.check port .write (some index.toNat)).found = false → x.plays = 0 →
      let op := PortOp.write c index.toNat (x.base + index.toNat) codes (decide (x.keys.cell port = .writeNote))
      let t := ((flying Code.writePage).setClip c { x with writeBusy := x.writeBusy + 1 }).setArbiter
        { s.arbiter with pendingOps := s.arbiter.pendingOps.put port (some op) }
      exec (.writePage port clip index codes) s = .next t.grant
      ∧ (s.arbiter.bus.isSome = true → t.grant = t))
    ∧ ((x.check port .read (some index.toNat)).found = false →
      let op := PortOp.read c index.toNat (x.base + index.toNat)
      let noted := if x.keys.cell port = .playNote then
          ((flying Code.readPage).setClip c { x with accessed := true }).fileOwner x.owner .clipPlayed c.val
            (Port.number port + 512)
        else flying Code.readPage
      let t := noted.setArbiter { s.arbiter with pendingOps := s.arbiter.pendingOps.put port (some op) }
      exec (.readPage port clip index) s = .next t.grant
      ∧ (s.arbiter.bus.isSome = true → t.grant = t))

/-! ## Streams -/

/-- R107, R114, R115, R142 to R144: START STREAM, LOAD STREAM and STOP STREAM accepted: play counts rise and noted clips
are reported, the stream takes its contents, and what follows from them (a fetch request, a switch, the return of play
counts) is made at once. R146: when a stream places a fetch request, what it asks for, and what its fetch cursor becomes.
R141: which playlists are taken, and how they are stored. R107, R113 to R115: the clip checks of a playlist, the play counts it
raises and returns, and the notes it makes, one CLIP_PLAYED for each noted clip it names, in ascending order. A switch at LOAD
names the last item of the list that had ended (R143, R149). -/
def Obligations.StreamRequests : Prop :=
  (∀ l : PlaylistArg,
    let n := l.items.length
    let stored := storedPlaylist l
    (playlistLegal l = true ↔ 1 ≤ n ∧ n ≤ 16
      ∧ (l.inner.enabled = true → l.inner.top.toNat ≤ l.inner.bottom.toNat ∧ l.inner.bottom.toNat < n)
      ∧ (l.outer.enabled = true → l.outer.top.toNat ≤ l.outer.bottom.toNat ∧ l.outer.bottom.toNat < n)
      ∧ (l.inner.enabled = true → l.outer.enabled = true → l.outer.top.toNat ≤ l.inner.top.toNat
        ∧ l.inner.top.toNat ≤ l.inner.bottom.toNat ∧ l.inner.bottom.toNat ≤ l.outer.bottom.toNat))
    ∧ stored.items = l.items.map (fun i => ⟨clipNumber i.clip, min i.gain.toNat 32768⟩)
    ∧ stored.inner = ⟨l.inner.enabled, l.inner.top.toNat, l.inner.bottom.toNat,
        if l.inner.count = 0 then 1 else l.inner.count.toNat⟩
    ∧ stored.outer = ⟨l.outer.enabled, l.outer.top.toNat, l.outer.bottom.toNat, l.outer.count.toNat⟩)
  ∧ (∀ (s : State) port items,
    let naming := fun c => (items.filter fun i : Item => i.clip = c).length
    let noted := fun c => decide (1 ≤ naming c ∧ (s.clip c).keys.cell port = .playNote)
    (s.faultyItem port items = none ↔ ∀ i ∈ items, ((s.clip i.clip).check port .play none).found = false)
    ∧ (s.itemsBusy items = false ↔ ∀ i ∈ items, (s.clip i.clip).writeBusy = 0)
    ∧ (∀ c, (s.addPlays items).clip c = { s.clip c with plays := (s.clip c).plays + naming c })
    ∧ Touches [.clipStore] s (s.addPlays items)
    ∧ (∀ l : Playlist, l.items = items → Touches [.clipStore] s (s.dropPlays (some l))
      ∧ ∀ c, (s.dropPlays (some l)).clip c = { s.clip c with plays := (s.clip c).plays - naming c })
    ∧ s.dropPlays none = s
    ∧ (∀ c, (s.noteItems port items).clip c = { s.clip c with accessed := (s.clip c).accessed || noted c })
    ∧ Touches [.clipStore, .events] s (s.noteItems port items)
    ∧ (s.noteItems port items).events = (s.filed (((List.finRange 256).filter noted).map fun c =>
        ((s.clip c).owner, .clipPlayed, c.val, Port.number port))).events)
  ∧ (∀ (x : Stream) l, x.current = some l → x.lastItem = l.items.length - 1)
  ∧ (∀ (s : State) k,
    let x := s.stream k
    (∀ l item index it, x.state = .running → x.next = .empty → x.cursor = .page item index → x.current = some l →
      l.items[item]? = some it →
      let c := s.clip it.clip
      s.streamRequest k = ((s.setStream k { x with
          next := .awaited item
          cursor := if index + 1 = c.length then .undecided else .page item (index + 1) }).setArbiter { s.arbiter with
            queue := s.arbiter.queue ++ [⟨.stream k, x.generation, c.base + index, index⟩] }).grant)
    ∧ (x.state ≠ .running ∨ x.next ≠ .empty ∨ (∀ item index, x.cursor ≠ .page item index) → s.streamRequest k = s))
  ∧ ∀ s port stream k, s.takes port → number? 16 stream = some k →
    let x := s.stream k
    (∀ l, playlistLegal l = true → s.faultyItem port (storedPlaylist l).items = none →
      s.itemsBusy (storedPlaylist l).items = false →
      let new := storedPlaylist l
      let load := fun n : Nat => if n = 0 then 1 else n
      let accepted := fun code => (((s.taken port code).addPlays new.items).noteItems port new.items)
      (x.state = .stopped →
        exec (.startStream port stream l) s = .next ((((accepted Code.startStream).setStream k
          { state := .running, owner := some port, generation := x.generation, current := some new, staged := none,
            inner := load new.inner.count, outer := load new.outer.count, cursor := .page 0 0, next := .empty,
            playing := none, priming := true, underrun := false, listeners := x.listeners,
            underrunSamples := 0 }).streamRequest k).answer port .ok []))
      ∧ (x.state = .running → x.owner = some port → x.cursor ≠ .exhausted →
        exec (.loadStream port stream l) s = .next ((((accepted Code.loadStream).dropPlays x.staged).setStream k
          { x with staged := some new }).answer port .ok []))
      ∧ (x.state = .running → x.owner = some port → x.cursor = .exhausted →
        exec (.loadStream port stream l) s = .next ((((((accepted Code.loadStream).dropPlays x.staged).setStream k
          { x with staged := some new }).switch k x.lastItem).streamRequest k).answer port .ok []))
      ∧ (x.state = .ended → x.owner = some port →
        exec (.loadStream port stream l) s = .next (((((accepted Code.loadStream).dropPlays x.current).setStream k
          { x with state := .running, current := some new, staged := none, inner := load new.inner.count,
                   outer := load new.outer.count, cursor := .page 0 0, priming := true }).streamRequest k).answer
            port .ok [])))
    ∧ (x.state ≠ .stopped → x.owner = some port → x.listeners = 0 →
      exec (.stopStream port stream) s = .next (((((s.dropPlays x.staged).dropPlays x.current).setStream k
        { x with state := .stopped, owner := none, generation := x.generation + 1, current := none, staged := none,
                 cursor := .absent, next := .empty, playing := none, priming := false,
                 underrun := false }).setArbiter { s.arbiter with
          queue := s.arbiter.queue.filter fun f => f.player ≠ .stream k }).replied port Code.stopStream .ok []))

/-- R146: a page arrives in the next slot of a stream, with the number of its samples that are played and its item's gain,
and the last page of an item makes the item-end decision. R148, R149: what the fetch cursor names after the last page of
item i: a staged playlist, with the remainders loaded from its counts; else the inner loop, the outer loop, the next item, or
nothing. -/
def Obligations.ItemEndDecision : Prop :=
  (∀ (s : State) k index codes l i it, (s.stream k).current = some l → (s.stream k).next = .awaited i →
    l.items[i]? = some it →
    let c := s.clip it.clip
    let last := index + 1 = c.length
    let t := s.setStream k { s.stream k with next := .filled ⟨codes, if last then c.fill else 256, it.gain, i, index⟩ }
    s.streamArrival k index codes = if last then t.itemEnd k i else t)
  ∧ ∀ (s : State) k i (l : Playlist), (s.stream k).current = some l →
    let x := s.stream k
    let t := s.itemEnd k i
    let load := fun n : Nat => if n = 0 then 1 else n
    let atInner := l.inner.enabled = true ∧ i = l.inner.bottom
    let atOuter := l.outer.enabled = true ∧ i = l.outer.bottom
    let inner := if atInner then l.inner.count else x.inner
    (∀ (new : Playlist), x.staged = some new →
      t.stream k = { x with current := some new, staged := none, inner := load new.inner.count,
                            outer := load new.outer.count, cursor := .page 0 0 }
      ∧ t.events = (s.fileOwner x.owner .streamSwitched k.val i).events
      ∧ ∀ c, (t.clip c).plays = (s.clip c).plays - (l.items.filter fun y => y.clip = c).length)
    ∧ (x.staged = none → atInner → 1 < x.inner →
        t = s.setStream k { x with cursor := .page l.inner.top 0, inner := x.inner - 1 })
    ∧ (x.staged = none → ¬(atInner ∧ 1 < x.inner) →
      (atOuter → l.outer.count = 0 → t = s.setStream k { x with cursor := .page l.outer.top 0, inner := inner })
      ∧ (atOuter → l.outer.count ≠ 0 → 1 < x.outer →
          t = s.setStream k { x with cursor := .page l.outer.top 0, inner := inner, outer := x.outer - 1 })
      ∧ (¬(atOuter ∧ (l.outer.count = 0 ∨ 1 < x.outer)) →
          t = s.setStream k { x with
            cursor := if i + 1 < l.items.length then .page (i + 1) 0 else .exhausted
            inner := inner
            outer := if atOuter then l.outer.count else x.outer }))

/-! ## Whispers -/

/-- R31, R107, R115, R157, R158, R160, R161, R163: WHISPER and CANCEL WHISPER accepted. The new entry joins the end of the
queue with the next arrival number; a cancel flushes every entry for the owner and the requester's own for the other port,
head first; both then assign players (log entry 11) and reply. What the flushes leave: the other entries in their order, play
counts one lower for each entry flushed, PROMPT_FLUSHED for each, the player of a flushed PRIMING or SOUNDING head free with
its generation raised and its waiting fetch removed, and, for a cancelled announcement, the position CONNECTED or no longer
pending, with ANNOUNCE_DONE. The play and the note that the new entry makes are said too. -/
def Obligations.WhisperRequests : Prop :=
  (∀ (s : State) port c,
    s.addPlay c = s.setClip c { s.clip c with plays := (s.clip c).plays + 1 }
    ∧ s.note port .whisper c = if (s.clip c).keys.cell port = .playNote then
        (s.setClip c { s.clip c with accessed := true }).fileOwner (s.clip c).owner .clipPlayed c.val
          (Port.number port + 256) else s)
  ∧ ∀ s port position p, s.takes port → number? 64 position = some p → (s.pos p).state ≠ .closed →
    (∀ clip (gain : Half), (s.queue p).length < 4 →
      ((s.clip (clipNumber clip)).check port .play none).found = false → (s.clip (clipNumber clip)).writeBusy = 0 →
      let e : Entry := ⟨clipNumber clip, min gain.toNat 32768, port, .prompt, s.whisper.arrival, .waiting⟩
      let queued : State := { s.taken port Code.whisper with whisper := { s.whisper with
        queues := s.whisper.queues.put p (s.queue p ++ [e]), arrival := s.whisper.arrival + 1 } }
      exec (.whisper port position clip gain) s
        = .next ((((queued.addPlay e.clip).note port .whisper e.clip).assignPlayers).answer port .ok
            s.whisper.arrival.bytes))
    ∧ (let self := s.pos p
      let cancelled := (s.queue p).filter fun e => self.owner = some port || e.origin = port
      let kept := (s.queue p).filter fun e => !(self.owner = some port || e.origin = port)
      let ended := cancelled.any fun e => e.kind = .announce
      ∃ u : State,
        exec (.cancelWhisper port position) s = .next (u.assignPlayers.answer port .ok [countByte cancelled.length])
        ∧ Touches [.ports, .positions, .streams, .clipStore, .arbiter, .whisper, .events] s u
        ∧ u.ports = (s.taken port Code.cancelWhisper).ports ∧ FlushLeaves s u p cancelled kept
        ∧ (∀ q, q ≠ p → u.pos q = s.pos q) ∧ (ended = false → u.pos p = self ∧ u.streams = s.streams)
        ∧ (ended = false → u.events = (s.filed (flushFilings p 0 cancelled)).events)
        ∧ (∀ before e after, cancelled = before ++ e :: after → e.kind = .announce →
            (before ++ after).all (fun e => e.kind = .prompt) = true →
            (self.state = .announce → u.pos p = { self with state := .connected, stream := none }
              ∧ u.streams = (s.dropListener self.stream).streams)
            ∧ (self.state = .held → u.pos p = { self with announcePending := false } ∧ u.streams = s.streams)
            ∧ u.events = (s.filed (flushFilings p 0 (before ++ [e]) ++ [(self.owner, .announceDone, p.val, 1)]
                ++ flushFilings p 0 after)).events)
        ∧ (u.assignPlayers.freePlayer = none ∨ u.assignPlayers.oldestHead = none))

/-- R161, R31: a flush: the chosen entries leave and the others keep their order, the clips lose one play for each, and the
player of a flushed head that plays is free with its generation raised and its waiting fetch removed; for a cause other than
a cancel no position and no stream changes; a cancelled announcement ends in ANNOUNCE with the position CONNECTED and the
announce-time stream one listener fewer, and in HELD with announce pending cleared. What each flush of one entry does,
whatever its cause, in the order of R161's steps. And R163, R164: the lowest-numbered free player goes to an oldest WAITING
head, again and again while both are there; the head becomes PRIMING and its player asks for the first page. A head is the
older the further its arrival number lies behind the arrival counter, modulo 2^32 (R157). -/
def Obligations.FlushesAndAssignment : Prop :=
  (∀ (s : State) p cause chosen,
    let t := s.flush p cause chosen
    FlushLeaves s t p ((s.queue p).filter chosen) ((s.queue p).filter fun e => !chosen e)
    ∧ Touches [.positions, .clipStore, .arbiter, .streams, .whisper, .events] s t
    ∧ (cause ≠ .cancel → t.positions = s.positions ∧ t.streams = s.streams))
  ∧ (∀ (s : State) p,
    let x := s.pos p
    (x.state = .announce → s.announceEnded p true
      = ((s.setPos p { x with state := .connected, stream := none }).dropListener x.stream).fileOwner x.owner
          .announceDone p.val 1)
    ∧ (x.state = .held → s.announceEnded p true
      = (s.setPos p { x with announcePending := false }).fileOwner x.owner .announceDone p.val 1))
  ∧ (∀ (s : State) p, s.oldestHead = some p →
    ∃ a, s.waitingAge p = some a ∧ ∀ q b, s.waitingAge q = some b → b ≤ a)
  ∧ (∀ s : State, s.oldestHead = none → ∀ q, s.waitingAge q = none)
  ∧ (∀ (s : State) p, (s.queue p = [] → s.waitingAge p = none)
    ∧ ∀ e rest, s.queue p = e :: rest → s.waitingAge p = if e.phase = .waiting then
        some ((s.whisper.arrival.toNat + 2 ^ 32 - e.arrival.toNat) % 2 ^ 32) else none)
  ∧ (∀ s : State, s.assignPlayers.freePlayer = none ∨ s.assignPlayers.oldestHead = none)
  ∧ (∀ (s : State) p cause chosen, s.flush p cause chosen
      = ((s.queue p).filter chosen).foldl (fun u e => u.flushed p cause e)
          (s.setQueue p ((s.queue p).filter fun e => !chosen e)))
  ∧ (∀ (s : State) p cause e,
    let counted := s.setClip e.clip { s.clip e.clip with plays := (s.clip e.clip).plays - 1 }
    let freed := fun w : Fin 16 =>
      (counted.setPlayer w ⟨none, (s.player w).generation + 1, .absent, .empty, none⟩).setArbiter { s.arbiter with
        queue := s.arbiter.queue.filter fun f => f.player ≠ .prompt w }
    let filed := fun u : State => u.file e.origin .promptFlushed p.val
      (e.clip.val + (if e.kind = .announce then 256 else 0) + 4096 * cause.number)
    let ended := fun u : State => if cause = .cancel ∧ e.kind = .announce then u.announceEnded p true else u
    (e.phase = .waiting ∨ s.playerOf p = none → s.flushed p cause e = ended (filed counted))
    ∧ ∀ w, e.phase ≠ .waiting → s.playerOf p = some w → s.flushed p cause e = ended (filed (freed w)))
  ∧ (∀ (s : State) w, s.freePlayer = some w ↔
      (s.player w).assigned = none ∧ ∀ v, v < w → (s.player v).assigned ≠ none)
  ∧ (∀ (s : State) w p, s.freePlayer = some w → s.oldestHead = some p → s.assignPlayers = (s.assign w p).assignPlayers)
  ∧ (∀ s : State, s.freePlayer = none ∨ s.oldestHead = none → s.assignPlayers = s)
  ∧ (∀ (s : State) w p e rest, s.queue p = e :: rest → s.assign w p
      = ((s.setQueue p ({ e with phase := .priming } :: rest)).setPlayer w
          ⟨some p, (s.player w).generation, .page 0, .empty, none⟩).promptRequest w)
  ∧ ∀ (s : State) w p e rest,
    let x := s.player w
    let c := s.clip e.clip
    (∀ index, x.assigned = some p → s.queue p = e :: rest → x.next = .empty → x.cursor = .page index →
      s.promptRequest w = ((s.setPlayer w { x with
          next := .awaited, cursor := if index + 1 = c.length then .done else .page (index + 1) }).setArbiter
        { s.arbiter with queue := s.arbiter.queue ++ [⟨.prompt w, x.generation, c.base + index, index⟩] }).grant)
    ∧ (x.assigned = none ∨ x.next ≠ .empty ∨ (∀ index, x.cursor ≠ .page index) → s.promptRequest w = s)

/-! ## Events -/

/-- R180, R181, R183: READ EVENT gives and removes the oldest record of the lowest unmasked class present, or is EMPTY;
ROUTE EVENT and MASK EVENTS replace an entry of the class table and the mask. -/
def Obligations.EventRequests : Prop :=
  ∀ s port, s.takes port →
    let e := s.eventsOf port
    (∀ before r after, e.store = before ++ r :: after → e.masked r.cls = false →
      (∀ y ∈ e.store, e.masked y.cls = false → r.cls ≤ y.cls) → (∀ y ∈ before, y.cls ≠ r.cls) →
      exec (.readEvent port) s
        = .next ((s.setEvents port { e with store := before ++ after }).replied port Code.readEvent .ok
            ([countByte r.kind.code, numberByte r.cls] ++ r.object.bytes ++ r.detail.bytes ++ r.stamp.bytes)))
    ∧ ((∀ y ∈ e.store, e.masked y.cls = true) →
      exec (.readEvent port) s = .next (s.replied port Code.readEvent .empty []))
    ∧ (∀ kind cls k c, 1 ≤ kind.toNat → kind.toNat = k.val + 1 → number? 8 cls = some c →
      exec (.routeEvent port kind cls) s
        = .next ((s.setEvents port { e with classes := e.classes.put k c }).replied port Code.routeEvent .ok []))
    ∧ ∀ mask, exec (.maskEvents port mask) s
        = .next ((s.setEvents port { e with mask := mask }).replied port Code.maskEvents .ok [])

/-- R179, R182: filing a record. It joins a store that has room; in a full one it displaces the oldest record of a masked
class, or is discarded, and either way a record is lost; a disabled port has none filed. The class of a
record is its kind's entry in the class table, and a class is masked when its bit of the mask is set (R180, R181). -/
def Obligations.EventStore : Prop :=
  (∀ (e : EventState) r,
    (e.store.length < 32 → e.store1 r = { e with store := e.store ++ [r] })
    ∧ (∀ before x after, e.store.length = 32 → e.store = before ++ x :: after → e.masked x.cls = true →
        (∀ y ∈ before, e.masked y.cls = false) →
        e.store1 r = { e with store := before ++ after ++ [r], lost := min 65535 (e.lost + 1) })
    ∧ (e.store.length = 32 → (∀ y ∈ e.store, e.masked y.cls = false) →
        e.store1 r = { e with lost := min 65535 (e.lost + 1) }))
  ∧ (∀ (e : EventState) (kind : EventKind) (k : Fin 21), kind.code = k.val + 1 → e.classOf kind = e.classes.cell k)
  ∧ (∀ (e : EventState) (c : Fin 8), e.masked c = e.mask.getLsbD c.val)
  ∧ ∀ (s : State) port kind object detail,
    (s.enabled port = false → s.file port kind object detail = s)
    ∧ (s.enabled port = true → s.file port kind object detail
        = s.setEvents port ((s.eventsOf port).store1
            ⟨kind, (s.eventsOf port).classOf kind, halfOf object, halfOf detail, s.highway.stamp⟩))

/-- R172, R173, R183: ATTN is high exactly while a part that runs holds, for an enabled port, a record of an unmasked class;
a READ EVENT that the port takes is EMPTY exactly while ATTN is low; and a read period carries 0xFF during its marker byte,
then the last reply from its first byte on and 0xFF after it; that SDO follows the state of the moment when a reply is made
during the period is log entry 35's choice. R168: a request period carries 0xFF, bits travel most significant
first, and SDO is at high impedance while CS is high. R178: the codes of statuses, enumerated fields, requests and event
kinds, and the bytes of a field, most significant first. -/
def Obligations.AttentionAndReadPeriods : Prop :=
  (∀ (s : State) port, s.attn port = true ↔
    s.phase = .running ∧ s.enabled port = true
      ∧ ∃ r ∈ (s.eventsOf port).store, (s.eventsOf port).mask.getLsbD r.cls.val = false)
  ∧ (∀ s port, s.takes port →
    (s.attn port = false ↔ exec (.readEvent port) s = .next (s.replied port Code.readEvent .empty [])))
  ∧ (∀ (s : State) port n,
    ((s.port port).lastReply = none → s.readPeriod port n = List.replicate n 0xFF)
    ∧ ∀ r, (s.port port).lastReply = some r →
      s.readPeriod port n = ([statusByte r.status, r.code] ++ (halfOf r.payload.length).bytes ++ r.payload
        ++ List.replicate n 0xFF).take n)
  ∧ (∀ (s : State) port (first : Byte) (n clock : Nat),
    s.sdo port none clock = none
    ∧ s.sdoBytes port 0xC3 (n + 1) = 0xFF :: s.readPeriod port n
    ∧ (first ≠ 0xC3 → s.sdoBytes port first n = List.replicate n 0xFF)
    ∧ (clock < 8 * n → s.sdo port (some first) clock = (bitsOfBytes (s.sdoBytes port first n))[clock]?))
  ∧ (∀ b : Byte, bitsOfBytes [b] = [b.getLsbD 7, b.getLsbD 6, b.getLsbD 5, b.getLsbD 4, b.getLsbD 3, b.getLsbD 2,
      b.getLsbD 1, b.getLsbD 0])
  ∧ (∀ h : Half, h.bytes = [h.extractLsb' 8 8, h.extractLsb' 0 8])
  ∧ (∀ w : Wide, w.bytes = [w.extractLsb' 24 8, w.extractLsb' 16 8, w.extractLsb' 8 8, w.extractLsb' 0 8])
  ∧ (∀ n, countByte n = BitVec.ofNat 8 n ∧ halfOf n = BitVec.ofNat 16 n ∧ wideOf n = BitVec.ofNat 32 n)
  ∧ (∀ n (i : Fin n), numberByte i = BitVec.ofNat 8 i.val)
  ∧ (∀ f bit, detailBit f bit = if f then 2 ^ bit else 0)
  ∧ [Status.ok, .starting, .badRequest, .badArg, .notOwner, .state, .slotTaken, .noSegments, .queueFull, .inUse, .clipFault,
      .overlap, .tapLimit, .empty, .portOff].map statusByte
    = (List.range 15).map (BitVec.ofNat 8)
  ∧ [some Port.cp0, some .cp1, none].map ownerByte = [0, 1, 0xFF] ∧ [Port.cp0, .cp1].map Port.number = [0, 1]
  ∧ [PositionState.closed, .idle, .announce, .connected, .held].map positionStateByte = [0, 1, 2, 3, 4]
  ∧ [StreamState.stopped, .running, .ended].map streamStateByte = [0, 1, 2]
  ∧ [EcMode.adapt, .frozen, .bypass].map ecModeByte = [0, 1, 2] ∧ (∀ b m, ecMode? b = some m ↔ b = ecModeByte m)
  ∧ [Key.noAccess, .play, .playNote, .write, .writeNote].map keyByte = [0, 1, 2, 3, 4]
  ∧ (∀ b k, key? b = some k ↔ b = keyByte k)
  ∧ [TapKind.monitor, .coach].map tapKindNumber = [0, 1]
  ∧ (∀ b k, tapKind? b = some k ↔ b = countByte (tapKindNumber k))
  ∧ [false, true].map flagByte = [0, 1]
  ∧ [Code.portStatus, Code.resetPort, Code.openPosition, Code.closePosition, Code.connect, Code.hold, Code.retrieve,
      Code.release, Code.setPosition, Code.setTail, Code.offerPosition, Code.acceptPosition, Code.positionInfo,
      Code.positionStats, Code.writeProfile, Code.addTap, Code.removeTap, Code.listTaps]
    = [0x01, 0x02, 0x10, 0x11, 0x12, 0x13, 0x14, 0x15, 0x16, 0x17, 0x18, 0x19, 0x1A, 0x1B, 0x20, 0x28, 0x29, 0x2A]
  ∧ [Code.defineClip, Code.setKeys, Code.freeClip, Code.writePage, Code.readPage, Code.clipInfo, Code.readFault,
      Code.clearFault, Code.memoryStatus, Code.startStream, Code.loadStream, Code.stopStream, Code.streamInfo, Code.whisper,
      Code.cancelWhisper, Code.readEvent, Code.routeEvent, Code.maskEvents]
    = [0x30, 0x31, 0x32, 0x33, 0x34, 0x35, 0x36, 0x37, 0x38, 0x40, 0x41, 0x42, 0x43, 0x48, 0x49, 0x50, 0x51, 0x52]
  ∧ [EventKind.syncLost, .syncRestored, .memUncorrectable, .badListFull, .peerReset, .announceDone, .handoverOffer,
      .handoverTaken, .positionInherited, .headsetChange, .ecReset, .promptDone, .promptFlushed, .streamEnded,
      .streamSwitched, .streamLost, .streamUnderrun, .tapOn, .tapDropped, .clipPlayed, .clipWritten].map EventKind.code
    = (List.range 21).map (· + 1)

/-! ## RESET PORT -/

/-- R41 to R43, R61, R85, R103, R123, R156, R161, R176, R185: what RESET PORT leaves. Nothing of the port's is left but its
clips; its offered positions are the other port's; and the reply counts what was passed, closed and stopped. Inherited
positions and the other port's keep their records but for the owner, the offer and a stream that stopped, and what the
suppressor, the canceller and the mixer keep for them; the closed positions take the closed values, return their segments
and unbind their timeslots. `u` is the part once the port's whisper entries are flushed and before players are assigned (log
entry 11): the flushes have touched the whisper block, the play counts and the fetch queue as given, and the reset's last
steps touch, after that, only the tap table, the fault record, the ports and the events. For the other port the reset files,
in order, POSITION_INHERITED, the closures' PROMPT_FLUSHED and TAP_DROPPED, and STREAM_LOST; and after players are assigned,
PEER_RESET. Among positions the order is the model's (log entry 27). -/
def Obligations.ResetPort : Prop :=
  ∀ (s : State) port, s.takes port → s.arbiter.pendingOps.cell port = none →
    let passed := (List.finRange 64).filter fun p => (s.pos p).owner = some port ∧ (s.pos p).offer = true
    let closed := (List.finRange 64).filter fun p => (s.pos p).owner = some port ∧ (s.pos p).offer = false
    let streams := (List.finRange 16).filter fun k => (s.stream k).owner = some port
    let flushed : Fin 64 → List Entry := fun p => (s.queue p).filter fun e =>
      p ∈ closed ∨ (e.origin = port ∧ ¬(p ∈ passed ∧ e.kind = .announce))
    let freed : Fin 16 → Bool := fun w =>
      (s.player w).assigned.any fun p => (flushed p).any fun e => e.phase ≠ .waiting
    let stopped := fun x : Option (Fin 16) => x.filter fun k => (s.stream k).owner ≠ some port
    ∃ t, exec (.resetPort port) s = .next t
      ∧ (∀ p, (s.pos p).owner = some port → (s.pos p).offer = true → t.pos p = { s.pos p with
          owner := some port.other, offer := false, stream := stopped (s.pos p).stream })
      ∧ (∀ p, (s.pos p).owner = some port → (s.pos p).offer = false →
          t.pos p = Position.closedContents ∧ t.queue p = [])
      ∧ (∀ p, (s.pos p).owner = some port.other → t.pos p = { s.pos p with
          offer := false, stream := stopped (s.pos p).stream })
      ∧ (∀ p, (t.pos p).owner ≠ some port)
      ∧ (∀ p ∈ closed, t.coachDuck p = 0 ∧ t.canceller p = ⟨[], Table.fill 512 0, 0, 0, 0, 0⟩
          ∧ t.suppressor p = ⟨(s.profile 2).nmin, 0, (s.profile 2).gains.cell 0, true, Table.fill 32 0, false, false⟩)
      ∧ (∀ p, p ∉ closed → t.coachDuck p = s.coachDuck p ∧ t.canceller p = s.canceller p
          ∧ t.suppressor p = s.suppressor p)
      ∧ t.suppress.profiles = s.suppress.profiles
      ∧ (∀ g, g ∈ t.echo.free ↔ g ∈ s.echo.free ∨ ∃ p ∈ closed, g ∈ s.segments p)
      ∧ t.echo.coefficients = s.echo.coefficients
      ∧ t.highway = { s.highway with agent := t.highway.agent, trunk := t.highway.trunk }
      ∧ (∀ a, t.highway.agent.cell a
          = if closed.any (fun p => (s.pos p).agentSlot = some a) then none else s.highway.agent.cell a)
      ∧ (∀ v, t.highway.trunk.cell v
          = if closed.any (fun p => (s.pos p).state.inCall && (s.pos p).trunkSlot = some v) then none
            else s.highway.trunk.cell v)
      ∧ (∀ v, t.tap v = (s.tap v).filter fun x => x.owner ≠ port ∧ x.listener ∉ closed ∧ x.target ∉ closed)
      ∧ (∀ k, (s.stream k).owner = some port → (t.stream k).state = .stopped ∧ (t.stream k).owner = none
          ∧ (t.stream k).listeners = 0 ∧ ∀ p, (t.pos p).stream ≠ some k)
      ∧ (∀ k, (t.stream k).owner ≠ some port)
      ∧ (∀ p, ∀ e ∈ t.queue p, e.origin ≠ port)
      ∧ (∀ c, { t.clip c with plays := 0 } = { s.clip c with plays := 0 })
      ∧ t.fault port = ⟨none, 0⟩ ∧ t.fault port.other = s.fault port.other
      ∧ t.eventsOf port = EventState.atReset
      ∧ t.port port = { s.port port with
          ready := true, inFlight := none, ignored := 0
          lastReply := some ⟨.ok, Code.resetPort,
            [countByte passed.length, countByte closed.length, countByte streams.length]⟩ }
      ∧ ∃ u : State, Touches (.ports :: closeParts) s u ∧ u.highway.stamp = s.highway.stamp
        ∧ Touches [.mixer, .clipStore, .ports, .events] u.assignPlayers t
        ∧ t.clipStore.clips = u.assignPlayers.clipStore.clips
        ∧ (∀ p, u.queue p = if p ∈ closed then [] else ((s.queue p).map fun e =>
            if p ∈ passed ∧ e.kind = .announce then { e with origin := port.other } else e).filter fun e => e.origin ≠ port)
        ∧ u.whisper.arrival = s.whisper.arrival ∧ u.clipStore.faults = s.clipStore.faults
        ∧ (∀ c, u.clip c = { s.clip c with plays := (s.clip c).plays
            - (((List.finRange 64).map fun p => ((flushed p).filter fun e => e.clip = c).length).sum
              + (streams.map fun k => namings c (s.stream k).current + namings c (s.stream k).staged).sum) })
        ∧ (s.playersSound →
          (∀ w : Fin 16, u.player w = if freed w then ⟨none, (s.player w).generation + 1, .absent, .empty, none⟩
            else s.player w)
          ∧ u.arbiter = { s.arbiter with queue := s.arbiter.queue.filter fun f => match f.player with
              | .stream k => !streams.contains k
              | .prompt w => !freed w })
        ∧ (∀ k, u.stream k = if k ∈ streams then { s.stream k with
              state := .stopped, owner := none, generation := (s.stream k).generation + 1, current := none, staged := none,
              cursor := .absent, next := .empty, playing := none, priming := false, underrun := false, listeners := 0 }
            else { s.stream k with listeners := (s.stream k).listeners
              - (closed.filter fun p => (s.pos p).state.inCall && (s.pos p).stream = some k).length })
        ∧ t.eventsOf port.other = (u.assignPlayers.file port.other .peerReset (Port.number port) 0).eventsOf port.other
        ∧ (s.arbiter.bus ≠ none → u.assignPlayers.eventsOf port.other = u.eventsOf port.other)
        ∧ (s.callsSound →
            u.eventsOf port.other = (s.filed (s.resetFilings port passed closed streams)).eventsOf port.other)

/-! ## Memory arbiter -/

/-- R125, R126, R128 to R132: the grant, and the expiry of the refresh timer. That a read of a listed page sets the
alternation memory is log entry 12's, that such a page reaches its player at once log entry 25's, and that an expiry before
the part runs does nothing log entry 3's. R128, R164: a fetched page is placed in its player when the generations match, and
discarded otherwise. -/
def Obligations.GrantAndRefresh : Prop :=
  (∀ s, s.phase = .running → exec .refreshTimerExpiry s
    = .next (s.setArbiter { s.arbiter with owed := min 16 (s.arbiter.owed + 1) }).grant)
  ∧ (∀ s, s.phase ≠ .running → exec .refreshTimerExpiry s = .next s)
  ∧ (∀ (s : State) k w generation page index codes,
    let fetch := fun player : PlayerId => (⟨player, generation, page, index⟩ : Fetch)
    ((s.stream k).generation ≠ generation → s.deliver (fetch (.stream k)) codes = s)
    ∧ ((s.stream k).generation = generation → s.deliver (fetch (.stream k)) codes = s.streamArrival k index codes)
    ∧ ((s.player w).generation ≠ generation → s.deliver (fetch (.prompt w)) codes = s)
    ∧ ((s.player w).generation = generation → (s.player w).next ≠ .awaited → s.deliver (fetch (.prompt w)) codes = s)
    ∧ ∀ p e rest, (s.player w).generation = generation → (s.player w).next = .awaited →
      (s.player w).assigned = some p → s.queue p = e :: rest →
      s.deliver (fetch (.prompt w)) codes = s.setPlayer w { s.player w with
        next := .filled ⟨codes, if index + 1 = (s.clip e.clip).length then (s.clip e.clip).fill else 256⟩ })
  ∧ ∀ s : State,
    let a := s.arbiter
    let start := fun (op : BusOp) (t : State) => t.setArbiter { t.arbiter with bus := some op }
    let chosen := fun p => s.setArbiter { a with pendingOps := a.pendingOps.put p none, alternation := p }
    (a.bus ≠ none → s.grant = s)
    ∧ (a.bus = none → 8 ≤ a.owed → s.grant = s.setArbiter { a with bus := some .scrub, owed := a.owed - 1 })
    ∧ (a.bus = none → a.owed < 8 →
      (∀ f rest, a.queue = f :: rest →
        let t := s.setArbiter { a with queue := rest }
        (f.page ∉ a.badPages → s.grant = start (.fetch f) t)
        ∧ (f.page ∈ a.badPages → s.grant = (t.deliver f (Table.fill 256 s.silence)).grant))
      ∧ (a.queue = [] → a.pendingOps = ⟨none, none⟩ →
        (1 ≤ a.owed → s.grant = s.setArbiter { a with bus := some .scrub, owed := a.owed - 1 })
        ∧ (a.owed = 0 → s.grant = s))
      ∧ (a.queue = [] → ∀ p op, a.pendingOps.cell p = some op →
        (a.pendingOps.cell p.other = none ∨ (s.startUp.fairness = .cp0First ∧ p = .cp0)
          ∨ (s.startUp.fairness = .alternate ∧ a.alternation = p.other)) →
        (∀ clip index page codes noted, op = .write clip index page codes noted →
          s.grant = start (.port p op) (chosen p))
        ∧ (∀ clip index page, op = .read clip index page →
          (page ∉ a.badPages → s.grant = start (.port p op) (chosen p))
          ∧ (page ∈ a.badPages → s.grant = ((chosen p).answer p .ok ([numberByte clip] ++ (halfOf index).bytes
              ++ List.replicate 256 s.silence ++ [1])).grant))))

/-- R118, R119, R128, R130, R132 to R135: the completion of each operation on the bus, for a page that exists. A write puts
its codes into its page and changes no other byte, clears the page's errors, takes the page off the bad-page list and
replies; a fetch and a read hand on the page, or silence when it is uncorrectable; a scrub step advances the pointer, and
corrects or lists its page unless it is listed. An uncorrectable page files MEM_UNCORRECTABLE for each enabled port, with
what found it and whether it was listed, and BAD_LIST_FULL after it when it was not (R135); a noted write files CLIP_WRITTEN
(R107); the grant comes last, and chooses from the bus that the completion has freed (R124, R126). That the operation's own
records come first and those of the grant last is log entry 29's choice: no rule orders them. What befalls the page's words
since its last use comes as an operand (log entry 13), and reading changes nothing more in memory. -/
def Obligations.BusCompletions : Prop :=
  (∀ (s : State) page finder,
    let a := s.arbiter
    let both := fun (u : State) kind detail => (u.file .cp0 kind page detail).file .cp1 kind page detail
    (s.pageBad page = true ↔ ∃ w : Fin 32, s.memory.flaw (32 * page + w.val) = some .uncorrectable)
    ∧ (s.pageBad page = false → s.counted page finder
      = s.setArbiter { a with correctable := min 4294967295 (a.correctable + (s.pageFlaws page).length) })
    ∧ (s.pageBad page = true → page ∉ a.badPages → a.badPages.length < 16 → s.counted page finder
      = both (s.setArbiter { a with badPages := a.badPages ++ [page], uncorrectable := min 4294967295 (a.uncorrectable + 1) })
          .memUncorrectable (finder + 128))
    ∧ (s.pageBad page = true → page ∉ a.badPages → a.badPages.length = 16 → s.counted page finder
      = both (both (s.setArbiter { a with uncorrectable := min 4294967295 (a.uncorrectable + 1) })
          .memUncorrectable finder) .badListFull 16))
  ∧ (∀ s f upsets, s.arbiter.bus = some (.fetch f) → f.page < s.pageCount →
    let u := (s.setArbiter { s.arbiter with bus := none }).struck f.page upsets
    let codes := if u.pageBad f.page then Table.fill 256 s.silence else u.memory.readPage s.silence f.page
    exec (.pageFetchCompletion upsets) s
      = .next (((u.counted f.page (256 + match f.player with | .stream k => k.val | .prompt w => 16 + w.val)).deliver
          f codes).grant))
  ∧ (∀ s p clip index page codes noted code, s.arbiter.bus = some (.port p (.write clip index page codes noted)) →
    page < s.pageCount → (s.port p).inFlight = some code → s.arbiter.pendingOps.cell p = none →
    ∃ t, exec .portPageWriteCompletion s = .next t
      ∧ (∀ i : Fin 256, t.memory.readByte s.silence (256 * page + i.val) = codes.cell i)
      ∧ (∀ a, (a < 256 * page ∨ 256 * page + 256 ≤ a) → t.memory.readByte s.silence a = s.memory.readByte s.silence a)
      ∧ (∀ w : Fin 32, t.memory.flaw (32 * page + w.val) = none)
      ∧ (∀ w, (w < 32 * page ∨ 32 * page + 32 ≤ w) → t.memory.flaw w = s.memory.flaw w)
      ∧ t.arbiter.badPages = s.arbiter.badPages.filter (fun x => x ≠ page)
      ∧ (t.clip clip).writeBusy = (s.clip clip).writeBusy - 1 ∧ (t.clip clip).written = true
      ∧ (t.clip clip).accessed = ((s.clip clip).accessed || noted)
      ∧ t.port p = { s.port p with
          ready := true, inFlight := none, lastReply := some ⟨.ok, code, numberByte clip :: (halfOf index).bytes⟩ }
      ∧ ∃ u : State, t = u.grant ∧ Touches [.memory, .arbiter, .clipStore, .ports, .events] s u
        ∧ u.arbiter = { s.arbiter with bus := none, badPages := s.arbiter.badPages.filter fun x => x ≠ page }
        ∧ u.clipStore = { s.clipStore with clips := s.clipStore.clips.put clip { s.clip clip with
            writeBusy := (s.clip clip).writeBusy - 1, written := true, accessed := (s.clip clip).accessed || noted } }
        ∧ u.ports = s.ports.put p { s.port p with
            ready := true, inFlight := none, lastReply := some ⟨.ok, code, numberByte clip :: (halfOf index).bytes⟩ }
        ∧ u.events = (if noted then
          s.fileOwner (s.clip clip).owner .clipWritten clip.val (index + 0x8000 * Port.number p) else s).events)
  ∧ (∀ s p clip index page upsets code, s.arbiter.bus = some (.port p (.read clip index page)) →
    page < s.pageCount → (s.port p).inFlight = some code → s.arbiter.pendingOps.cell p = none →
    let u := s.struck page upsets
    let codes := if u.pageBad page then Table.fill 256 s.silence else u.memory.readPage s.silence page
    ∃ t, exec (.portPageReadCompletion upsets) s = .next t ∧ t.memory = u.memory
      ∧ t.port p = { s.port p with
          ready := true, inFlight := none
          lastReply := some ⟨.ok, code, [numberByte clip] ++ (halfOf index).bytes ++ codes.toList
            ++ [flagByte (u.pageBad page)]⟩ }
      ∧ ∃ v : State, t = v.grant ∧ Touches [.memory, .arbiter, .ports, .events] s v
        ∧ v.arbiter = { (u.counted page (512 + Port.number p)).arbiter with bus := none }
        ∧ v.ports = s.ports.put p { s.port p with
            ready := true, inFlight := none
            lastReply := some ⟨.ok, code, [numberByte clip] ++ (halfOf index).bytes ++ codes.toList
              ++ [flagByte (u.pageBad page)]⟩ }
        ∧ v.events = (u.counted page (512 + Port.number p)).events)
  ∧ ∀ s upsets, s.arbiter.bus = some .scrub → s.arbiter.scrubPointer < s.pageCount →
    let page := s.arbiter.scrubPointer
    let u := s.struck page upsets
    ∃ t, exec (.scrubStepCompletion upsets) s = .next t
      ∧ (page + 1 < s.pageCount → t.arbiter.scrubPointer = page + 1 ∧ t.arbiter.passes = s.arbiter.passes)
      ∧ (page + 1 = s.pageCount →
          t.arbiter.scrubPointer = 0 ∧ t.arbiter.passes = min 4294967295 (s.arbiter.passes + 1))
      ∧ (page ∈ s.arbiter.badPages → t.memory = s.memory ∧ t.arbiter.correctable = s.arbiter.correctable
          ∧ t.arbiter.uncorrectable = s.arbiter.uncorrectable ∧ t.arbiter.badPages = s.arbiter.badPages)
      ∧ (page ∉ s.arbiter.badPages → u.pageBad page = false →
          t.memory = u.memory.clearFlaws page ∧ t.arbiter.badPages = s.arbiter.badPages
          ∧ t.arbiter.uncorrectable = s.arbiter.uncorrectable
          ∧ t.arbiter.correctable = min 4294967295 (s.arbiter.correctable + (u.pageFlaws page).length))
      ∧ (page ∉ s.arbiter.badPages → u.pageBad page = true →
          t.memory = u.memory ∧ t.arbiter.correctable = s.arbiter.correctable
          ∧ t.arbiter.uncorrectable = min 4294967295 (s.arbiter.uncorrectable + 1)
          ∧ t.arbiter.badPages
              = if s.arbiter.badPages.length < 16 then s.arbiter.badPages ++ [page] else s.arbiter.badPages)
      ∧ ∃ v : State, t = v.grant ∧ Touches [.memory, .arbiter, .events] s v
        ∧ v.arbiter = { (if page ∈ s.arbiter.badPages then s else u.counted page 0).arbiter with
            bus := none
            scrubPointer := if page + 1 < s.pageCount then page + 1 else 0
            passes := if page + 1 < s.pageCount then s.arbiter.passes else min 4294967295 (s.arbiter.passes + 1) }
        ∧ v.events = (if page ∈ s.arbiter.badPages then s else u.counted page 0).events

/-! ## What holds at every moment -/

/-- Every invariant below holds right after pin reset. -/
def Obligations.InvariantsHoldAtReset : Prop :=
  let s := State.reset
  s.memorySound ∧ s.readyAgrees ∧ s.opsInFlight ∧ s.storesBounded ∧ s.badListSound ∧ s.scrubSound ∧ s.queuesBounded
    ∧ s.parametersLegal ∧ s.floorsSound ∧ s.segmentsSound ∧ s.tapsSound ∧ s.clipsSound ∧ s.playsExcludeWrites
    ∧ s.timeslotsSound ∧ s.callsSound ∧ s.listenersCounted ∧ s.playsCounted
    ∧ s.blocksLegal ∧ s.powerSound ∧ s.playersSound ∧ s.stoppedUnheard ∧ s.fetchesSound ∧ s.cursorsSound ∧ s.pagesSound

/-- R124, R138 (log entry 5): clip memory keeps its canonical form, and holds nothing until the part runs. -/
def Obligations.MemoryStaysSound : Prop :=
  ∀ s t, s.memorySound → step s = .next t → t.memorySound

/-- R129, R169, R171: READY tells whether a request is in flight, and a page operation belongs to one. -/
def Obligations.PortsStaySound : Prop :=
  ∀ s t, s.readyAgrees → s.opsInFlight → step s = .next t → t.readyAgrees ∧ t.opsInFlight

/-- R127, R131, R132, R134, R157, R182: event stores, lost counts, the bad-page list, the refresh owed count, the scrub pointer
and the whisper queues stay within their bounds; and at most one request of each player waits in the fetch queue, as long as
no generation comes round to that of an older fetch still on the bus. -/
def Obligations.BookkeepingStaysInBounds : Prop :=
  ∀ s t, step s = .next t →
    (s.storesBounded → t.storesBounded) ∧ (s.badListSound → t.badListSound) ∧ (s.scrubSound → t.scrubSound)
    ∧ (s.queuesBounded → t.queuesBounded) ∧ (s.fetchesSound → noneComesRound s t → t.fetchesSound)

/-- R21, R46, R57, R59, R62, R66, R93: every parameter, and everything the suppressor, the canceller and the mixer keep for a
position, stays within its range, and every floor at or above the Nmin of the profile its position names; and for the whole of
a call the running power is the exact energy of the newest L samples sent, and the window maximum their largest magnitude. -/
def Obligations.ParametersStayLegal : Prop :=
  ∀ s t, step s = .next t → (s.parametersLegal → t.parametersLegal) ∧ (s.floorsSound → t.floorsSound)
    ∧ (s.parametersLegal → s.segmentsSound → s.blocksLegal → s.powerSound → t.blocksLegal ∧ t.powerSound)

/-- R62 to R65: every segment stays free or held by exactly one position, an open position holds as many as its tail, and the
free segments stay listed in ascending order, so that the first ones are the lowest-numbered. -/
def Obligations.SegmentsStaySound : Prop :=
  ∀ s t, s.segmentsSound → step s = .next t → t.segmentsSound

/-- R96: the limits of the tap table hold at every moment. -/
def Obligations.TapsStaySound : Prop :=
  ∀ s t, s.tapsSound → step s = .next t → t.tapsSound

/-- R104, R105, R115, R124: the page ranges of clips stay disjoint and within memory, no clip is played and written at once,
and every page that waits to be fetched, written or read, or is on the bus, exists; so no run from reset reaches the stop of
log entry 24. -/
def Obligations.ClipsStaySound : Prop :=
  ∀ s t, step s = .next t → (s.clipsSound → t.clipsSound) ∧ (s.playsExcludeWrites → t.playsExcludeWrites)
    ∧ (s.clipsSound → s.playsCounted → s.playersSound → s.scrubSound → s.cursorsSound → s.pagesSound →
        t.cursorsSound ∧ t.pagesSound)

/-- R3, R5, R6, R7: timeslots stay bound as the positions' records say, and every frame in progress has a code for each of
its cycles. -/
def Obligations.TimeslotsStaySound : Prop :=
  ∀ s t, s.timeslotsSound → step s = .next t → t.timeslotsSound

/-- R21, R31, R33, R39, R152, R157, R162, R163: the records of the positions stay consistent with their queues, listener counts
count the positions that name a stream and a STOPPED stream has none, every PRIMING or SOUNDING head holds exactly one prompt
player, and no player is free while a head waits. -/
def Obligations.CallsStaySound : Prop :=
  ∀ s t, step s = .next t →
    (s.callsSound → t.callsSound ∧ (s.listenersCounted → t.listenersCounted))
    ∧ (s.stoppedUnheard → t.stoppedUnheard) ∧ (s.playersSound → t.playersSound)

/-- R115: a clip's play count stays the number of whisper entries and playlist items that name it. -/
def Obligations.PlayCountsCountReferences : Prop :=
  ∀ s t, s.playsCounted → step s = .next t → t.playsCounted
end

