-- ==== Sys2Proof/Laws/Tables.lean ====
section
/-! SUPPORT. Lemmas about fixed-length tables and per-port values. -/

namespace Sys2Proof

theorem Table.cell_put_same {n : Nat} {α : Type} (t : Table n α) (i : Fin n) (x : α) : (t.put i x).cell i = x := by
  simp [Table.put, Table.cell]

theorem Table.cell_put_other {n : Nat} {α : Type} (t : Table n α) (i j : Fin n) (x : α) (h : i ≠ j) :
    (t.put i x).cell j = t.cell j := by
  simp only [Table.put, Table.cell]
  exact Vector.getElem_set_ne _ _ (fun e => h (Fin.ext e))

theorem Table.cell_put {n : Nat} {α : Type} (t : Table n α) (i j : Fin n) (x : α) :
    (t.put i x).cell j = if i = j then x else t.cell j := by
  split
  · next h => subst h; exact t.cell_put_same i x
  · next h => exact t.cell_put_other i j x h

@[simp] theorem Table.cell_put_self {n : Nat} {α : Type} (t : Table n α) (i : Fin n) (x : α) :
    (t.put i x).cell i = x := t.cell_put_same i x

@[simp] theorem Table.put_put {n : Nat} {α : Type} (t : Table n α) (i : Fin n) (x y : α) :
    (t.put i x).put i y = t.put i y := by
  simp [Table.put]

@[simp] theorem Table.put_cell {n : Nat} {α : Type} (t : Table n α) (i : Fin n) : t.put i (t.cell i) = t := by
  simp [Table.put, Table.cell]

@[simp] theorem Table.cell_fill {n : Nat} {α : Type} (x : α) (i : Fin n) : (Table.fill n x).cell i = x := by
  simp [Table.fill, Table.cell]

@[simp] theorem Table.cell_build {n : Nat} {α : Type} (f : Fin n → α) (i : Fin n) : (Table.build f).cell i = f i := by
  simp [Table.build, Table.cell]

@[simp] theorem Table.cell_map {n : Nat} {α β : Type} (f : α → β) (t : Table n α) (i : Fin n) :
    Table.cell (Vector.map f t) i = f (t.cell i) := by
  simp [Table.cell]

theorem Table.ext_cell {n : Nat} {α : Type} {t u : Table n α} (h : ∀ i, t.cell i = u.cell i) : t = u := by
  apply Vector.ext
  intro i hi
  exact h ⟨i, hi⟩

theorem Table.cell_ofList {n : Nat} {α : Type} (d : α) (l : List α) (i : Fin n) :
    (Table.ofList n d l).cell i = l.getD i.val d := by
  simp [Table.ofList]

theorem number?_some {n : Nat} {b : Byte} {i : Fin n} (h : number? n b = some i) : b.toNat = i.val := by
  unfold number? at h
  split at h
  · next hb => simp only [Option.some.injEq] at h; subst h; rfl
  · cases h

theorem number?_none {n : Nat} {b : Byte} (h : n ≤ b.toNat) : number? n b = none := by
  simp [number?, Nat.not_lt.mpr h]

end Sys2Proof

namespace Sys2Proof.Machine

@[simp] theorem PerPort.cell_put_same {α : Type} (x : PerPort α) (p : Port) (v : α) : (x.put p v).cell p = v := by
  cases p <;> rfl

theorem PerPort.cell_put_other {α : Type} (x : PerPort α) (p q : Port) (v : α) (h : p ≠ q) :
    (x.put p v).cell q = x.cell q := by
  cases p <;> cases q <;> first | rfl | exact absurd rfl h

theorem PerPort.cell_put {α : Type} (x : PerPort α) (p q : Port) (v : α) :
    (x.put p v).cell q = if p = q then v else x.cell q := by
  cases p <;> cases q <;> rfl

@[simp] theorem PerPort.put_put {α : Type} (x : PerPort α) (p : Port) (v w : α) : (x.put p v).put p w = x.put p w := by
  cases p <;> rfl

@[simp] theorem PerPort.put_cell {α : Type} (x : PerPort α) (p : Port) : x.put p (x.cell p) = x := by
  cases p <;> rfl

end Sys2Proof.Machine
end

