-- ==== Sys2Proof/Laws/State.lean ====
section
/-! SUPPORT. One lemma for each field of the state under each elementary update: the field it replaces, and the
fields it leaves alone. All true by rfl. -/

namespace Sys2Proof.Machine

/-! ## setPos -/

@[simp] theorem State.setPos_phase (s : State) (p : Fin 64) (x : Position) : (s.setPos p x).phase = s.phase := rfl
@[simp] theorem State.setPos_startUp (s : State) (p : Fin 64) (x : Position) : (s.setPos p x).startUp = s.startUp := rfl
@[simp] theorem State.setPos_highway (s : State) (p : Fin 64) (x : Position) : (s.setPos p x).highway = s.highway := rfl
@[simp] theorem State.setPos_positions (s : State) (p : Fin 64) (x : Position) : (s.setPos p x).positions = s.positions.put p x := rfl
@[simp] theorem State.setPos_suppress (s : State) (p : Fin 64) (x : Position) : (s.setPos p x).suppress = s.suppress := rfl
@[simp] theorem State.setPos_echo (s : State) (p : Fin 64) (x : Position) : (s.setPos p x).echo = s.echo := rfl
@[simp] theorem State.setPos_mixer (s : State) (p : Fin 64) (x : Position) : (s.setPos p x).mixer = s.mixer := rfl
@[simp] theorem State.setPos_clipStore (s : State) (p : Fin 64) (x : Position) : (s.setPos p x).clipStore = s.clipStore := rfl
@[simp] theorem State.setPos_arbiter (s : State) (p : Fin 64) (x : Position) : (s.setPos p x).arbiter = s.arbiter := rfl
@[simp] theorem State.setPos_memory (s : State) (p : Fin 64) (x : Position) : (s.setPos p x).memory = s.memory := rfl
@[simp] theorem State.setPos_streams (s : State) (p : Fin 64) (x : Position) : (s.setPos p x).streams = s.streams := rfl
@[simp] theorem State.setPos_whisper (s : State) (p : Fin 64) (x : Position) : (s.setPos p x).whisper = s.whisper := rfl
@[simp] theorem State.setPos_ports (s : State) (p : Fin 64) (x : Position) : (s.setPos p x).ports = s.ports := rfl
@[simp] theorem State.setPos_events (s : State) (p : Fin 64) (x : Position) : (s.setPos p x).events = s.events := rfl
@[simp] theorem State.setPos_freeCount (s : State) (p : Fin 64) (x : Position) : (s.setPos p x).freeCount = s.freeCount := rfl
@[simp] theorem State.setPos_pending (s : State) (p : Fin 64) (x : Position) : (s.setPos p x).pending = s.pending := rfl

/-! ## setSuppressor -/

@[simp] theorem State.setSuppressor_phase (s : State) (p : Fin 64) (x : Suppressor) : (s.setSuppressor p x).phase = s.phase := rfl
@[simp] theorem State.setSuppressor_startUp (s : State) (p : Fin 64) (x : Suppressor) : (s.setSuppressor p x).startUp = s.startUp := rfl
@[simp] theorem State.setSuppressor_highway (s : State) (p : Fin 64) (x : Suppressor) : (s.setSuppressor p x).highway = s.highway := rfl
@[simp] theorem State.setSuppressor_positions (s : State) (p : Fin 64) (x : Suppressor) : (s.setSuppressor p x).positions = s.positions := rfl
@[simp] theorem State.setSuppressor_suppress (s : State) (p : Fin 64) (x : Suppressor) : (s.setSuppressor p x).suppress = { s.suppress with positions := s.suppress.positions.put p x } := rfl
@[simp] theorem State.setSuppressor_echo (s : State) (p : Fin 64) (x : Suppressor) : (s.setSuppressor p x).echo = s.echo := rfl
@[simp] theorem State.setSuppressor_mixer (s : State) (p : Fin 64) (x : Suppressor) : (s.setSuppressor p x).mixer = s.mixer := rfl
@[simp] theorem State.setSuppressor_clipStore (s : State) (p : Fin 64) (x : Suppressor) : (s.setSuppressor p x).clipStore = s.clipStore := rfl
@[simp] theorem State.setSuppressor_arbiter (s : State) (p : Fin 64) (x : Suppressor) : (s.setSuppressor p x).arbiter = s.arbiter := rfl
@[simp] theorem State.setSuppressor_memory (s : State) (p : Fin 64) (x : Suppressor) : (s.setSuppressor p x).memory = s.memory := rfl
@[simp] theorem State.setSuppressor_streams (s : State) (p : Fin 64) (x : Suppressor) : (s.setSuppressor p x).streams = s.streams := rfl
@[simp] theorem State.setSuppressor_whisper (s : State) (p : Fin 64) (x : Suppressor) : (s.setSuppressor p x).whisper = s.whisper := rfl
@[simp] theorem State.setSuppressor_ports (s : State) (p : Fin 64) (x : Suppressor) : (s.setSuppressor p x).ports = s.ports := rfl
@[simp] theorem State.setSuppressor_events (s : State) (p : Fin 64) (x : Suppressor) : (s.setSuppressor p x).events = s.events := rfl
@[simp] theorem State.setSuppressor_freeCount (s : State) (p : Fin 64) (x : Suppressor) : (s.setSuppressor p x).freeCount = s.freeCount := rfl
@[simp] theorem State.setSuppressor_pending (s : State) (p : Fin 64) (x : Suppressor) : (s.setSuppressor p x).pending = s.pending := rfl

/-! ## setCanceller -/

@[simp] theorem State.setCanceller_phase (s : State) (p : Fin 64) (x : Canceller) : (s.setCanceller p x).phase = s.phase := rfl
@[simp] theorem State.setCanceller_startUp (s : State) (p : Fin 64) (x : Canceller) : (s.setCanceller p x).startUp = s.startUp := rfl
@[simp] theorem State.setCanceller_highway (s : State) (p : Fin 64) (x : Canceller) : (s.setCanceller p x).highway = s.highway := rfl
@[simp] theorem State.setCanceller_positions (s : State) (p : Fin 64) (x : Canceller) : (s.setCanceller p x).positions = s.positions := rfl
@[simp] theorem State.setCanceller_suppress (s : State) (p : Fin 64) (x : Canceller) : (s.setCanceller p x).suppress = s.suppress := rfl
@[simp] theorem State.setCanceller_echo (s : State) (p : Fin 64) (x : Canceller) : (s.setCanceller p x).echo = { s.echo with positions := s.echo.positions.put p x } := rfl
@[simp] theorem State.setCanceller_mixer (s : State) (p : Fin 64) (x : Canceller) : (s.setCanceller p x).mixer = s.mixer := rfl
@[simp] theorem State.setCanceller_clipStore (s : State) (p : Fin 64) (x : Canceller) : (s.setCanceller p x).clipStore = s.clipStore := rfl
@[simp] theorem State.setCanceller_arbiter (s : State) (p : Fin 64) (x : Canceller) : (s.setCanceller p x).arbiter = s.arbiter := rfl
@[simp] theorem State.setCanceller_memory (s : State) (p : Fin 64) (x : Canceller) : (s.setCanceller p x).memory = s.memory := rfl
@[simp] theorem State.setCanceller_streams (s : State) (p : Fin 64) (x : Canceller) : (s.setCanceller p x).streams = s.streams := rfl
@[simp] theorem State.setCanceller_whisper (s : State) (p : Fin 64) (x : Canceller) : (s.setCanceller p x).whisper = s.whisper := rfl
@[simp] theorem State.setCanceller_ports (s : State) (p : Fin 64) (x : Canceller) : (s.setCanceller p x).ports = s.ports := rfl
@[simp] theorem State.setCanceller_events (s : State) (p : Fin 64) (x : Canceller) : (s.setCanceller p x).events = s.events := rfl
@[simp] theorem State.setCanceller_freeCount (s : State) (p : Fin 64) (x : Canceller) : (s.setCanceller p x).freeCount = s.freeCount := rfl
@[simp] theorem State.setCanceller_pending (s : State) (p : Fin 64) (x : Canceller) : (s.setCanceller p x).pending = s.pending := rfl

/-! ## setTap -/

@[simp] theorem State.setTap_phase (s : State) (t : Fin 16) (x : Option Tap) : (s.setTap t x).phase = s.phase := rfl
@[simp] theorem State.setTap_startUp (s : State) (t : Fin 16) (x : Option Tap) : (s.setTap t x).startUp = s.startUp := rfl
@[simp] theorem State.setTap_highway (s : State) (t : Fin 16) (x : Option Tap) : (s.setTap t x).highway = s.highway := rfl
@[simp] theorem State.setTap_positions (s : State) (t : Fin 16) (x : Option Tap) : (s.setTap t x).positions = s.positions := rfl
@[simp] theorem State.setTap_suppress (s : State) (t : Fin 16) (x : Option Tap) : (s.setTap t x).suppress = s.suppress := rfl
@[simp] theorem State.setTap_echo (s : State) (t : Fin 16) (x : Option Tap) : (s.setTap t x).echo = s.echo := rfl
@[simp] theorem State.setTap_mixer (s : State) (t : Fin 16) (x : Option Tap) : (s.setTap t x).mixer = { s.mixer with taps := s.mixer.taps.put t x } := rfl
@[simp] theorem State.setTap_clipStore (s : State) (t : Fin 16) (x : Option Tap) : (s.setTap t x).clipStore = s.clipStore := rfl
@[simp] theorem State.setTap_arbiter (s : State) (t : Fin 16) (x : Option Tap) : (s.setTap t x).arbiter = s.arbiter := rfl
@[simp] theorem State.setTap_memory (s : State) (t : Fin 16) (x : Option Tap) : (s.setTap t x).memory = s.memory := rfl
@[simp] theorem State.setTap_streams (s : State) (t : Fin 16) (x : Option Tap) : (s.setTap t x).streams = s.streams := rfl
@[simp] theorem State.setTap_whisper (s : State) (t : Fin 16) (x : Option Tap) : (s.setTap t x).whisper = s.whisper := rfl
@[simp] theorem State.setTap_ports (s : State) (t : Fin 16) (x : Option Tap) : (s.setTap t x).ports = s.ports := rfl
@[simp] theorem State.setTap_events (s : State) (t : Fin 16) (x : Option Tap) : (s.setTap t x).events = s.events := rfl
@[simp] theorem State.setTap_freeCount (s : State) (t : Fin 16) (x : Option Tap) : (s.setTap t x).freeCount = s.freeCount := rfl
@[simp] theorem State.setTap_pending (s : State) (t : Fin 16) (x : Option Tap) : (s.setTap t x).pending = s.pending := rfl

/-! ## setCoachDuck -/

@[simp] theorem State.setCoachDuck_phase (s : State) (p : Fin 64) (n : Nat) : (s.setCoachDuck p n).phase = s.phase := rfl
@[simp] theorem State.setCoachDuck_startUp (s : State) (p : Fin 64) (n : Nat) : (s.setCoachDuck p n).startUp = s.startUp := rfl
@[simp] theorem State.setCoachDuck_highway (s : State) (p : Fin 64) (n : Nat) : (s.setCoachDuck p n).highway = s.highway := rfl
@[simp] theorem State.setCoachDuck_positions (s : State) (p : Fin 64) (n : Nat) : (s.setCoachDuck p n).positions = s.positions := rfl
@[simp] theorem State.setCoachDuck_suppress (s : State) (p : Fin 64) (n : Nat) : (s.setCoachDuck p n).suppress = s.suppress := rfl
@[simp] theorem State.setCoachDuck_echo (s : State) (p : Fin 64) (n : Nat) : (s.setCoachDuck p n).echo = s.echo := rfl
@[simp] theorem State.setCoachDuck_mixer (s : State) (p : Fin 64) (n : Nat) : (s.setCoachDuck p n).mixer = { s.mixer with coachDuck := s.mixer.coachDuck.put p n } := rfl
@[simp] theorem State.setCoachDuck_clipStore (s : State) (p : Fin 64) (n : Nat) : (s.setCoachDuck p n).clipStore = s.clipStore := rfl
@[simp] theorem State.setCoachDuck_arbiter (s : State) (p : Fin 64) (n : Nat) : (s.setCoachDuck p n).arbiter = s.arbiter := rfl
@[simp] theorem State.setCoachDuck_memory (s : State) (p : Fin 64) (n : Nat) : (s.setCoachDuck p n).memory = s.memory := rfl
@[simp] theorem State.setCoachDuck_streams (s : State) (p : Fin 64) (n : Nat) : (s.setCoachDuck p n).streams = s.streams := rfl
@[simp] theorem State.setCoachDuck_whisper (s : State) (p : Fin 64) (n : Nat) : (s.setCoachDuck p n).whisper = s.whisper := rfl
@[simp] theorem State.setCoachDuck_ports (s : State) (p : Fin 64) (n : Nat) : (s.setCoachDuck p n).ports = s.ports := rfl
@[simp] theorem State.setCoachDuck_events (s : State) (p : Fin 64) (n : Nat) : (s.setCoachDuck p n).events = s.events := rfl
@[simp] theorem State.setCoachDuck_freeCount (s : State) (p : Fin 64) (n : Nat) : (s.setCoachDuck p n).freeCount = s.freeCount := rfl
@[simp] theorem State.setCoachDuck_pending (s : State) (p : Fin 64) (n : Nat) : (s.setCoachDuck p n).pending = s.pending := rfl

/-! ## setClip -/

@[simp] theorem State.setClip_phase (s : State) (c : Fin 256) (x : Clip) : (s.setClip c x).phase = s.phase := rfl
@[simp] theorem State.setClip_startUp (s : State) (c : Fin 256) (x : Clip) : (s.setClip c x).startUp = s.startUp := rfl
@[simp] theorem State.setClip_highway (s : State) (c : Fin 256) (x : Clip) : (s.setClip c x).highway = s.highway := rfl
@[simp] theorem State.setClip_positions (s : State) (c : Fin 256) (x : Clip) : (s.setClip c x).positions = s.positions := rfl
@[simp] theorem State.setClip_suppress (s : State) (c : Fin 256) (x : Clip) : (s.setClip c x).suppress = s.suppress := rfl
@[simp] theorem State.setClip_echo (s : State) (c : Fin 256) (x : Clip) : (s.setClip c x).echo = s.echo := rfl
@[simp] theorem State.setClip_mixer (s : State) (c : Fin 256) (x : Clip) : (s.setClip c x).mixer = s.mixer := rfl
@[simp] theorem State.setClip_clipStore (s : State) (c : Fin 256) (x : Clip) : (s.setClip c x).clipStore = { s.clipStore with clips := s.clipStore.clips.put c x } := rfl
@[simp] theorem State.setClip_arbiter (s : State) (c : Fin 256) (x : Clip) : (s.setClip c x).arbiter = s.arbiter := rfl
@[simp] theorem State.setClip_memory (s : State) (c : Fin 256) (x : Clip) : (s.setClip c x).memory = s.memory := rfl
@[simp] theorem State.setClip_streams (s : State) (c : Fin 256) (x : Clip) : (s.setClip c x).streams = s.streams := rfl
@[simp] theorem State.setClip_whisper (s : State) (c : Fin 256) (x : Clip) : (s.setClip c x).whisper = s.whisper := rfl
@[simp] theorem State.setClip_ports (s : State) (c : Fin 256) (x : Clip) : (s.setClip c x).ports = s.ports := rfl
@[simp] theorem State.setClip_events (s : State) (c : Fin 256) (x : Clip) : (s.setClip c x).events = s.events := rfl
@[simp] theorem State.setClip_freeCount (s : State) (c : Fin 256) (x : Clip) : (s.setClip c x).freeCount = s.freeCount := rfl
@[simp] theorem State.setClip_pending (s : State) (c : Fin 256) (x : Clip) : (s.setClip c x).pending = s.pending := rfl

/-! ## setFault -/

@[simp] theorem State.setFault_phase (s : State) (p : Port) (x : FaultState) : (s.setFault p x).phase = s.phase := rfl
@[simp] theorem State.setFault_startUp (s : State) (p : Port) (x : FaultState) : (s.setFault p x).startUp = s.startUp := rfl
@[simp] theorem State.setFault_highway (s : State) (p : Port) (x : FaultState) : (s.setFault p x).highway = s.highway := rfl
@[simp] theorem State.setFault_positions (s : State) (p : Port) (x : FaultState) : (s.setFault p x).positions = s.positions := rfl
@[simp] theorem State.setFault_suppress (s : State) (p : Port) (x : FaultState) : (s.setFault p x).suppress = s.suppress := rfl
@[simp] theorem State.setFault_echo (s : State) (p : Port) (x : FaultState) : (s.setFault p x).echo = s.echo := rfl
@[simp] theorem State.setFault_mixer (s : State) (p : Port) (x : FaultState) : (s.setFault p x).mixer = s.mixer := rfl
@[simp] theorem State.setFault_clipStore (s : State) (p : Port) (x : FaultState) : (s.setFault p x).clipStore = { s.clipStore with faults := s.clipStore.faults.put p x } := rfl
@[simp] theorem State.setFault_arbiter (s : State) (p : Port) (x : FaultState) : (s.setFault p x).arbiter = s.arbiter := rfl
@[simp] theorem State.setFault_memory (s : State) (p : Port) (x : FaultState) : (s.setFault p x).memory = s.memory := rfl
@[simp] theorem State.setFault_streams (s : State) (p : Port) (x : FaultState) : (s.setFault p x).streams = s.streams := rfl
@[simp] theorem State.setFault_whisper (s : State) (p : Port) (x : FaultState) : (s.setFault p x).whisper = s.whisper := rfl
@[simp] theorem State.setFault_ports (s : State) (p : Port) (x : FaultState) : (s.setFault p x).ports = s.ports := rfl
@[simp] theorem State.setFault_events (s : State) (p : Port) (x : FaultState) : (s.setFault p x).events = s.events := rfl
@[simp] theorem State.setFault_freeCount (s : State) (p : Port) (x : FaultState) : (s.setFault p x).freeCount = s.freeCount := rfl
@[simp] theorem State.setFault_pending (s : State) (p : Port) (x : FaultState) : (s.setFault p x).pending = s.pending := rfl

/-! ## setStream -/

@[simp] theorem State.setStream_phase (s : State) (k : Fin 16) (x : Stream) : (s.setStream k x).phase = s.phase := rfl
@[simp] theorem State.setStream_startUp (s : State) (k : Fin 16) (x : Stream) : (s.setStream k x).startUp = s.startUp := rfl
@[simp] theorem State.setStream_highway (s : State) (k : Fin 16) (x : Stream) : (s.setStream k x).highway = s.highway := rfl
@[simp] theorem State.setStream_positions (s : State) (k : Fin 16) (x : Stream) : (s.setStream k x).positions = s.positions := rfl
@[simp] theorem State.setStream_suppress (s : State) (k : Fin 16) (x : Stream) : (s.setStream k x).suppress = s.suppress := rfl
@[simp] theorem State.setStream_echo (s : State) (k : Fin 16) (x : Stream) : (s.setStream k x).echo = s.echo := rfl
@[simp] theorem State.setStream_mixer (s : State) (k : Fin 16) (x : Stream) : (s.setStream k x).mixer = s.mixer := rfl
@[simp] theorem State.setStream_clipStore (s : State) (k : Fin 16) (x : Stream) : (s.setStream k x).clipStore = s.clipStore := rfl
@[simp] theorem State.setStream_arbiter (s : State) (k : Fin 16) (x : Stream) : (s.setStream k x).arbiter = s.arbiter := rfl
@[simp] theorem State.setStream_memory (s : State) (k : Fin 16) (x : Stream) : (s.setStream k x).memory = s.memory := rfl
@[simp] theorem State.setStream_streams (s : State) (k : Fin 16) (x : Stream) : (s.setStream k x).streams = s.streams.put k x := rfl
@[simp] theorem State.setStream_whisper (s : State) (k : Fin 16) (x : Stream) : (s.setStream k x).whisper = s.whisper := rfl
@[simp] theorem State.setStream_ports (s : State) (k : Fin 16) (x : Stream) : (s.setStream k x).ports = s.ports := rfl
@[simp] theorem State.setStream_events (s : State) (k : Fin 16) (x : Stream) : (s.setStream k x).events = s.events := rfl
@[simp] theorem State.setStream_freeCount (s : State) (k : Fin 16) (x : Stream) : (s.setStream k x).freeCount = s.freeCount := rfl
@[simp] theorem State.setStream_pending (s : State) (k : Fin 16) (x : Stream) : (s.setStream k x).pending = s.pending := rfl

/-! ## setQueue -/

@[simp] theorem State.setQueue_phase (s : State) (p : Fin 64) (q : List Entry) : (s.setQueue p q).phase = s.phase := rfl
@[simp] theorem State.setQueue_startUp (s : State) (p : Fin 64) (q : List Entry) : (s.setQueue p q).startUp = s.startUp := rfl
@[simp] theorem State.setQueue_highway (s : State) (p : Fin 64) (q : List Entry) : (s.setQueue p q).highway = s.highway := rfl
@[simp] theorem State.setQueue_positions (s : State) (p : Fin 64) (q : List Entry) : (s.setQueue p q).positions = s.positions := rfl
@[simp] theorem State.setQueue_suppress (s : State) (p : Fin 64) (q : List Entry) : (s.setQueue p q).suppress = s.suppress := rfl
@[simp] theorem State.setQueue_echo (s : State) (p : Fin 64) (q : List Entry) : (s.setQueue p q).echo = s.echo := rfl
@[simp] theorem State.setQueue_mixer (s : State) (p : Fin 64) (q : List Entry) : (s.setQueue p q).mixer = s.mixer := rfl
@[simp] theorem State.setQueue_clipStore (s : State) (p : Fin 64) (q : List Entry) : (s.setQueue p q).clipStore = s.clipStore := rfl
@[simp] theorem State.setQueue_arbiter (s : State) (p : Fin 64) (q : List Entry) : (s.setQueue p q).arbiter = s.arbiter := rfl
@[simp] theorem State.setQueue_memory (s : State) (p : Fin 64) (q : List Entry) : (s.setQueue p q).memory = s.memory := rfl
@[simp] theorem State.setQueue_streams (s : State) (p : Fin 64) (q : List Entry) : (s.setQueue p q).streams = s.streams := rfl
@[simp] theorem State.setQueue_whisper (s : State) (p : Fin 64) (q : List Entry) : (s.setQueue p q).whisper = { s.whisper with queues := s.whisper.queues.put p q } := rfl
@[simp] theorem State.setQueue_ports (s : State) (p : Fin 64) (q : List Entry) : (s.setQueue p q).ports = s.ports := rfl
@[simp] theorem State.setQueue_events (s : State) (p : Fin 64) (q : List Entry) : (s.setQueue p q).events = s.events := rfl
@[simp] theorem State.setQueue_freeCount (s : State) (p : Fin 64) (q : List Entry) : (s.setQueue p q).freeCount = s.freeCount := rfl
@[simp] theorem State.setQueue_pending (s : State) (p : Fin 64) (q : List Entry) : (s.setQueue p q).pending = s.pending := rfl

/-! ## setPlayer -/

@[simp] theorem State.setPlayer_phase (s : State) (w : Fin 16) (x : PromptPlayer) : (s.setPlayer w x).phase = s.phase := rfl
@[simp] theorem State.setPlayer_startUp (s : State) (w : Fin 16) (x : PromptPlayer) : (s.setPlayer w x).startUp = s.startUp := rfl
@[simp] theorem State.setPlayer_highway (s : State) (w : Fin 16) (x : PromptPlayer) : (s.setPlayer w x).highway = s.highway := rfl
@[simp] theorem State.setPlayer_positions (s : State) (w : Fin 16) (x : PromptPlayer) : (s.setPlayer w x).positions = s.positions := rfl
@[simp] theorem State.setPlayer_suppress (s : State) (w : Fin 16) (x : PromptPlayer) : (s.setPlayer w x).suppress = s.suppress := rfl
@[simp] theorem State.setPlayer_echo (s : State) (w : Fin 16) (x : PromptPlayer) : (s.setPlayer w x).echo = s.echo := rfl
@[simp] theorem State.setPlayer_mixer (s : State) (w : Fin 16) (x : PromptPlayer) : (s.setPlayer w x).mixer = s.mixer := rfl
@[simp] theorem State.setPlayer_clipStore (s : State) (w : Fin 16) (x : PromptPlayer) : (s.setPlayer w x).clipStore = s.clipStore := rfl
@[simp] theorem State.setPlayer_arbiter (s : State) (w : Fin 16) (x : PromptPlayer) : (s.setPlayer w x).arbiter = s.arbiter := rfl
@[simp] theorem State.setPlayer_memory (s : State) (w : Fin 16) (x : PromptPlayer) : (s.setPlayer w x).memory = s.memory := rfl
@[simp] theorem State.setPlayer_streams (s : State) (w : Fin 16) (x : PromptPlayer) : (s.setPlayer w x).streams = s.streams := rfl
@[simp] theorem State.setPlayer_whisper (s : State) (w : Fin 16) (x : PromptPlayer) : (s.setPlayer w x).whisper = { s.whisper with players := s.whisper.players.put w x } := rfl
@[simp] theorem State.setPlayer_ports (s : State) (w : Fin 16) (x : PromptPlayer) : (s.setPlayer w x).ports = s.ports := rfl
@[simp] theorem State.setPlayer_events (s : State) (w : Fin 16) (x : PromptPlayer) : (s.setPlayer w x).events = s.events := rfl
@[simp] theorem State.setPlayer_freeCount (s : State) (w : Fin 16) (x : PromptPlayer) : (s.setPlayer w x).freeCount = s.freeCount := rfl
@[simp] theorem State.setPlayer_pending (s : State) (w : Fin 16) (x : PromptPlayer) : (s.setPlayer w x).pending = s.pending := rfl

/-! ## setPort -/

@[simp] theorem State.setPort_phase (s : State) (p : Port) (x : PortState) : (s.setPort p x).phase = s.phase := rfl
@[simp] theorem State.setPort_startUp (s : State) (p : Port) (x : PortState) : (s.setPort p x).startUp = s.startUp := rfl
@[simp] theorem State.setPort_highway (s : State) (p : Port) (x : PortState) : (s.setPort p x).highway = s.highway := rfl
@[simp] theorem State.setPort_positions (s : State) (p : Port) (x : PortState) : (s.setPort p x).positions = s.positions := rfl
@[simp] theorem State.setPort_suppress (s : State) (p : Port) (x : PortState) : (s.setPort p x).suppress = s.suppress := rfl
@[simp] theorem State.setPort_echo (s : State) (p : Port) (x : PortState) : (s.setPort p x).echo = s.echo := rfl
@[simp] theorem State.setPort_mixer (s : State) (p : Port) (x : PortState) : (s.setPort p x).mixer = s.mixer := rfl
@[simp] theorem State.setPort_clipStore (s : State) (p : Port) (x : PortState) : (s.setPort p x).clipStore = s.clipStore := rfl
@[simp] theorem State.setPort_arbiter (s : State) (p : Port) (x : PortState) : (s.setPort p x).arbiter = s.arbiter := rfl
@[simp] theorem State.setPort_memory (s : State) (p : Port) (x : PortState) : (s.setPort p x).memory = s.memory := rfl
@[simp] theorem State.setPort_streams (s : State) (p : Port) (x : PortState) : (s.setPort p x).streams = s.streams := rfl
@[simp] theorem State.setPort_whisper (s : State) (p : Port) (x : PortState) : (s.setPort p x).whisper = s.whisper := rfl
@[simp] theorem State.setPort_ports (s : State) (p : Port) (x : PortState) : (s.setPort p x).ports = s.ports.put p x := rfl
@[simp] theorem State.setPort_events (s : State) (p : Port) (x : PortState) : (s.setPort p x).events = s.events := rfl
@[simp] theorem State.setPort_freeCount (s : State) (p : Port) (x : PortState) : (s.setPort p x).freeCount = s.freeCount := rfl
@[simp] theorem State.setPort_pending (s : State) (p : Port) (x : PortState) : (s.setPort p x).pending = s.pending := rfl

/-! ## setEvents -/

@[simp] theorem State.setEvents_phase (s : State) (p : Port) (x : EventState) : (s.setEvents p x).phase = s.phase := rfl
@[simp] theorem State.setEvents_startUp (s : State) (p : Port) (x : EventState) : (s.setEvents p x).startUp = s.startUp := rfl
@[simp] theorem State.setEvents_highway (s : State) (p : Port) (x : EventState) : (s.setEvents p x).highway = s.highway := rfl
@[simp] theorem State.setEvents_positions (s : State) (p : Port) (x : EventState) : (s.setEvents p x).positions = s.positions := rfl
@[simp] theorem State.setEvents_suppress (s : State) (p : Port) (x : EventState) : (s.setEvents p x).suppress = s.suppress := rfl
@[simp] theorem State.setEvents_echo (s : State) (p : Port) (x : EventState) : (s.setEvents p x).echo = s.echo := rfl
@[simp] theorem State.setEvents_mixer (s : State) (p : Port) (x : EventState) : (s.setEvents p x).mixer = s.mixer := rfl
@[simp] theorem State.setEvents_clipStore (s : State) (p : Port) (x : EventState) : (s.setEvents p x).clipStore = s.clipStore := rfl
@[simp] theorem State.setEvents_arbiter (s : State) (p : Port) (x : EventState) : (s.setEvents p x).arbiter = s.arbiter := rfl
@[simp] theorem State.setEvents_memory (s : State) (p : Port) (x : EventState) : (s.setEvents p x).memory = s.memory := rfl
@[simp] theorem State.setEvents_streams (s : State) (p : Port) (x : EventState) : (s.setEvents p x).streams = s.streams := rfl
@[simp] theorem State.setEvents_whisper (s : State) (p : Port) (x : EventState) : (s.setEvents p x).whisper = s.whisper := rfl
@[simp] theorem State.setEvents_ports (s : State) (p : Port) (x : EventState) : (s.setEvents p x).ports = s.ports := rfl
@[simp] theorem State.setEvents_events (s : State) (p : Port) (x : EventState) : (s.setEvents p x).events = s.events.put p x := rfl
@[simp] theorem State.setEvents_freeCount (s : State) (p : Port) (x : EventState) : (s.setEvents p x).freeCount = s.freeCount := rfl
@[simp] theorem State.setEvents_pending (s : State) (p : Port) (x : EventState) : (s.setEvents p x).pending = s.pending := rfl

/-! ## setArbiter -/

@[simp] theorem State.setArbiter_phase (s : State) (x : Arbiter) : (s.setArbiter x).phase = s.phase := rfl
@[simp] theorem State.setArbiter_startUp (s : State) (x : Arbiter) : (s.setArbiter x).startUp = s.startUp := rfl
@[simp] theorem State.setArbiter_highway (s : State) (x : Arbiter) : (s.setArbiter x).highway = s.highway := rfl
@[simp] theorem State.setArbiter_positions (s : State) (x : Arbiter) : (s.setArbiter x).positions = s.positions := rfl
@[simp] theorem State.setArbiter_suppress (s : State) (x : Arbiter) : (s.setArbiter x).suppress = s.suppress := rfl
@[simp] theorem State.setArbiter_echo (s : State) (x : Arbiter) : (s.setArbiter x).echo = s.echo := rfl
@[simp] theorem State.setArbiter_mixer (s : State) (x : Arbiter) : (s.setArbiter x).mixer = s.mixer := rfl
@[simp] theorem State.setArbiter_clipStore (s : State) (x : Arbiter) : (s.setArbiter x).clipStore = s.clipStore := rfl
@[simp] theorem State.setArbiter_arbiter (s : State) (x : Arbiter) : (s.setArbiter x).arbiter = x := rfl
@[simp] theorem State.setArbiter_memory (s : State) (x : Arbiter) : (s.setArbiter x).memory = s.memory := rfl
@[simp] theorem State.setArbiter_streams (s : State) (x : Arbiter) : (s.setArbiter x).streams = s.streams := rfl
@[simp] theorem State.setArbiter_whisper (s : State) (x : Arbiter) : (s.setArbiter x).whisper = s.whisper := rfl
@[simp] theorem State.setArbiter_ports (s : State) (x : Arbiter) : (s.setArbiter x).ports = s.ports := rfl
@[simp] theorem State.setArbiter_events (s : State) (x : Arbiter) : (s.setArbiter x).events = s.events := rfl
@[simp] theorem State.setArbiter_freeCount (s : State) (x : Arbiter) : (s.setArbiter x).freeCount = s.freeCount := rfl
@[simp] theorem State.setArbiter_pending (s : State) (x : Arbiter) : (s.setArbiter x).pending = s.pending := rfl

/-! ## setMemory -/

@[simp] theorem State.setMemory_phase (s : State) (x : Memory) : (s.setMemory x).phase = s.phase := rfl
@[simp] theorem State.setMemory_startUp (s : State) (x : Memory) : (s.setMemory x).startUp = s.startUp := rfl
@[simp] theorem State.setMemory_highway (s : State) (x : Memory) : (s.setMemory x).highway = s.highway := rfl
@[simp] theorem State.setMemory_positions (s : State) (x : Memory) : (s.setMemory x).positions = s.positions := rfl
@[simp] theorem State.setMemory_suppress (s : State) (x : Memory) : (s.setMemory x).suppress = s.suppress := rfl
@[simp] theorem State.setMemory_echo (s : State) (x : Memory) : (s.setMemory x).echo = s.echo := rfl
@[simp] theorem State.setMemory_mixer (s : State) (x : Memory) : (s.setMemory x).mixer = s.mixer := rfl
@[simp] theorem State.setMemory_clipStore (s : State) (x : Memory) : (s.setMemory x).clipStore = s.clipStore := rfl
@[simp] theorem State.setMemory_arbiter (s : State) (x : Memory) : (s.setMemory x).arbiter = s.arbiter := rfl
@[simp] theorem State.setMemory_memory (s : State) (x : Memory) : (s.setMemory x).memory = x := rfl
@[simp] theorem State.setMemory_streams (s : State) (x : Memory) : (s.setMemory x).streams = s.streams := rfl
@[simp] theorem State.setMemory_whisper (s : State) (x : Memory) : (s.setMemory x).whisper = s.whisper := rfl
@[simp] theorem State.setMemory_ports (s : State) (x : Memory) : (s.setMemory x).ports = s.ports := rfl
@[simp] theorem State.setMemory_events (s : State) (x : Memory) : (s.setMemory x).events = s.events := rfl
@[simp] theorem State.setMemory_freeCount (s : State) (x : Memory) : (s.setMemory x).freeCount = s.freeCount := rfl
@[simp] theorem State.setMemory_pending (s : State) (x : Memory) : (s.setMemory x).pending = s.pending := rfl

/-! ## setAgentLine -/

@[simp] theorem State.setAgentLine_phase (s : State) (a : Fin 64) (x : Option Line) : (s.setAgentLine a x).phase = s.phase := rfl
@[simp] theorem State.setAgentLine_startUp (s : State) (a : Fin 64) (x : Option Line) : (s.setAgentLine a x).startUp = s.startUp := rfl
@[simp] theorem State.setAgentLine_highway (s : State) (a : Fin 64) (x : Option Line) : (s.setAgentLine a x).highway = { s.highway with agent := s.highway.agent.put a x } := rfl
@[simp] theorem State.setAgentLine_positions (s : State) (a : Fin 64) (x : Option Line) : (s.setAgentLine a x).positions = s.positions := rfl
@[simp] theorem State.setAgentLine_suppress (s : State) (a : Fin 64) (x : Option Line) : (s.setAgentLine a x).suppress = s.suppress := rfl
@[simp] theorem State.setAgentLine_echo (s : State) (a : Fin 64) (x : Option Line) : (s.setAgentLine a x).echo = s.echo := rfl
@[simp] theorem State.setAgentLine_mixer (s : State) (a : Fin 64) (x : Option Line) : (s.setAgentLine a x).mixer = s.mixer := rfl
@[simp] theorem State.setAgentLine_clipStore (s : State) (a : Fin 64) (x : Option Line) : (s.setAgentLine a x).clipStore = s.clipStore := rfl
@[simp] theorem State.setAgentLine_arbiter (s : State) (a : Fin 64) (x : Option Line) : (s.setAgentLine a x).arbiter = s.arbiter := rfl
@[simp] theorem State.setAgentLine_memory (s : State) (a : Fin 64) (x : Option Line) : (s.setAgentLine a x).memory = s.memory := rfl
@[simp] theorem State.setAgentLine_streams (s : State) (a : Fin 64) (x : Option Line) : (s.setAgentLine a x).streams = s.streams := rfl
@[simp] theorem State.setAgentLine_whisper (s : State) (a : Fin 64) (x : Option Line) : (s.setAgentLine a x).whisper = s.whisper := rfl
@[simp] theorem State.setAgentLine_ports (s : State) (a : Fin 64) (x : Option Line) : (s.setAgentLine a x).ports = s.ports := rfl
@[simp] theorem State.setAgentLine_events (s : State) (a : Fin 64) (x : Option Line) : (s.setAgentLine a x).events = s.events := rfl
@[simp] theorem State.setAgentLine_freeCount (s : State) (a : Fin 64) (x : Option Line) : (s.setAgentLine a x).freeCount = s.freeCount := rfl
@[simp] theorem State.setAgentLine_pending (s : State) (a : Fin 64) (x : Option Line) : (s.setAgentLine a x).pending = s.pending := rfl

/-! ## setTrunkLine -/

@[simp] theorem State.setTrunkLine_phase (s : State) (t : Fin 64) (x : Option TrunkLine) : (s.setTrunkLine t x).phase = s.phase := rfl
@[simp] theorem State.setTrunkLine_startUp (s : State) (t : Fin 64) (x : Option TrunkLine) : (s.setTrunkLine t x).startUp = s.startUp := rfl
@[simp] theorem State.setTrunkLine_highway (s : State) (t : Fin 64) (x : Option TrunkLine) : (s.setTrunkLine t x).highway = { s.highway with trunk := s.highway.trunk.put t x } := rfl
@[simp] theorem State.setTrunkLine_positions (s : State) (t : Fin 64) (x : Option TrunkLine) : (s.setTrunkLine t x).positions = s.positions := rfl
@[simp] theorem State.setTrunkLine_suppress (s : State) (t : Fin 64) (x : Option TrunkLine) : (s.setTrunkLine t x).suppress = s.suppress := rfl
@[simp] theorem State.setTrunkLine_echo (s : State) (t : Fin 64) (x : Option TrunkLine) : (s.setTrunkLine t x).echo = s.echo := rfl
@[simp] theorem State.setTrunkLine_mixer (s : State) (t : Fin 64) (x : Option TrunkLine) : (s.setTrunkLine t x).mixer = s.mixer := rfl
@[simp] theorem State.setTrunkLine_clipStore (s : State) (t : Fin 64) (x : Option TrunkLine) : (s.setTrunkLine t x).clipStore = s.clipStore := rfl
@[simp] theorem State.setTrunkLine_arbiter (s : State) (t : Fin 64) (x : Option TrunkLine) : (s.setTrunkLine t x).arbiter = s.arbiter := rfl
@[simp] theorem State.setTrunkLine_memory (s : State) (t : Fin 64) (x : Option TrunkLine) : (s.setTrunkLine t x).memory = s.memory := rfl
@[simp] theorem State.setTrunkLine_streams (s : State) (t : Fin 64) (x : Option TrunkLine) : (s.setTrunkLine t x).streams = s.streams := rfl
@[simp] theorem State.setTrunkLine_whisper (s : State) (t : Fin 64) (x : Option TrunkLine) : (s.setTrunkLine t x).whisper = s.whisper := rfl
@[simp] theorem State.setTrunkLine_ports (s : State) (t : Fin 64) (x : Option TrunkLine) : (s.setTrunkLine t x).ports = s.ports := rfl
@[simp] theorem State.setTrunkLine_events (s : State) (t : Fin 64) (x : Option TrunkLine) : (s.setTrunkLine t x).events = s.events := rfl
@[simp] theorem State.setTrunkLine_freeCount (s : State) (t : Fin 64) (x : Option TrunkLine) : (s.setTrunkLine t x).freeCount = s.freeCount := rfl
@[simp] theorem State.setTrunkLine_pending (s : State) (t : Fin 64) (x : Option TrunkLine) : (s.setTrunkLine t x).pending = s.pending := rfl

/-! ## drawn -/

@[simp] theorem State.drawn_phase (s : State) (n : Nat) : (s.drawn n).phase = s.phase := rfl
@[simp] theorem State.drawn_startUp (s : State) (n : Nat) : (s.drawn n).startUp = s.startUp := rfl
@[simp] theorem State.drawn_highway (s : State) (n : Nat) : (s.drawn n).highway = s.highway := rfl
@[simp] theorem State.drawn_positions (s : State) (n : Nat) : (s.drawn n).positions = s.positions := rfl
@[simp] theorem State.drawn_suppress (s : State) (n : Nat) : (s.drawn n).suppress = s.suppress := rfl
@[simp] theorem State.drawn_echo (s : State) (n : Nat) : (s.drawn n).echo = s.echo := rfl
@[simp] theorem State.drawn_mixer (s : State) (n : Nat) : (s.drawn n).mixer = s.mixer := rfl
@[simp] theorem State.drawn_clipStore (s : State) (n : Nat) : (s.drawn n).clipStore = s.clipStore := rfl
@[simp] theorem State.drawn_arbiter (s : State) (n : Nat) : (s.drawn n).arbiter = s.arbiter := rfl
@[simp] theorem State.drawn_memory (s : State) (n : Nat) : (s.drawn n).memory = s.memory := rfl
@[simp] theorem State.drawn_streams (s : State) (n : Nat) : (s.drawn n).streams = s.streams := rfl
@[simp] theorem State.drawn_whisper (s : State) (n : Nat) : (s.drawn n).whisper = s.whisper := rfl
@[simp] theorem State.drawn_ports (s : State) (n : Nat) : (s.drawn n).ports = s.ports := rfl
@[simp] theorem State.drawn_events (s : State) (n : Nat) : (s.drawn n).events = s.events := rfl
@[simp] theorem State.drawn_freeCount (s : State) (n : Nat) : (s.drawn n).freeCount = s.freeCount + n := rfl
@[simp] theorem State.drawn_pending (s : State) (n : Nat) : (s.drawn n).pending = s.pending := rfl

/-! ## numbered -/

@[simp] theorem State.numbered_phase (s : State) : (s.numbered).phase = s.phase := rfl
@[simp] theorem State.numbered_startUp (s : State) : (s.numbered).startUp = s.startUp := rfl
@[simp] theorem State.numbered_highway (s : State) : (s.numbered).highway = s.highway := rfl
@[simp] theorem State.numbered_positions (s : State) : (s.numbered).positions = s.positions := rfl
@[simp] theorem State.numbered_suppress (s : State) : (s.numbered).suppress = s.suppress := rfl
@[simp] theorem State.numbered_echo (s : State) : (s.numbered).echo = s.echo := rfl
@[simp] theorem State.numbered_mixer (s : State) : (s.numbered).mixer = s.mixer := rfl
@[simp] theorem State.numbered_clipStore (s : State) : (s.numbered).clipStore = s.clipStore := rfl
@[simp] theorem State.numbered_arbiter (s : State) : (s.numbered).arbiter = s.arbiter := rfl
@[simp] theorem State.numbered_memory (s : State) : (s.numbered).memory = s.memory := rfl
@[simp] theorem State.numbered_streams (s : State) : (s.numbered).streams = s.streams := rfl
@[simp] theorem State.numbered_whisper (s : State) : (s.numbered).whisper = { s.whisper with arrival := s.whisper.arrival + 1 } := rfl
@[simp] theorem State.numbered_ports (s : State) : (s.numbered).ports = s.ports := rfl
@[simp] theorem State.numbered_events (s : State) : (s.numbered).events = s.events := rfl
@[simp] theorem State.numbered_freeCount (s : State) : (s.numbered).freeCount = s.freeCount := rfl
@[simp] theorem State.numbered_pending (s : State) : (s.numbered).pending = s.pending := rfl

/-! ## setSync -/

@[simp] theorem State.setSync_phase (s : State) (x : Sync) : (s.setSync x).phase = s.phase := rfl
@[simp] theorem State.setSync_startUp (s : State) (x : Sync) : (s.setSync x).startUp = s.startUp := rfl
@[simp] theorem State.setSync_highway (s : State) (x : Sync) : (s.setSync x).highway = { s.highway with sync := x } := rfl
@[simp] theorem State.setSync_positions (s : State) (x : Sync) : (s.setSync x).positions = s.positions := rfl
@[simp] theorem State.setSync_suppress (s : State) (x : Sync) : (s.setSync x).suppress = s.suppress := rfl
@[simp] theorem State.setSync_echo (s : State) (x : Sync) : (s.setSync x).echo = s.echo := rfl
@[simp] theorem State.setSync_mixer (s : State) (x : Sync) : (s.setSync x).mixer = s.mixer := rfl
@[simp] theorem State.setSync_clipStore (s : State) (x : Sync) : (s.setSync x).clipStore = s.clipStore := rfl
@[simp] theorem State.setSync_arbiter (s : State) (x : Sync) : (s.setSync x).arbiter = s.arbiter := rfl
@[simp] theorem State.setSync_memory (s : State) (x : Sync) : (s.setSync x).memory = s.memory := rfl
@[simp] theorem State.setSync_streams (s : State) (x : Sync) : (s.setSync x).streams = s.streams := rfl
@[simp] theorem State.setSync_whisper (s : State) (x : Sync) : (s.setSync x).whisper = s.whisper := rfl
@[simp] theorem State.setSync_ports (s : State) (x : Sync) : (s.setSync x).ports = s.ports := rfl
@[simp] theorem State.setSync_events (s : State) (x : Sync) : (s.setSync x).events = s.events := rfl
@[simp] theorem State.setSync_freeCount (s : State) (x : Sync) : (s.setSync x).freeCount = s.freeCount := rfl
@[simp] theorem State.setSync_pending (s : State) (x : Sync) : (s.setSync x).pending = s.pending := rfl

/-! ## setDebounced -/

@[simp] theorem State.setDebounced_phase (s : State) (a : Fin 64) (d : Debounce) : (s.setDebounced a d).phase = s.phase := rfl
@[simp] theorem State.setDebounced_startUp (s : State) (a : Fin 64) (d : Debounce) : (s.setDebounced a d).startUp = s.startUp := rfl
@[simp] theorem State.setDebounced_highway (s : State) (a : Fin 64) (d : Debounce) : (s.setDebounced a d).highway = { s.highway with debounce := s.highway.debounce.put a d } := rfl
@[simp] theorem State.setDebounced_positions (s : State) (a : Fin 64) (d : Debounce) : (s.setDebounced a d).positions = s.positions := rfl
@[simp] theorem State.setDebounced_suppress (s : State) (a : Fin 64) (d : Debounce) : (s.setDebounced a d).suppress = s.suppress := rfl
@[simp] theorem State.setDebounced_echo (s : State) (a : Fin 64) (d : Debounce) : (s.setDebounced a d).echo = s.echo := rfl
@[simp] theorem State.setDebounced_mixer (s : State) (a : Fin 64) (d : Debounce) : (s.setDebounced a d).mixer = s.mixer := rfl
@[simp] theorem State.setDebounced_clipStore (s : State) (a : Fin 64) (d : Debounce) : (s.setDebounced a d).clipStore = s.clipStore := rfl
@[simp] theorem State.setDebounced_arbiter (s : State) (a : Fin 64) (d : Debounce) : (s.setDebounced a d).arbiter = s.arbiter := rfl
@[simp] theorem State.setDebounced_memory (s : State) (a : Fin 64) (d : Debounce) : (s.setDebounced a d).memory = s.memory := rfl
@[simp] theorem State.setDebounced_streams (s : State) (a : Fin 64) (d : Debounce) : (s.setDebounced a d).streams = s.streams := rfl
@[simp] theorem State.setDebounced_whisper (s : State) (a : Fin 64) (d : Debounce) : (s.setDebounced a d).whisper = s.whisper := rfl
@[simp] theorem State.setDebounced_ports (s : State) (a : Fin 64) (d : Debounce) : (s.setDebounced a d).ports = s.ports := rfl
@[simp] theorem State.setDebounced_events (s : State) (a : Fin 64) (d : Debounce) : (s.setDebounced a d).events = s.events := rfl
@[simp] theorem State.setDebounced_freeCount (s : State) (a : Fin 64) (d : Debounce) : (s.setDebounced a d).freeCount = s.freeCount := rfl
@[simp] theorem State.setDebounced_pending (s : State) (a : Fin 64) (d : Debounce) : (s.setDebounced a d).pending = s.pending := rfl

end Sys2Proof.Machine
end

