-- ==== Sys2Proof/Laws/Requests.lean ====
section
/-! SUPPORT. What a control port does with a request frame (R169, R170), and what the shared forms of a
request's checks come to. -/

namespace Sys2Proof.Machine

/-! ## Fields under taking and answering -/

theorem State.taken_eq (s : State) (p : Port) (code : Byte) :
    s.taken p code = s.setPort p { s.port p with ready := false, inFlight := some code, lastReply := none } := rfl

theorem State.answer_eq (s : State) (p : Port) (status : Status) (payload : List Byte) :
    s.answer p status payload = s.setPort p { s.port p with
      ready := true, inFlight := none, lastReply := some ⟨status, ((s.port p).inFlight).getD 0, payload⟩ } := rfl

@[simp] theorem State.taken_phase (s : State) (p : Port) (code : Byte) : (s.taken p code).phase = s.phase := rfl
@[simp] theorem State.taken_startUp (s : State) (p : Port) (code : Byte) : (s.taken p code).startUp = s.startUp := rfl
@[simp] theorem State.taken_highway (s : State) (p : Port) (code : Byte) : (s.taken p code).highway = s.highway := rfl
@[simp] theorem State.taken_positions (s : State) (p : Port) (code : Byte) : (s.taken p code).positions = s.positions := rfl
@[simp] theorem State.taken_suppress (s : State) (p : Port) (code : Byte) : (s.taken p code).suppress = s.suppress := rfl
@[simp] theorem State.taken_echo (s : State) (p : Port) (code : Byte) : (s.taken p code).echo = s.echo := rfl
@[simp] theorem State.taken_mixer (s : State) (p : Port) (code : Byte) : (s.taken p code).mixer = s.mixer := rfl
@[simp] theorem State.taken_clipStore (s : State) (p : Port) (code : Byte) : (s.taken p code).clipStore = s.clipStore := rfl
@[simp] theorem State.taken_arbiter (s : State) (p : Port) (code : Byte) : (s.taken p code).arbiter = s.arbiter := rfl
@[simp] theorem State.taken_memory (s : State) (p : Port) (code : Byte) : (s.taken p code).memory = s.memory := rfl
@[simp] theorem State.taken_streams (s : State) (p : Port) (code : Byte) : (s.taken p code).streams = s.streams := rfl
@[simp] theorem State.taken_whisper (s : State) (p : Port) (code : Byte) : (s.taken p code).whisper = s.whisper := rfl
@[simp] theorem State.taken_events (s : State) (p : Port) (code : Byte) : (s.taken p code).events = s.events := rfl
@[simp] theorem State.taken_freeCount (s : State) (p : Port) (code : Byte) : (s.taken p code).freeCount = s.freeCount := rfl
@[simp] theorem State.taken_pending (s : State) (p : Port) (code : Byte) : (s.taken p code).pending = s.pending := rfl
@[simp] theorem State.answer_phase (s : State) (p : Port) (status : Status) (payload : List Byte) :
    (s.answer p status payload).phase = s.phase := rfl
@[simp] theorem State.answer_startUp (s : State) (p : Port) (status : Status) (payload : List Byte) :
    (s.answer p status payload).startUp = s.startUp := rfl
@[simp] theorem State.answer_highway (s : State) (p : Port) (status : Status) (payload : List Byte) :
    (s.answer p status payload).highway = s.highway := rfl
@[simp] theorem State.answer_positions (s : State) (p : Port) (status : Status) (payload : List Byte) :
    (s.answer p status payload).positions = s.positions := rfl
@[simp] theorem State.answer_suppress (s : State) (p : Port) (status : Status) (payload : List Byte) :
    (s.answer p status payload).suppress = s.suppress := rfl
@[simp] theorem State.answer_echo (s : State) (p : Port) (status : Status) (payload : List Byte) :
    (s.answer p status payload).echo = s.echo := rfl
@[simp] theorem State.answer_mixer (s : State) (p : Port) (status : Status) (payload : List Byte) :
    (s.answer p status payload).mixer = s.mixer := rfl
@[simp] theorem State.answer_clipStore (s : State) (p : Port) (status : Status) (payload : List Byte) :
    (s.answer p status payload).clipStore = s.clipStore := rfl
@[simp] theorem State.answer_arbiter (s : State) (p : Port) (status : Status) (payload : List Byte) :
    (s.answer p status payload).arbiter = s.arbiter := rfl
@[simp] theorem State.answer_memory (s : State) (p : Port) (status : Status) (payload : List Byte) :
    (s.answer p status payload).memory = s.memory := rfl
@[simp] theorem State.answer_streams (s : State) (p : Port) (status : Status) (payload : List Byte) :
    (s.answer p status payload).streams = s.streams := rfl
@[simp] theorem State.answer_whisper (s : State) (p : Port) (status : Status) (payload : List Byte) :
    (s.answer p status payload).whisper = s.whisper := rfl
@[simp] theorem State.answer_events (s : State) (p : Port) (status : Status) (payload : List Byte) :
    (s.answer p status payload).events = s.events := rfl
@[simp] theorem State.answer_freeCount (s : State) (p : Port) (status : Status) (payload : List Byte) :
    (s.answer p status payload).freeCount = s.freeCount := rfl
@[simp] theorem State.answer_pending (s : State) (p : Port) (status : Status) (payload : List Byte) :
    (s.answer p status payload).pending = s.pending := rfl
@[simp] theorem State.refuse_phase (s : State) (p : Port) (status : Status) : (s.refuse p status).phase = s.phase := rfl
@[simp] theorem State.refuse_startUp (s : State) (p : Port) (status : Status) : (s.refuse p status).startUp = s.startUp := rfl
@[simp] theorem State.refuse_highway (s : State) (p : Port) (status : Status) : (s.refuse p status).highway = s.highway := rfl
@[simp] theorem State.refuse_positions (s : State) (p : Port) (status : Status) : (s.refuse p status).positions = s.positions := rfl
@[simp] theorem State.refuse_suppress (s : State) (p : Port) (status : Status) : (s.refuse p status).suppress = s.suppress := rfl
@[simp] theorem State.refuse_echo (s : State) (p : Port) (status : Status) : (s.refuse p status).echo = s.echo := rfl
@[simp] theorem State.refuse_mixer (s : State) (p : Port) (status : Status) : (s.refuse p status).mixer = s.mixer := rfl
@[simp] theorem State.refuse_clipStore (s : State) (p : Port) (status : Status) : (s.refuse p status).clipStore = s.clipStore := rfl
@[simp] theorem State.refuse_arbiter (s : State) (p : Port) (status : Status) : (s.refuse p status).arbiter = s.arbiter := rfl
@[simp] theorem State.refuse_memory (s : State) (p : Port) (status : Status) : (s.refuse p status).memory = s.memory := rfl
@[simp] theorem State.refuse_streams (s : State) (p : Port) (status : Status) : (s.refuse p status).streams = s.streams := rfl
@[simp] theorem State.refuse_whisper (s : State) (p : Port) (status : Status) : (s.refuse p status).whisper = s.whisper := rfl
@[simp] theorem State.refuse_events (s : State) (p : Port) (status : Status) : (s.refuse p status).events = s.events := rfl
@[simp] theorem State.refuse_freeCount (s : State) (p : Port) (status : Status) : (s.refuse p status).freeCount = s.freeCount := rfl
@[simp] theorem State.refuse_pending (s : State) (p : Port) (status : Status) : (s.refuse p status).pending = s.pending := rfl
@[simp] theorem State.replied_phase (s : State) (p : Port) (code : Byte) (status : Status) (payload : List Byte) :
    (s.replied p code status payload).phase = s.phase := rfl
@[simp] theorem State.replied_startUp (s : State) (p : Port) (code : Byte) (status : Status) (payload : List Byte) :
    (s.replied p code status payload).startUp = s.startUp := rfl
@[simp] theorem State.replied_highway (s : State) (p : Port) (code : Byte) (status : Status) (payload : List Byte) :
    (s.replied p code status payload).highway = s.highway := rfl
@[simp] theorem State.replied_positions (s : State) (p : Port) (code : Byte) (status : Status) (payload : List Byte) :
    (s.replied p code status payload).positions = s.positions := rfl
@[simp] theorem State.replied_suppress (s : State) (p : Port) (code : Byte) (status : Status) (payload : List Byte) :
    (s.replied p code status payload).suppress = s.suppress := rfl
@[simp] theorem State.replied_echo (s : State) (p : Port) (code : Byte) (status : Status) (payload : List Byte) :
    (s.replied p code status payload).echo = s.echo := rfl
@[simp] theorem State.replied_mixer (s : State) (p : Port) (code : Byte) (status : Status) (payload : List Byte) :
    (s.replied p code status payload).mixer = s.mixer := rfl
@[simp] theorem State.replied_clipStore (s : State) (p : Port) (code : Byte) (status : Status) (payload : List Byte) :
    (s.replied p code status payload).clipStore = s.clipStore := rfl
@[simp] theorem State.replied_arbiter (s : State) (p : Port) (code : Byte) (status : Status) (payload : List Byte) :
    (s.replied p code status payload).arbiter = s.arbiter := rfl
@[simp] theorem State.replied_memory (s : State) (p : Port) (code : Byte) (status : Status) (payload : List Byte) :
    (s.replied p code status payload).memory = s.memory := rfl
@[simp] theorem State.replied_streams (s : State) (p : Port) (code : Byte) (status : Status) (payload : List Byte) :
    (s.replied p code status payload).streams = s.streams := rfl
@[simp] theorem State.replied_whisper (s : State) (p : Port) (code : Byte) (status : Status) (payload : List Byte) :
    (s.replied p code status payload).whisper = s.whisper := rfl
@[simp] theorem State.replied_events (s : State) (p : Port) (code : Byte) (status : Status) (payload : List Byte) :
    (s.replied p code status payload).events = s.events := rfl
@[simp] theorem State.replied_freeCount (s : State) (p : Port) (code : Byte) (status : Status) (payload : List Byte) :
    (s.replied p code status payload).freeCount = s.freeCount := rfl
@[simp] theorem State.replied_pending (s : State) (p : Port) (code : Byte) (status : Status) (payload : List Byte) :
    (s.replied p code status payload).pending = s.pending := rfl
@[simp] theorem State.ignoreFrame_phase (s : State) (p : Port) : (s.ignoreFrame p).phase = s.phase := rfl
@[simp] theorem State.ignoreFrame_startUp (s : State) (p : Port) : (s.ignoreFrame p).startUp = s.startUp := rfl
@[simp] theorem State.ignoreFrame_highway (s : State) (p : Port) : (s.ignoreFrame p).highway = s.highway := rfl
@[simp] theorem State.ignoreFrame_positions (s : State) (p : Port) : (s.ignoreFrame p).positions = s.positions := rfl
@[simp] theorem State.ignoreFrame_suppress (s : State) (p : Port) : (s.ignoreFrame p).suppress = s.suppress := rfl
@[simp] theorem State.ignoreFrame_echo (s : State) (p : Port) : (s.ignoreFrame p).echo = s.echo := rfl
@[simp] theorem State.ignoreFrame_mixer (s : State) (p : Port) : (s.ignoreFrame p).mixer = s.mixer := rfl
@[simp] theorem State.ignoreFrame_clipStore (s : State) (p : Port) : (s.ignoreFrame p).clipStore = s.clipStore := rfl
@[simp] theorem State.ignoreFrame_arbiter (s : State) (p : Port) : (s.ignoreFrame p).arbiter = s.arbiter := rfl
@[simp] theorem State.ignoreFrame_memory (s : State) (p : Port) : (s.ignoreFrame p).memory = s.memory := rfl
@[simp] theorem State.ignoreFrame_streams (s : State) (p : Port) : (s.ignoreFrame p).streams = s.streams := rfl
@[simp] theorem State.ignoreFrame_whisper (s : State) (p : Port) : (s.ignoreFrame p).whisper = s.whisper := rfl
@[simp] theorem State.ignoreFrame_events (s : State) (p : Port) : (s.ignoreFrame p).events = s.events := rfl
@[simp] theorem State.ignoreFrame_freeCount (s : State) (p : Port) : (s.ignoreFrame p).freeCount = s.freeCount := rfl
@[simp] theorem State.ignoreFrame_pending (s : State) (p : Port) : (s.ignoreFrame p).pending = s.pending := rfl

@[simp] theorem State.taken_port (s : State) (p : Port) (code : Byte) :
    (s.taken p code).port p = { s.port p with ready := false, inFlight := some code, lastReply := none } := by
  simp [State.taken, State.port]

@[simp] theorem State.answer_port (s : State) (p : Port) (status : Status) (payload : List Byte) :
    (s.answer p status payload).port p = { s.port p with
      ready := true, inFlight := none, lastReply := some ⟨status, ((s.port p).inFlight).getD 0, payload⟩ } := by
  simp [State.answer, State.port]

/-- A reply made at the arrival of a request that changes nothing else. -/
theorem State.taken_answer (s : State) (p : Port) (code : Byte) (status : Status) (payload : List Byte) :
    (s.taken p code).answer p status payload = s.replied p code status payload := by
  cases p <;> rfl

theorem State.taken_refuse (s : State) (p : Port) (code : Byte) (status : Status) :
    (s.taken p code).refuse p status = s.replied p code status [] := s.taken_answer p code status []

/-! ## The port-level checks -/

/-- A request frame that a port takes passes to the request's own checks. -/
theorem State.request_of_takes {s : State} {p : Port} (h : s.takes p) (code : Byte) (body : State → State) :
    s.request p code body = body (s.taken p code) := by
  obtain ⟨h1, h2, h3⟩ := h
  simp [State.request, h1, h2, h3]

/-- Everything a request frame can come to (R169, R170). -/
theorem State.request_cases (s : State) (p : Port) (code : Byte) (body : State → State) :
    s.request p code body = s
      ∨ s.request p code body = s.ignoreFrame p
      ∨ s.request p code body = s.replied p code .starting []
      ∨ s.request p code body = s.replied p code .portOff []
      ∨ (s.takes p ∧ s.request p code body = body (s.taken p code)) := by
  unfold State.request
  cases hp : s.phase with
  | shifting => exact Or.inl rfl
  | preparing =>
    dsimp only
    split
    · exact Or.inr (Or.inr (Or.inl (s.taken_refuse p code .starting)))
    · exact Or.inr (Or.inl rfl)
  | running =>
    dsimp only
    split
    · next hr =>
      split
      · next he => exact Or.inr (Or.inr (Or.inr (Or.inr ⟨⟨hp, hr, he⟩, rfl⟩)))
      · exact Or.inr (Or.inr (Or.inr (Or.inl (s.taken_refuse p code .portOff))))
    · exact Or.inr (Or.inl rfl)

/-! ## Checks -/

theorem State.checked_pass {s : State} {p : Port} {checks : List (Bool × Status)} (effect : State → State)
    (h : firstRefusal checks = none) : s.checked p checks effect = effect s := by
  simp [State.checked, h]

theorem State.checked_fail {s : State} {p : Port} {checks : List (Bool × Status)} {status : Status}
    (effect : State → State) (h : firstRefusal checks = some status) :
    s.checked p checks effect = s.refuse p status := by
  simp [State.checked, h]

@[simp] theorem firstRefusal_nil : firstRefusal [] = none := rfl

@[simp] theorem firstRefusal_true (status : Status) (rest : List (Bool × Status)) :
    firstRefusal ((true, status) :: rest) = some status := rfl

@[simp] theorem firstRefusal_false (status : Status) (rest : List (Bool × Status)) :
    firstRefusal ((false, status) :: rest) = firstRefusal rest := rfl

/-- The first check that fails, as the model finds it and as `State.verdict` does. -/
theorem firstRefusal_eq (checks : List Check) : firstRefusal checks = (checks.find? Prod.fst).map Prod.snd := by
  induction checks with
  | nil => rfl
  | cons c rest ih =>
    obtain ⟨fails, status⟩ := c
    cases fails
    · exact ih
    · rfl

/-- A chain of checks either refuses, or all of them pass and the effect follows. -/
theorem State.checked_cases (s : State) (p : Port) (checks : List (Bool × Status)) (effect : State → State) :
    (∃ status, s.checked p checks effect = s.refuse p status) ∨ s.checked p checks effect = effect s := by
  unfold State.checked
  cases firstRefusal checks with
  | none => exact Or.inr rfl
  | some status => exact Or.inl ⟨status, rfl⟩

theorem State.withNumber_some {n : Nat} {s : State} {p : Port} {b : Byte} {i : Fin n} (body : Fin n → State → State)
    (h : number? n b = some i) : s.withNumber p b body = body i s := by
  simp [State.withNumber, h]

theorem State.withNumber_none {n : Nat} {s : State} {p : Port} {b : Byte} (body : Fin n → State → State)
    (h : number? n b = none) : s.withNumber p b body = s.refuse p .badArg := by
  simp [State.withNumber, h]

end Sys2Proof.Machine
end

