-- ==== Sys2Proof/Laws/Touches.lean ====
section
/-! SUPPORT. For each shared operation, the pieces of the state it may change: everything else is as before. -/

namespace Sys2Proof.Machine

/-! ## The relation -/

theorem Part.same_refl (x : Part) (s : State) : x.same s s := by cases x <;> rfl

theorem Part.same_trans (x : Part) {s t u : State} (h : x.same s t) (k : x.same t u) : x.same s u := by
  cases x <;> exact k.trans h

theorem Touches.refl (parts : List Part) (s : State) : Touches parts s s := fun x _ => x.same_refl s

theorem Touches.trans {parts : List Part} {s t u : State} (h : Touches parts s t) (k : Touches parts t u) :
    Touches parts s u := fun x hx => x.same_trans (h x hx) (k x hx)

theorem Touches.mono {a b : List Part} {s t : State} (h : Touches a s t) (sub : ∀ x ∈ a, x ∈ b) : Touches b s t :=
  fun x hx => h x fun hm => hx (sub x hm)

theorem Touches.foldl {α : Type} {parts : List Part} {f : State → α → State} (h : ∀ s x, Touches parts s (f s x)) :
    ∀ (l : List α) (s : State), Touches parts s (l.foldl f s)
  | [], s => Touches.refl parts s
  | x :: l, s => (h s x).trans (Touches.foldl h l (f s x))

theorem Touches.foldl_pair {α β : Type} {parts : List Part} {f : β × State → α → β × State}
    (h : ∀ a x, Touches parts a.2 (f a x).2) :
    ∀ (l : List α) (a : β × State), Touches parts a.2 (l.foldl f a).2
  | [], a => Touches.refl parts a.2
  | x :: l, a => (h a x).trans (Touches.foldl_pair h l (f a x))

theorem Touches.ite {parts : List Part} {s t u : State} (c : Prop) [Decidable c] (h : Touches parts s t)
    (k : Touches parts s u) : Touches parts s (if c then t else u) := by
  split <;> assumption

/-- The one piece an elementary update replaces. -/
theorem Touches.of_events (s : State) (x : PerPort EventState) : Touches [.events] s { s with events := x } := by
  intro y hy; cases y <;> first | rfl | exact absurd (by simp) hy

theorem Touches.of_positions (s : State) (x : Table 64 Position) : Touches [.positions] s { s with positions := x } := by
  intro y hy; cases y <;> first | rfl | exact absurd (by simp) hy

theorem Touches.of_clipStore (s : State) (x : ClipStore) : Touches [.clipStore] s { s with clipStore := x } := by
  intro y hy; cases y <;> first | rfl | exact absurd (by simp) hy

theorem Touches.of_streams (s : State) (x : Table 16 Stream) : Touches [.streams] s { s with streams := x } := by
  intro y hy; cases y <;> first | rfl | exact absurd (by simp) hy

theorem Touches.of_whisper (s : State) (x : Whisper) : Touches [.whisper] s { s with whisper := x } := by
  intro y hy; cases y <;> first | rfl | exact absurd (by simp) hy

theorem Touches.of_arbiter (s : State) (x : Arbiter) : Touches [.arbiter] s { s with arbiter := x } := by
  intro y hy; cases y <;> first | rfl | exact absurd (by simp) hy

theorem Touches.of_memory (s : State) (x : Memory) : Touches [.memory] s { s with memory := x } := by
  intro y hy; cases y <;> first | rfl | exact absurd (by simp) hy

theorem Touches.of_ports (s : State) (x : PerPort PortState) : Touches [.ports] s { s with ports := x } := by
  intro y hy; cases y <;> first | rfl | exact absurd (by simp) hy

theorem Touches.of_highway (s : State) (x : Highway) : Touches [.highway] s { s with highway := x } := by
  intro y hy; cases y <;> first | rfl | exact absurd (by simp) hy

theorem Touches.of_suppress (s : State) (x : Suppression) : Touches [.suppress] s { s with suppress := x } := by
  intro y hy; cases y <;> first | rfl | exact absurd (by simp) hy

theorem Touches.of_echo (s : State) (x : Echo) : Touches [.echo] s { s with echo := x } := by
  intro y hy; cases y <;> first | rfl | exact absurd (by simp) hy

theorem Touches.of_mixer (s : State) (x : Mixer) : Touches [.mixer] s { s with mixer := x } := by
  intro y hy; cases y <;> first | rfl | exact absurd (by simp) hy

/-! ## The event router -/

theorem State.file_touches (s : State) (p : Port) (k : EventKind) (o d : Nat) : Touches [.events] s (s.file p k o d) := by
  unfold State.file
  split
  · exact Touches.of_events s _
  · exact Touches.refl _ s

theorem State.fileBoth_touches (s : State) (k : EventKind) (o d : Nat) : Touches [.events] s (s.fileBoth k o d) :=
  (s.file_touches .cp0 k o d).trans (State.file_touches _ .cp1 k o d)

theorem State.fileOwner_touches (s : State) (p : Option Port) (k : EventKind) (o d : Nat) :
    Touches [.events] s (s.fileOwner p k o d) := by
  unfold State.fileOwner
  split
  · exact s.file_touches _ k o d
  · exact Touches.refl _ s

/-! ## Ports -/

theorem State.answer_touches (s : State) (p : Port) (status : Status) (payload : List Byte) :
    Touches [.ports] s (s.answer p status payload) := Touches.of_ports s _

theorem State.taken_touches (s : State) (p : Port) (code : Byte) : Touches [.ports] s (s.taken p code) :=
  Touches.of_ports s _

theorem State.ignoreFrame_touches (s : State) (p : Port) : Touches [.ports] s (s.ignoreFrame p) := Touches.of_ports s _

theorem State.replied_touches (s : State) (p : Port) (code : Byte) (status : Status) (payload : List Byte) :
    Touches [.ports] s (s.replied p code status payload) := Touches.of_ports s _

/-- A request changes its port, and what its body changes. -/
theorem State.request_touches {parts : List Part} (hp : Part.ports ∈ parts) (s : State) (p : Port) (code : Byte)
    (body : State → State) (h : ∀ t, Touches parts t (body t)) : Touches parts s (s.request p code body) := by
  have ports : ∀ t, Touches [.ports] s t → Touches parts s t := fun t k =>
    k.mono (by simpa using hp)
  rcases s.request_cases p code body with e | e | e | e | ⟨_, e⟩ <;> rw [e]
  · exact Touches.refl _ s
  · exact ports _ (s.ignoreFrame_touches p)
  · exact ports _ (s.replied_touches p code _ _)
  · exact ports _ (s.replied_touches p code _ _)
  · exact (ports _ (s.taken_touches p code)).trans (h _)

theorem State.checked_touches {parts : List Part} (hp : Part.ports ∈ parts) (s : State) (p : Port)
    (checks : List (Bool × Status)) (effect : State → State) (h : Touches parts s (effect s)) :
    Touches parts s (s.checked p checks effect) := by
  rcases s.checked_cases p checks effect with ⟨status, e⟩ | e <;> rw [e]
  · exact (s.answer_touches p status []).mono (by simpa using hp)
  · exact h

/-! ## Clip store -/

theorem State.setClip_touches (s : State) (c : Fin 256) (x : Clip) : Touches [.clipStore] s (s.setClip c x) :=
  Touches.of_clipStore s _

theorem State.recordFault_touches (s : State) (p : Port) (kinds : FaultKinds) (c : Fin 256) (i : Option Nat)
    (code : Byte) : Touches [.clipStore] s (s.recordFault p kinds c i code) := by
  unfold State.recordFault
  split <;> exact Touches.of_clipStore s _

theorem State.refuseFault_touches (s : State) (p : Port) (kinds : FaultKinds) (c : Fin 256) (i : Option Nat)
    (code : Byte) : Touches [.clipStore, .ports] s (s.refuseFault p kinds c i code) :=
  ((s.recordFault_touches p kinds c i code).mono (by decide)).trans
    ((State.answer_touches _ p _ _).mono (by decide))

theorem State.note_touches (s : State) (p : Port) (k : NoteKind) (c : Fin 256) :
    Touches [.clipStore, .events] s (s.note p k c) := by
  unfold State.note
  split
  · exact ((s.setClip_touches c _).mono (by decide)).trans ((State.fileOwner_touches _ _ _ _ _).mono (by decide))
  · exact Touches.refl _ s

theorem State.noteItems_touches (s : State) (p : Port) (items : List Item) :
    Touches [.clipStore, .events] s (s.noteItems p items) :=
  Touches.foldl (fun s c => s.note_touches p .playlist c) _ s

theorem State.addPlay_touches (s : State) (c : Fin 256) : Touches [.clipStore] s (s.addPlay c) := s.setClip_touches c _

theorem State.dropPlay_touches (s : State) (c : Fin 256) : Touches [.clipStore] s (s.dropPlay c) := s.setClip_touches c _

theorem State.addPlays_touches (s : State) (items : List Item) : Touches [.clipStore] s (s.addPlays items) :=
  Touches.foldl (fun s (i : Item) => s.addPlay_touches i.clip) items s

theorem State.dropPlays_touches (s : State) (l : Option Playlist) : Touches [.clipStore] s (s.dropPlays l) := by
  unfold State.dropPlays
  split
  · exact Touches.foldl (fun s (i : Item) => s.dropPlay_touches i.clip) _ s
  · exact Touches.refl _ s

theorem State.checkItems_touches {parts : List Part} (hp : Part.ports ∈ parts) (hc : Part.clipStore ∈ parts)
    (s : State) (p : Port) (code : Byte) (items : List Item) (effect : State → State)
    (h : Touches parts s (effect s)) : Touches parts s (s.checkItems p code items effect) := by
  unfold State.checkItems
  split
  · exact (s.refuseFault_touches p _ _ _ code).mono (by simp [hp, hc])
  · split
    · exact (s.answer_touches p _ _).mono (by simpa using hp)
    · exact h

/-! ## Players and the memory arbiter -/

theorem State.setStream_touches (s : State) (k : Fin 16) (x : Stream) : Touches [.streams] s (s.setStream k x) :=
  Touches.of_streams s _

theorem State.setQueue_touches (s : State) (p : Fin 64) (q : List Entry) : Touches [.whisper] s (s.setQueue p q) :=
  Touches.of_whisper s _

theorem State.setPlayer_touches (s : State) (w : Fin 16) (x : PromptPlayer) : Touches [.whisper] s (s.setPlayer w x) :=
  Touches.of_whisper s _

theorem State.setPos_touches (s : State) (p : Fin 64) (x : Position) : Touches [.positions] s (s.setPos p x) :=
  Touches.of_positions s _

theorem State.setArbiter_touches (s : State) (x : Arbiter) : Touches [.arbiter] s (s.setArbiter x) :=
  Touches.of_arbiter s _

theorem State.switch_touches (s : State) (k : Fin 16) (i : Nat) :
    Touches [.streams, .clipStore, .events] s (s.switch k i) := by
  unfold State.switch
  split
  · exact Touches.refl _ s
  · exact (((s.dropPlays_touches _).mono (by decide)).trans ((State.setStream_touches _ k _).mono (by decide))).trans
      ((State.fileOwner_touches _ _ _ _ _).mono (by decide))

theorem State.itemEnd_touches (s : State) (k : Fin 16) (i : Nat) :
    Touches [.streams, .clipStore, .events] s (s.itemEnd k i) := by
  unfold State.itemEnd
  dsimp only
  split
  · exact s.switch_touches k i
  · split
    · exact (s.setStream_touches k _).mono (by decide)
    · exact Touches.refl _ s

theorem State.streamArrival_touches (s : State) (k : Fin 16) (i : Nat) (codes : PageCodes) :
    Touches [.streams, .clipStore, .events] s (s.streamArrival k i codes) := by
  unfold State.streamArrival
  dsimp only
  split
  · split
    · split
      · exact ((s.setStream_touches k _).mono (by decide)).trans (State.itemEnd_touches _ k _)
      · exact (s.setStream_touches k _).mono (by decide)
    · exact Touches.refl _ s
  · exact Touches.refl _ s

theorem State.promptArrival_touches (s : State) (w : Fin 16) (i : Nat) (codes : PageCodes) :
    Touches [.whisper] s (s.promptArrival w i codes) := by
  unfold State.promptArrival
  dsimp only
  split
  · exact s.setPlayer_touches w _
  · exact Touches.refl _ s

theorem State.deliver_touches (s : State) (f : Fetch) (codes : PageCodes) :
    Touches [.streams, .clipStore, .events, .whisper] s (s.deliver f codes) := by
  unfold State.deliver
  split
  · split
    · exact (s.streamArrival_touches _ _ codes).mono (by decide)
    · exact Touches.refl _ s
  · split
    · exact (s.promptArrival_touches _ _ codes).mono (by decide)
    · exact Touches.refl _ s

theorem State.struck_touches (s : State) (page : Nat) (upsets : List WordUpset) :
    Touches [.memory] s (s.struck page upsets) := Touches.of_memory s _

theorem State.detected_touches (s : State) (page finder : Nat) :
    Touches [.arbiter, .events] s (s.detected page finder) := by
  unfold State.detected
  dsimp only
  split
  · exact ((s.setArbiter_touches _).mono (by decide)).trans ((State.fileBoth_touches _ _ _ _).mono (by decide))
  · exact (((s.setArbiter_touches _).mono (by decide)).trans ((State.fileBoth_touches _ _ _ _).mono (by decide))).trans
      ((State.fileBoth_touches _ _ _ _).mono (by decide))

theorem State.counted_touches (s : State) (page finder : Nat) :
    Touches [.arbiter, .events] s (s.counted page finder) := by
  unfold State.counted
  split
  · exact s.detected_touches page finder
  · exact (s.setArbiter_touches _).mono (by decide)

/-- The pieces a grant may change: the arbiter, and through the completion of a listed page its player, and the
reply of a port (R126, R128, R130). -/
theorem State.grantRounds_touches (n : Nat) (s : State) :
    Touches [.arbiter, .streams, .clipStore, .events, .whisper, .ports] s (State.grantRounds n s) := by
  induction n generalizing s with
  | zero => exact Touches.refl _ s
  | succ n ih =>
    unfold State.grantRounds
    split
    · exact Touches.refl _ s
    · split
      · exact (s.setArbiter_touches _).mono (by decide)
      · split
        · split
          · exact (((s.setArbiter_touches _).mono (by decide)).trans
              ((State.deliver_touches _ _ _).mono (by decide))).trans (ih _)
          · exact ((s.setArbiter_touches _).mono (by decide)).trans ((State.setArbiter_touches _ _).mono (by decide))
        · split
          · exact ((s.setArbiter_touches _).mono (by decide)).trans ((State.setArbiter_touches _ _).mono (by decide))
          · split
            · exact (((s.setArbiter_touches _).mono (by decide)).trans
                ((State.answer_touches _ _ _ _).mono (by decide))).trans (ih _)
            · exact ((s.setArbiter_touches _).mono (by decide)).trans ((State.setArbiter_touches _ _).mono (by decide))
          · split
            · exact (s.setArbiter_touches _).mono (by decide)
            · exact Touches.refl _ s

theorem State.grant_touches (s : State) : Touches grantParts s s.grant := State.grantRounds_touches _ s

theorem State.requestFetch_touches (s : State) (f : Fetch) : Touches grantParts s (s.requestFetch f) :=
  ((s.setArbiter_touches _).mono (by decide)).trans (State.grant_touches _)

theorem State.admitOp_touches (s : State) (p : Port) (op : PortOp) : Touches grantParts s (s.admitOp p op) :=
  ((s.setArbiter_touches _).mono (by decide)).trans (State.grant_touches _)

theorem State.cancelFetch_touches (s : State) (p : PlayerId) : Touches [.arbiter] s (s.cancelFetch p) :=
  s.setArbiter_touches _

/-! ## Stream players -/

theorem State.streamRequest_touches (s : State) (k : Fin 16) : Touches grantParts s (s.streamRequest k) := by
  unfold State.streamRequest
  dsimp only
  split
  · split
    · exact ((s.setStream_touches k _).mono (by decide)).trans (State.requestFetch_touches _ _)
    · exact Touches.refl _ s
  · exact Touches.refl _ s

theorem State.endIfDone_touches (s : State) (k : Fin 16) : Touches [.streams, .events] s (s.endIfDone k) := by
  unfold State.endIfDone
  dsimp only
  split
  · exact ((s.setStream_touches k _).mono (by decide)).trans ((State.fileOwner_touches _ _ _ _ _).mono (by decide))
  · exact Touches.refl _ s

theorem State.streamPlay_touches (s : State) (k : Fin 16) (y : StreamPlaying) :
    Touches [.streams, .events] s (s.streamPlay k y).2 := by
  unfold State.streamPlay
  dsimp only
  split
  · exact (s.setStream_touches k _).mono (by decide)
  · exact ((s.setStream_touches k _).mono (by decide)).trans (State.endIfDone_touches _ k)

theorem State.streamTake_touches (s : State) (k : Fin 16) (page : StreamPage) :
    Touches grantParts s (s.streamTake k page) :=
  ((s.setStream_touches k _).mono (by decide)).trans (State.streamRequest_touches _ k)

theorem State.streamStarve_touches (s : State) (k : Fin 16) (i : Nat) :
    Touches [.streams, .events] s (s.streamStarve k i) := by
  unfold State.streamStarve
  dsimp only
  split
  · exact Touches.refl _ s
  · split
    · exact (s.setStream_touches k _).mono (by decide)
    · exact ((s.setStream_touches k _).mono (by decide)).trans ((State.fileOwner_touches _ _ _ _ _).mono (by decide))

theorem State.streamSample_touches (s : State) (k : Fin 16) : Touches grantParts s (s.streamSample k).2 := by
  unfold State.streamSample
  split
  · split
    · exact (s.streamPlay_touches k _).mono (by decide)
    · split
      · exact (s.streamTake_touches k _).trans ((State.streamPlay_touches _ k _).mono (by decide))
      · exact (s.streamStarve_touches k _).mono (by decide)
      · exact (s.endIfDone_touches k).mono (by decide)
  · exact Touches.refl _ s
  · exact Touches.refl _ s

theorem State.streamSamples_touches (k : Fin 16) (n : Nat) (s : State) :
    Touches grantParts s (State.streamSamples k n s).2 := by
  induction n generalizing s with
  | zero => exact Touches.refl _ s
  | succ n ih => exact (s.streamSample_touches k).trans (ih _)

theorem State.streamFrame_touches (s : State) (k : Fin 16) : Touches grantParts s (s.streamFrame k).2 := by
  unfold State.streamFrame
  split
  · dsimp only
    exact State.streamSamples_touches k 32 s
  · exact Touches.refl _ s
  · exact Touches.refl _ s

theorem State.streamFrames_touches (s : State) : Touches grantParts s s.streamFrames.2 :=
  Touches.foldl_pair (β := Table 16 Frame)
    (f := fun acc k => ((acc.1.put k (acc.2.streamFrame k).1 : Table 16 Frame), (acc.2.streamFrame k).2))
    (fun a k => a.2.streamFrame_touches k) (List.finRange 16) ((Table.fill 16 Frame.zero : Table 16 Frame), s)

theorem State.stopStream_touches (s : State) (k : Fin 16) :
    Touches [.streams, .clipStore, .arbiter] s (s.stopStream k) :=
  ((((s.dropPlays_touches _).mono (by decide)).trans ((State.dropPlays_touches _ _).mono (by decide))).trans
    ((State.setStream_touches _ k _).mono (by decide))).trans ((State.cancelFetch_touches _ _).mono (by decide))

theorem State.addListener_touches (s : State) (k : Option (Fin 16)) : Touches [.streams] s (s.addListener k) := by
  unfold State.addListener
  split
  · exact s.setStream_touches _ _
  · exact Touches.refl _ s

theorem State.dropListener_touches (s : State) (k : Option (Fin 16)) : Touches [.streams] s (s.dropListener k) := by
  unfold State.dropListener
  split
  · exact s.setStream_touches _ _
  · exact Touches.refl _ s

/-! ## The whisper block -/

theorem State.announceEnded_touches (s : State) (p : Fin 64) (c : Bool) :
    Touches [.positions, .streams, .events] s (s.announceEnded p c) := by
  unfold State.announceEnded
  dsimp only
  refine Touches.trans ?_ ((State.fileOwner_touches _ _ _ _ _).mono (by decide))
  split
  · exact ((s.setPos_touches p _).mono (by decide)).trans ((State.dropListener_touches _ _).mono (by decide))
  · exact (s.setPos_touches p _).mono (by decide)
  · exact Touches.refl _ s
  · exact Touches.refl _ s
  · exact Touches.refl _ s

theorem State.promptRequest_touches (s : State) (w : Fin 16) : Touches grantParts s (s.promptRequest w) := by
  unfold State.promptRequest
  dsimp only
  split
  · exact ((s.setPlayer_touches w _).mono (by decide)).trans (State.requestFetch_touches _ _)
  · exact Touches.refl _ s

theorem State.assign_touches (s : State) (w : Fin 16) (p : Fin 64) : Touches grantParts s (s.assign w p) :=
  (((s.setQueue_touches p _).mono (by decide)).trans ((State.setPlayer_touches _ w _).mono (by decide))).trans
    (State.promptRequest_touches _ w)

theorem State.assignments_touches (n : Nat) (s : State) : Touches grantParts s (State.assignments n s) := by
  induction n generalizing s with
  | zero => exact Touches.refl _ s
  | succ n ih =>
    unfold State.assignments
    split
    · exact (s.assign_touches _ _).trans (ih _)
    · exact Touches.refl _ s

theorem State.assignPlayers_touches (s : State) : Touches grantParts s s.assignPlayers := State.assignments_touches 16 s

theorem State.flushPlayer_touches (s : State) (p : Fin 64) : Touches [.whisper, .arbiter] s (s.flushPlayer p) := by
  unfold State.flushPlayer
  split
  · exact ((s.setPlayer_touches _ _).mono (by decide)).trans ((State.cancelFetch_touches _ _).mono (by decide))
  · exact Touches.refl _ s

/-- The pieces the flush of whisper entries may change (R161). -/
def flushParts : List Part := [.positions, .clipStore, .arbiter, .streams, .whisper, .events]

theorem State.flushed_touches (s : State) (p : Fin 64) (cause : FlushCause) (e : Entry) :
    Touches flushParts s (s.flushed p cause e) := by
  have h1 : Touches flushParts s (s.dropPlay e.clip) := (s.dropPlay_touches _).mono (by decide)
  have h2 : Touches flushParts s
      (if e.phase = .waiting then s.dropPlay e.clip else (s.dropPlay e.clip).flushPlayer p) := by
    split
    · exact h1
    · exact h1.trans ((State.flushPlayer_touches _ p).mono (by decide))
  have h3 := fun k o d => h2.trans ((State.file_touches _ e.origin k o d).mono (b := flushParts) (by decide))
  unfold State.flushed
  dsimp only
  split
  · exact (h3 _ _ _).trans ((State.announceEnded_touches _ p true).mono (by decide))
  · exact h3 _ _ _

theorem State.flush_touches (s : State) (p : Fin 64) (cause : FlushCause) (chosen : Entry → Bool) :
    Touches flushParts s (s.flush p cause chosen) :=
  ((s.setQueue_touches p _).mono (by decide)).trans (Touches.foldl (fun s e => s.flushed_touches p cause e) _ _)

theorem State.numbered_touches (s : State) : Touches [.whisper] s s.numbered := Touches.of_whisper s _

theorem State.queueEntry_touches (s : State) (p : Fin 64) (port : Port) (e : Entry) (place : List Entry → List Entry) :
    Touches grantParts s (s.queueEntry p port e place) :=
  (((((s.setQueue_touches p _).mono (by decide)).trans ((State.numbered_touches _).mono (by decide))).trans
    ((State.addPlay_touches _ _).mono (by decide))).trans ((State.note_touches _ _ _ _).mono (by decide))).trans
    (State.assignPlayers_touches _)

theorem State.soundHeads_touches (s : State) : Touches [.whisper] s s.soundHeads :=
  Touches.foldl (fun s p => Touches.ite _ (s.setQueue_touches p _) (Touches.refl _ s)) _ s

/-- The pieces that frames and completions of whisper entries may change. -/
def whisperParts : List Part := [.positions, .arbiter, .streams, .clipStore, .events, .whisper, .ports]

theorem State.whisperSample_touches (s : State) (p : Fin 64) (w : Fin 16) :
    Touches whisperParts s (s.whisperSample p w).2 := by
  unfold State.whisperSample
  split
  · exact (s.setPlayer_touches w _).mono (by decide)
  · exact ((s.setPlayer_touches w _).mono (by decide)).trans
      (((State.promptRequest_touches _ w).mono (by decide)).trans ((State.setPlayer_touches _ w _).mono (by decide)))
  · exact (s.setPos_touches p _).mono (by decide)
  · exact Touches.refl _ s

theorem State.whisperSamples_touches (p : Fin 64) (w : Fin 16) (n : Nat) (s : State) :
    Touches whisperParts s (State.whisperSamples p w n s).2 := by
  induction n generalizing s with
  | zero => exact Touches.refl _ s
  | succ n ih => exact (s.whisperSample_touches p w).trans (ih _)

theorem State.whisperFrame_touches (s : State) (p : Fin 64) : Touches whisperParts s (s.whisperFrame p).2 := by
  unfold State.whisperFrame
  split
  · split
    · dsimp only
      exact State.whisperSamples_touches p _ 32 s
    · exact Touches.refl _ s
  · exact Touches.refl _ s

theorem State.whisperFrames_touches (s : State) : Touches whisperParts s s.whisperFrames.2 :=
  Touches.foldl_pair (β := Table 64 Frame)
    (f := fun acc p => ((acc.1.put p (acc.2.whisperFrame p).1 : Table 64 Frame), (acc.2.whisperFrame p).2))
    (fun a p => a.2.whisperFrame_touches p) (List.finRange 64) ((Table.fill 64 Frame.zero : Table 64 Frame), s)

theorem State.completeEntry_touches (s : State) (p : Fin 64) (w : Fin 16) (e : Entry) :
    Touches whisperParts s (s.completeEntry p w e) := by
  have h1 : Touches whisperParts s ((s.setQueue p (s.queue p).tail).dropPlay e.clip) :=
    ((s.setQueue_touches p _).mono (by decide)).trans ((State.dropPlay_touches _ _).mono (by decide))
  have h2 := fun x => h1.trans ((State.setPlayer_touches _ w x).mono (b := whisperParts) (by decide))
  have h3 := fun x k o d => (h2 x).trans ((State.file_touches _ e.origin k o d).mono (b := whisperParts) (by decide))
  unfold State.completeEntry
  dsimp only
  refine Touches.trans ?_ ((State.assignPlayers_touches _).mono (by decide))
  split
  · exact (h3 _ _ _ _).trans ((State.announceEnded_touches _ p false).mono (by decide))
  · exact h3 _ _ _ _

theorem State.completeHead_touches (s : State) (p : Fin 64) : Touches whisperParts s (s.completeHead p) := by
  unfold State.completeHead
  split
  · split
    · exact s.completeEntry_touches p _ _
    · exact Touches.refl _ s
  · exact Touches.refl _ s

theorem State.completeHeads_touches (s : State) : Touches whisperParts s s.completeHeads :=
  Touches.foldl (fun s p => s.completeHead_touches p) _ s

/-! ## Suppressor, canceller, mixer -/

theorem State.suppressFrames_touches (s : State) : Touches [.suppress] s s.suppressFrames := Touches.of_suppress s _

theorem State.setFirstFrames_touches (s : State) : Touches [.suppress] s s.setFirstFrames := Touches.of_suppress s _

theorem State.allocate_touches (s : State) (p : Fin 64) (n : Nat) : Touches [.echo] s (s.allocate p n) :=
  Touches.of_echo s _

theorem State.keepSegments_touches (s : State) (p : Fin 64) (n : Nat) : Touches [.echo] s (s.keepSegments p n) :=
  Touches.of_echo s _

theorem State.clearCanceller_touches (s : State) (p : Fin 64) : Touches [.echo] s (s.clearCanceller p) :=
  (Touches.of_echo s _).trans (Touches.of_echo _ _)

theorem State.afterEcho_touches (s : State) (p : Fin 64) (f : EchoFrame) :
    Touches [.echo, .positions, .events] s (s.afterEcho p f) := by
  unfold State.afterEcho
  dsimp only
  split
  · exact (((Touches.of_echo s _).mono (by decide)).trans ((State.setPos_touches _ p _).mono (by decide))).trans
      ((State.fileOwner_touches _ _ _ _ _).mono (by decide))
  · exact ((Touches.of_echo s _).mono (by decide)).trans ((State.setPos_touches _ p _).mono (by decide))

theorem State.echo1_touches (s : State) (p : Fin 64) : Touches [.echo, .positions, .events] s (s.echo1 p).2 := by
  unfold State.echo1
  split
  · exact s.afterEcho_touches p _
  · exact Touches.refl _ s

theorem State.echoFrames_touches (s : State) : Touches [.echo, .positions, .events] s s.echoFrames.2 :=
  Touches.foldl_pair (β := Table 64 Frame)
    (f := fun acc p => ((acc.1.put p (acc.2.echo1 p).1 : Table 64 Frame), (acc.2.echo1 p).2))
    (fun a p => a.2.echo1_touches p) (List.finRange 64) ((Table.fill 64 Frame.zero : Table 64 Frame), s)

theorem State.dropTap_touches (s : State) (t : Fin 16) (x : Tap) (r : DropReason) :
    Touches [.mixer, .events] s (s.dropTap t x r) :=
  ((Touches.of_mixer s _).mono (by decide)).trans ((State.file_touches _ _ _ _ _).mono (by decide))

theorem State.dropListenerTaps_touches (s : State) (p : Fin 64) : Touches [.mixer, .events] s (s.dropListenerTaps p) :=
  Touches.foldl (fun s (x : Fin 16 × Tap) => Touches.ite _ (s.dropTap_touches x.1 x.2 _) (Touches.refl _ s)) _ s

theorem State.dropTapsOf_touches (s : State) (p : Fin 64) : Touches [.mixer, .events] s (s.dropTapsOf p) :=
  Touches.foldl
    (fun s (x : Fin 16 × Tap) => Touches.ite _ (s.dropTap_touches x.1 x.2 _)
      (Touches.ite _ (s.dropTap_touches x.1 x.2 _) (Touches.refl _ s))) _ s

theorem State.updateCoachDuck_touches (s : State) : Touches [.mixer] s s.updateCoachDuck := Touches.of_mixer s _

theorem State.mix_touches (s : State) (m : MixInputs) : Touches [.positions, .highway] s (s.mix m) := by
  intro y hy; cases y <;> first | rfl | exact absurd (by simp) hy

/-! ## The highway interface -/

theorem State.headsetChange_touches (s : State) (a : Fin 64) (d : Nat) : Touches [.events] s (s.headsetChange a d) := by
  unfold State.headsetChange
  split
  · exact s.fileOwner_touches _ _ _ _
  · exact Touches.refl _ s

theorem State.expireSlot_touches (s : State) (a : Fin 64) : Touches [.highway, .events] s (s.expireSlot a) := by
  unfold State.expireSlot
  dsimp only
  split
  · exact ((Touches.of_highway s _).mono (by decide)).trans ((State.headsetChange_touches _ a _).mono (by decide))
  · exact Touches.refl _ s

theorem State.settleDebounce_touches (s : State) : Touches [.highway, .events] s s.settleDebounce :=
  Touches.foldl (fun s a => s.expireSlot_touches a) _ s

theorem State.completeFrame_touches (s : State) : Touches frameParts s s.completeFrame := by
  have h1 : Touches frameParts s s.stamped := (Touches.of_highway s _).mono (by decide)
  have h2 := h1.trans ((State.echoFrames_touches s.stamped).mono (by decide))
  have h3 := h2.trans ((State.suppressFrames_touches _).mono (b := frameParts) (by decide))
  have h4 := h3.trans ((State.streamFrames_touches _).mono (b := frameParts) (by decide))
  have h5 := h4.trans ((State.soundHeads_touches _).mono (b := frameParts) (by decide))
  have h6 := h5.trans ((State.whisperFrames_touches _).mono (b := frameParts) (by decide))
  have h7 := h6.trans ((State.updateCoachDuck_touches _).mono (b := frameParts) (by decide))
  refine Touches.trans ?_ ((State.completeHeads_touches _).mono (by decide))
  refine Touches.trans ?_ ((Touches.of_highway _ _).mono (b := frameParts) (by decide))
  refine Touches.trans ?_ ((Touches.of_highway _ _).mono (b := frameParts) (by decide))
  exact h7.trans ((State.mix_touches _ _).mono (by decide))

theorem State.settle_touches (s : State) : Touches frameParts s s.settle := by
  unfold State.settle State.settleFrame
  split
  · exact ((s.settleDebounce_touches).mono (by decide)).trans (State.completeFrame_touches _)
  · exact (s.settleDebounce_touches).mono (by decide)

/-! ## Positions -/

theorem State.unbindAgent_touches (s : State) (a : Option (Fin 64)) : Touches [.highway] s (s.unbindAgent a) := by
  unfold State.unbindAgent
  split
  · exact Touches.of_highway s _
  · exact Touches.refl _ s

theorem State.unbindTrunk_touches (s : State) (t : Option (Fin 64)) : Touches [.highway] s (s.unbindTrunk t) := by
  unfold State.unbindTrunk
  split
  · exact Touches.of_highway s _
  · exact Touches.refl _ s

theorem State.closeRecord_touches (s : State) (p : Fin 64) : Touches [.positions, .events] s (s.closeRecord p) := by
  unfold State.closeRecord
  dsimp only
  split
  · exact ((s.setPos_touches p _).mono (by decide)).trans ((State.fileOwner_touches _ _ _ _ _).mono (by decide))
  · exact (s.setPos_touches p _).mono (by decide)

theorem State.closeBlocks_touches (s : State) (p : Fin 64) : Touches [.suppress, .echo, .mixer] s (s.closeBlocks p) :=
  (((Touches.of_suppress s _).mono (by decide)).trans ((Touches.of_echo _ _).mono (by decide))).trans
    ((Touches.of_mixer _ _).mono (by decide))

theorem State.closing_touches (s : State) (p : Fin 64) (cause : FlushCause) :
    Touches closeParts s (s.closing p cause) := by
  have h1 : Touches closeParts s (s.flush p cause fun _ => true) := (s.flush_touches p cause _).mono (by decide)
  have h2 := h1.trans ((State.dropTapsOf_touches _ p).mono (b := closeParts) (by decide))
  have h3 := h2.trans ((State.keepSegments_touches _ p 0).mono (b := closeParts) (by decide))
  have h4 := fun a => h3.trans ((State.unbindAgent_touches _ a).mono (b := closeParts) (by decide))
  exact ((h4 _).trans ((State.closeRecord_touches _ p).mono (by decide))).trans
    ((State.closeBlocks_touches _ p).mono (by decide))

theorem State.releasing_touches (s : State) (p : Fin 64) (cause : FlushCause) :
    Touches closeParts s (s.releasing p cause) := by
  have h1 : Touches closeParts s (s.flush p cause fun _ => true) := (s.flush_touches p cause _).mono (by decide)
  have h2 := fun k o d => Touches.ite (s.announceQueued p = true)
    (h1.trans ((State.fileOwner_touches _ ((s.flush p cause fun _ => true).pos p).owner k o d).mono
      (b := closeParts) (by decide))) h1
  have h3 := fun k o d a => (h2 k o d).trans ((State.dropListener_touches _ a).mono (b := closeParts) (by decide))
  have h4 := fun k o d a t => (h3 k o d a).trans ((State.unbindTrunk_touches _ t).mono (b := closeParts) (by decide))
  exact (h4 _ _ _ _ _).trans ((State.setPos_touches _ p _).mono (by decide))

end Sys2Proof.Machine
end

