-- ==== Sys2Proof/Laws/Arbiter.lean ====
section
/-! SUPPORT. What a grant, an assignment of players and a flush keep: each keeps whatever every one of its
elementary acts keeps; and what the delivery of a page keeps of a stream and of a clip. -/

namespace Sys2Proof.Machine

/-! ## The grant (R125, R126, R129) -/

theorem State.portChoice_some {s : State} {p : Port} {op : PortOp} (h : s.portChoice = some (p, op)) :
    s.arbiter.pendingOps.cell p = some op := by
  unfold State.portChoice at h
  split at h
  · cases h
  · next h0 _ => cases h; exact h0
  · next _ h1 => cases h; exact h1
  · next h0 h1 =>
    split at h <;> cases h
    · exact h0
    · exact h0
    · exact h1

theorem State.grant_of_busy {s : State} (h : s.arbiter.bus ≠ none) : s.grant = s := by
  unfold State.grant State.grantRounds
  cases hb : s.arbiter.bus with
  | none => exact absurd hb h
  | some _ => rfl

/-- What each act of the grant keeps, the grant keeps. -/
theorem State.grantRounds_keeps {P : State → Prop}
    (scrub : ∀ s, P s → s.arbiter.bus = none → P s.startScrub)
    (deliver : ∀ s f rest, P s → s.arbiter.bus = none → s.arbiter.queue = f :: rest →
      P (s.unqueue.deliver f s.silentPage))
    (fetch : ∀ s f rest, P s → s.arbiter.bus = none → s.arbiter.queue = f :: rest → P (s.unqueue.startBus (.fetch f)))
    (read : ∀ s p clip index page, P s → s.arbiter.bus = none →
      s.arbiter.pendingOps.cell p = some (.read clip index page) →
      P ((s.grantPort p).readReply p clip index s.silentPage true))
    (port : ∀ s p op, P s → s.arbiter.bus = none → s.arbiter.pendingOps.cell p = some op →
      P ((s.grantPort p).startBus (.port p op))) :
    ∀ (n : Nat) (s : State), P s → P (State.grantRounds n s)
  | 0, _, h => h
  | n + 1, s, h => by
    have ih := State.grantRounds_keeps scrub deliver fetch read port n
    unfold State.grantRounds
    split
    · exact h
    · next hb =>
      split
      · exact scrub s h hb
      · split
        · next f rest hq =>
          split
          · exact ih _ (deliver s f rest h hb hq)
          · exact fetch s f rest h hb hq
        · split
          · next hc => exact port s _ _ h hb (State.portChoice_some hc)
          · next hc =>
            split
            · exact ih _ (read s _ _ _ _ h hb (State.portChoice_some hc))
            · exact port s _ _ h hb (State.portChoice_some hc)
          · split
            · exact scrub s h hb
            · exact h

/-! ## Players and flushes (R161, R163) -/

theorem State.assignments_keeps {P : State → Prop}
    (step : ∀ s w p, P s → s.freePlayer = some w → s.oldestHead = some p → P (s.assign w p)) :
    ∀ (n : Nat) (s : State), P s → P (State.assignments n s)
  | 0, _, h => h
  | n + 1, s, h => by
    unfold State.assignments
    split
    · next hw hp => exact State.assignments_keeps step n _ (step s _ _ h hw hp)
    · exact h

theorem State.assignPlayers_keeps {P : State → Prop}
    (step : ∀ s w p, P s → s.freePlayer = some w → s.oldestHead = some p → P (s.assign w p)) (s : State) (h : P s) :
    P s.assignPlayers := State.assignments_keeps step 16 s h

/-- What holds along a fold over a list holds at its end. -/
theorem foldl_keeps {α β : Type} {P : β → Prop} {f : β → α → β} (step : ∀ s x, P s → P (f s x)) :
    ∀ (l : List α) (s : β), P s → P (l.foldl f s)
  | [], _, h => h
  | x :: l, s, h => foldl_keeps step l (f s x) (step s x h)

theorem State.flush_keeps {P : State → Prop} (s : State) (p : Fin 64) (cause : FlushCause) (chosen : Entry → Bool)
    (queue : P (s.setQueue p ((s.queue p).filter fun e => !chosen e)))
    (step : ∀ t e, P t → P (t.flushed p cause e)) : P (s.flush p cause chosen) :=
  foldl_keeps (fun t e h => step t e h) _ _ queue

/-! ## Filing -/

/-- A function of the state that does not read the events is the same after a record is filed. -/
theorem State.file_keeps {α : Type} (f : State → α) (h : ∀ s e, f { s with events := e } = f s) (s : State) (p : Port)
    (k : EventKind) (o d : Nat) : f (s.file p k o d) = f s := by
  unfold State.file
  split
  · exact h s _
  · rfl

theorem State.fileOwner_keeps {α : Type} (f : State → α) (h : ∀ s e, f { s with events := e } = f s) (s : State)
    (p : Option Port) (k : EventKind) (o d : Nat) : f (s.fileOwner p k o d) = f s := by
  cases p with
  | none => rfl
  | some q => exact State.file_keeps f h s q k o d

theorem State.fileBoth_keeps {α : Type} (f : State → α) (h : ∀ s e, f { s with events := e } = f s) (s : State)
    (k : EventKind) (o d : Nat) : f (s.fileBoth k o d) = f s :=
  (State.file_keeps f h _ _ k o d).trans (State.file_keeps f h _ _ k o d)

/-- Filing and replying do not meet. -/
theorem State.taken_file_answer (s : State) (port q : Port) (code : Byte) (k : EventKind) (o d : Nat) (status : Status)
    (payload : List Byte) :
    ((s.taken port code).file q k o d).answer port status payload = (s.file q k o d).replied port code status payload := by
  have e : (s.taken port code).enabled q = s.enabled q := by cases q <;> rfl
  unfold State.file
  rw [e]
  split <;> cases port <;> rfl

/-! ## Play counts (R115) -/

theorem State.dropPlay_clip (s : State) (c d : Fin 256) :
    (s.dropPlay c).clip d = if c = d then { s.clip d with plays := (s.clip d).plays - 1 } else s.clip d := by
  unfold State.dropPlay State.setClip
  simp only [State.clip, Table.cell_put]
  by_cases h : c = d
  · subst h; simp
  · simp [h]

theorem State.addPlay_clip (s : State) (c d : Fin 256) :
    (s.addPlay c).clip d = if c = d then { s.clip d with plays := (s.clip d).plays + 1 } else s.clip d := by
  unfold State.addPlay State.setClip
  simp only [State.clip, Table.cell_put]
  by_cases h : c = d
  · subst h; simp
  · simp [h]

/-- Returning the play counts of a list of items lowers each clip's by the number of items that name it. -/
theorem dropPlays_clip (items : List Item) (s : State) (d : Fin 256) :
    (items.foldl (fun s i => s.dropPlay i.clip) s).clip d
      = { s.clip d with plays := (s.clip d).plays - (items.filter fun i => i.clip = d).length } := by
  induction items generalizing s with
  | nil => rfl
  | cons i items ih =>
    rw [List.foldl_cons, ih, State.dropPlay_clip]
    by_cases h : i.clip = d
    · simp [h, Nat.sub_sub, Nat.add_comm]
    · simp [h]

theorem addPlays_clip (items : List Item) (s : State) (d : Fin 256) :
    (items.foldl (fun s i => s.addPlay i.clip) s).clip d
      = { s.clip d with plays := (s.clip d).plays + (items.filter fun i => i.clip = d).length } := by
  induction items generalizing s with
  | nil => rfl
  | cons i items ih =>
    rw [List.foldl_cons, ih, State.addPlay_clip]
    by_cases h : i.clip = d
    · simp [h]; omega
    · simp [h]

/-! ## What the delivery of a page keeps of a stream (R128, R146, R149) -/

/-- Two streams agree in everything that the arrival of a page does not concern. -/
structure Stream.SameBeyondFetch (x y : Stream) : Prop where
  state : y.state = x.state
  owner : y.owner = x.owner
  generation : y.generation = x.generation
  playing : y.playing = x.playing
  priming : y.priming = x.priming
  underrun : y.underrun = x.underrun
  listeners : y.listeners = x.listeners
  underrunSamples : y.underrunSamples = x.underrunSamples

theorem Stream.SameBeyondFetch.refl (x : Stream) : x.SameBeyondFetch x := ⟨rfl, rfl, rfl, rfl, rfl, rfl, rfl, rfl⟩

theorem Stream.SameBeyondFetch.trans {x y z : Stream} (h : x.SameBeyondFetch y) (k : y.SameBeyondFetch z) :
    x.SameBeyondFetch z :=
  ⟨k.1.trans h.1, k.2.trans h.2, k.3.trans h.3, k.4.trans h.4, k.5.trans h.5, k.6.trans h.6, k.7.trans h.7,
    k.8.trans h.8⟩

theorem State.setStream_stream (s : State) (k j : Fin 16) (x : Stream) :
    (s.setStream k x).stream j = if k = j then x else s.stream j := by
  unfold State.setStream; simp only [State.stream, Table.cell_put]

theorem State.fileOwner_stream (s : State) (p : Option Port) (k : EventKind) (o d : Nat) (j : Fin 16) :
    (s.fileOwner p k o d).stream j = s.stream j :=
  State.fileOwner_keeps (fun t => t.stream j) (fun _ _ => rfl) s p k o d

theorem State.dropPlays_stream (s : State) (l : Option Playlist) (j : Fin 16) :
    (s.dropPlays l).stream j = s.stream j :=
  congrArg (fun t => Table.cell t j) ((State.dropPlays_touches s l) .streams (by simp))

theorem State.switch_stream (s : State) (k j : Fin 16) (i : Nat) :
    (s.stream j).SameBeyondFetch ((s.switch k i).stream j) := by
  unfold State.switch
  split
  · exact .refl _
  · dsimp only
    rw [State.fileOwner_stream, State.setStream_stream, State.dropPlays_stream]
    split
    · next h => subst h; exact ⟨rfl, rfl, rfl, rfl, rfl, rfl, rfl, rfl⟩
    · exact .refl _

theorem State.itemEnd_stream (s : State) (k j : Fin 16) (i : Nat) :
    (s.stream j).SameBeyondFetch ((s.itemEnd k i).stream j) := by
  unfold State.itemEnd
  dsimp only
  split
  · exact s.switch_stream k j i
  · split
    · rw [State.setStream_stream]
      split
      · next h => subst h; exact ⟨rfl, rfl, rfl, rfl, rfl, rfl, rfl, rfl⟩
      · exact .refl _
    · exact .refl _

theorem State.streamArrival_stream (s : State) (k j : Fin 16) (index : Nat) (codes : PageCodes) :
    (s.stream j).SameBeyondFetch ((s.streamArrival k index codes).stream j) := by
  unfold State.streamArrival
  dsimp only
  split
  · split
    · have h : ∀ n : StreamNext, (s.stream j).SameBeyondFetch ((s.setStream k { s.stream k with next := n }).stream j) := by
        intro n
        rw [State.setStream_stream]
        split
        · next h => subst h; exact ⟨rfl, rfl, rfl, rfl, rfl, rfl, rfl, rfl⟩
        · exact .refl _
      split
      · exact (h _).trans (State.itemEnd_stream _ k j _)
      · exact h _
    · exact .refl _
  · exact .refl _

theorem State.setPlayer_stream (s : State) (w : Fin 16) (x : PromptPlayer) (j : Fin 16) :
    (s.setPlayer w x).stream j = s.stream j := rfl

theorem State.deliver_stream (s : State) (f : Fetch) (codes : PageCodes) (j : Fin 16) :
    (s.stream j).SameBeyondFetch ((s.deliver f codes).stream j) := by
  unfold State.deliver
  split
  · split
    · exact s.streamArrival_stream _ j _ _
    · exact .refl _
  · split
    · unfold State.promptArrival
      dsimp only
      split
      · exact .refl _
      · exact .refl _
    · exact .refl _

theorem State.grant_stream (s : State) (j : Fin 16) : (s.stream j).SameBeyondFetch (s.grant.stream j) := by
  unfold State.grant
  refine State.grantRounds_keeps (P := fun t => (s.stream j).SameBeyondFetch (t.stream j)) ?_ ?_ ?_ ?_ ?_ _ s (.refl _)
  · intro t h _; exact h
  · intro t f rest h _ _; exact h.trans (State.deliver_stream t.unqueue f _ j)
  · intro t f rest h _ _; exact h
  · intro t p clip index page h _ _; exact h
  · intro t p op h _ _; exact h

/-! ## What the delivery of a page keeps of a clip -/

/-- A page's delivery may return play counts, and changes nothing else of a clip. -/
theorem State.grant_clip (s : State) (c : Fin 256) :
    { s.grant.clip c with plays := 0 } = { s.clip c with plays := 0 } := by
  have hf : ∀ (t : State) (p : Option Port) (k : EventKind) (o d : Nat), (t.fileOwner p k o d).clip c = t.clip c :=
    State.fileOwner_keeps (fun t => t.clip c) (fun _ _ => rfl)
  have hd : ∀ (t : State) (l : Option Playlist), { (t.dropPlays l).clip c with plays := 0 } = { t.clip c with plays := 0 } := by
    intro t l
    cases l with
    | none => rfl
    | some l => exact congrArg (fun x : Clip => { x with plays := 0 }) (dropPlays_clip l.items t c)
  have hi : ∀ (t : State) (k : Fin 16) (i : Nat), { (t.itemEnd k i).clip c with plays := 0 } = { t.clip c with plays := 0 } := by
    intro t k i
    unfold State.itemEnd
    dsimp only
    split
    · unfold State.switch
      split
      · rfl
      · dsimp only; rw [hf]; exact hd t _
    · split <;> rfl
  have hv : ∀ (t : State) (f : Fetch) (codes : PageCodes),
      { (t.deliver f codes).clip c with plays := 0 } = { t.clip c with plays := 0 } := by
    intro t f codes
    unfold State.deliver
    split
    · split
      · unfold State.streamArrival
        dsimp only
        split
        · split
          · split
            · exact hi _ _ _
            · rfl
          · rfl
        · rfl
      · rfl
    · split
      · unfold State.promptArrival
        dsimp only
        split <;> rfl
      · rfl
  unfold State.grant
  refine State.grantRounds_keeps (P := fun t => { t.clip c with plays := 0 } = { s.clip c with plays := 0 })
    ?_ ?_ ?_ ?_ ?_ _ s rfl
  · intro t h _; exact h
  · intro t f rest h _ _; exact (hv t.unqueue f _).trans h
  · intro t f rest h _ _; exact h
  · intro t p clip index page h _ _; exact h
  · intro t p op h _ _; exact h

end Sys2Proof.Machine
end

