-- ==== Sys2Proof/Laws/Samples.lean ====
section
/-! SUPPORT. The sample arithmetic as whole-number division (R1, R2). -/

namespace Sys2Proof.Machine

theorem shiftRight_eq_div (x : Int) (n : Nat) : shiftRight x n = x / 2 ^ n := by
  rw [shiftRight, Int.shiftRight_eq_div_pow]
  norm_cast

theorem applyGain_eq (g : Nat) (x : Int) : applyGain g x = (x * g + 16384) / 32768 := by
  rw [applyGain, shiftRight_eq_div]
  norm_num

theorem rampSample_eq (previous next i : Nat) (m : Int) :
    rampSample previous next i m = (m * rampGain previous next i + 16384) / 32768 := by
  rw [rampSample, shiftRight_eq_div]
  norm_num

theorem halved_eq (a : Int) : halved a = (a + 1) / 2 := by
  rw [halved, shiftRight_eq_div]
  norm_num

theorem saturate_range (x : Int) : -32768 ≤ saturate x ∧ saturate x ≤ 32767 := by
  unfold saturate
  omega

theorem saturate_of_range {x : Int} (h : -32768 ≤ x) (k : x ≤ 32767) : saturate x = x := by
  unfold saturate
  omega

theorem clips_iff (x : Int) : clips x = true ↔ saturate x ≠ x := by
  unfold clips saturate
  simp only [Bool.or_eq_true, decide_eq_true_eq]
  omega

end Sys2Proof.Machine
end

