-- ==== Sys2Proof/Laws/Canceller.lean ====
section
/-! SUPPORT. The echo canceller's taps under allocation, clearing and writing back, the lengths its run keeps, and the
range of expanded codes (R15, R17, R62 to R66, R69, R74). -/

namespace Sys2Proof.Machine

/-! ## Segments and taps -/

theorem zeroTaps_eq (gs : List (Fin 128)) (m : Table 128 (Table 128 Int)) :
    zeroTaps gs m = Table.build fun g => if g ∈ gs then Table.fill 128 0 else m.cell g := by
  apply Table.ext_cell; intro g
  rw [Table.cell_build]
  unfold zeroTaps
  induction gs generalizing m with
  | nil => simp
  | cons a gs ih =>
    rw [List.foldl_cons, ih]
    by_cases h : g ∈ gs
    · simp [h]
    · simp only [h, if_false, Table.cell_put, List.mem_cons, or_false]
      by_cases h2 : a = g
      · subst h2; simp
      · simp [h2, Ne.symm h2]

theorem writeTaps_other (gs : List (Fin 128)) (taps : List Int) (m : Table 128 (Table 128 Int)) (g : Fin 128) (h : g ∉ gs) :
    (writeTaps gs taps m).cell g = m.cell g := by
  induction gs generalizing taps m with
  | nil => rfl
  | cons a gs ih =>
    simp only [List.mem_cons, not_or] at h
    rw [writeTaps, ih _ _ h.2, Table.cell_put_other _ _ _ _ (Ne.symm h.1)]

theorem writeTaps_read (gs : List (Fin 128)) (hn : gs.Nodup) (taps : List Int) (hl : taps.length = 128 * gs.length) (m : Table 128 (Table 128 Int)) :
    (gs.flatMap fun g => ((writeTaps gs taps m).cell g).toList) = taps := by
  induction gs generalizing taps m with
  | nil => simp at hl; simp [hl]
  | cons a gs ih =>
    rw [List.nodup_cons] at hn
    rw [List.flatMap_cons]
    rw [writeTaps, writeTaps_other _ _ _ _ hn.1, Table.cell_put_self]
    rw [ih hn.2 (taps.drop 128) (by simp only [List.length_drop, hl, List.length_cons]; omega)]
    have : (Table.ofList 128 0 (taps.take 128)).toList = taps.take 128 := by
      simp only [List.length_cons] at hl
      apply List.ext_getElem
      · simp; omega
      · intro i h1 h2
        simp only [Table.ofList, Table.build]
        simp at h1 h2 ⊢
        rw [List.getElem?_eq_getElem (by omega)]
        simp
    rw [this, List.take_append_drop]

theorem writeTaps_same (gs : List (Fin 128)) (m : Table 128 (Table 128 Int)) :
    writeTaps gs (gs.flatMap fun g => (m.cell g).toList) m = m := by
  induction gs with
  | nil => rfl
  | cons a gs ih =>
    rw [List.flatMap_cons, writeTaps]
    have h1 : ((m.cell a).toList ++ gs.flatMap fun g => (m.cell g).toList).drop 128 = gs.flatMap fun g => (m.cell g).toList := by
      rw [List.drop_left' (by simp)]
    have h2 : ((m.cell a).toList ++ gs.flatMap fun g => (m.cell g).toList).take 128 = (m.cell a).toList := by
      rw [List.take_left' (by simp)]
    rw [h1, h2]
    have h3 : Table.ofList 128 0 (m.cell a).toList = m.cell a := by
      apply Table.ext_cell; intro i; rw [Table.cell_ofList]
      simp [Table.cell]
    rw [h3, Table.put_cell, ih]

/-! ## A run over one frame -/

theorem EchoRun.sample_lengths (rec : Position) (a : Bool) (r : EchoRun) (x : Int × Int) (h : r.taps.length ≤ 512) (hh : r.history.length = 512) :
   (r.sample rec a x).taps.length = r.taps.length ∧ (r.sample rec a x).history.length = 512 := by
  have e : (r.enter x.2).history.length = 512 := by simp [EchoRun.enter, hh]
  have hd : ∀ d, ((r.enter x.2).doubleTalk rec.mode rec.hang d).history = (r.enter x.2).history ∧ ((r.enter x.2).doubleTalk rec.mode rec.hang d).taps = r.taps := by
    intro d; unfold EchoRun.doubleTalk; cases rec.mode <;> dsimp only <;> (try split) <;> exact ⟨rfl, rfl⟩
  unfold EchoRun.sample EchoRun.adapt
  dsimp only
  split
  · simp only [List.length_zipWith, (hd _).1, (hd _).2, e]; exact ⟨by omega, trivial⟩
  · simp only [(hd _).1, (hd _).2, e]; trivial

theorem EchoRun.fold_taps_length (rec : Position) (a : Bool) (l : List (Int × Int)) (r : EchoRun) (h : r.taps.length ≤ 512) (hh : r.history.length = 512) :
   (l.foldl (EchoRun.sample rec a) r).taps.length = r.taps.length := by
  induction l generalizing r with
  | nil => rfl
  | cons x l ih =>
    obtain ⟨h1, h2⟩ := EchoRun.sample_lengths rec a r x h hh
    rw [List.foldl_cons, ih _ (by omega) h2, h1]

theorem expand_range (l : Law) (c : Byte) : -32768 ≤ expand l c ∧ expand l c ≤ 32767 := by
  have h : ∀ c : Byte, (-32768 ≤ muExpand c ∧ muExpand c ≤ 32767) ∧ (-32768 ≤ aExpand c ∧ aExpand c ≤ 32767) := by decide +kernel
  cases l
  · exact (h c).1
  · exact (h c).2

theorem heard_range {l : Law} {r : Option (List Byte)} {f : Frame} (h : heard l r = some f) (i : Fin 32) : -32768 ≤ f.cell i ∧ f.cell i ≤ 32767 := by
  unfold heard at h
  cases r with
  | none => cases h
  | some codes =>
    dsimp only at h
    split at h
    · next hl =>
      cases h
      rw [Table.cell_ofList]
      rw [List.getD_eq_getElem _ _ (by simp [hl]), List.getElem_map]
      exact expand_range _ _
    · cases h

theorem State.echoInput_range (s : State) (p : Fin 64) (i : Fin 32) : -32768 ≤ (s.echoInput p).1.cell i ∧ (s.echoInput p).1.cell i ≤ 32767 := by
  unfold State.echoInput State.lineFrames
  cases s.trunkLine p with
  | none => simp [Frame.zero]
  | some x =>
    dsimp only
    cases h : heard s.law x.line.received with
    | none => simp [Frame.zero]
    | some d => exact heard_range h i

end Sys2Proof.Machine
end

