-- ==== Sys2Proof/Laws/Players.lean ====
section
/-! SUPPORT. What fetching keeps of a stream and of a prompt player (R146, R164), what an assignment leaves (R163),
what the flush of an entry leaves (R161), and the records filed one after another (R179). -/

namespace Sys2Proof.Machine

/-! ## Streams (R146) -/

/-- Placing a request keeps everything of a stream but its next slot, its cursor and its playlists. -/
theorem State.streamRequest_stream (s : State) (k j : Fin 16) :
    (s.stream j).SameBeyondFetch ((s.streamRequest k).stream j) := by
  unfold State.streamRequest
  dsimp only
  split
  · split
    · refine Stream.SameBeyondFetch.trans ?_ (State.grant_stream _ j)
      show (s.stream j).SameBeyondFetch ((s.setStream k _).stream j)
      rw [State.setStream_stream]
      split
      · next h => subst h; exact ⟨rfl, rfl, rfl, rfl, rfl, rfl, rfl, rfl⟩
      · exact .refl _
    · exact .refl _
  · exact .refl _

theorem State.streamRequest_law (s : State) (k : Fin 16) : (s.streamRequest k).law = s.law :=
  congrArg StartUp.law (State.streamRequest_touches s k .startUp (by decide))

/-! ## Prompt players (R162 to R164) -/

/-- Two prompt players agree in everything that the arrival of a page does not concern. -/
structure PromptPlayer.SameBeyondFetch (x y : PromptPlayer) : Prop where
  assigned : y.assigned = x.assigned
  generation : y.generation = x.generation
  playing : y.playing = x.playing

theorem PromptPlayer.SameBeyondFetch.refl (x : PromptPlayer) : x.SameBeyondFetch x := ⟨rfl, rfl, rfl⟩

theorem PromptPlayer.SameBeyondFetch.trans {x y z : PromptPlayer} (h : x.SameBeyondFetch y) (k : y.SameBeyondFetch z) :
    x.SameBeyondFetch z := ⟨k.1.trans h.1, k.2.trans h.2, k.3.trans h.3⟩

theorem State.setPlayer_player (s : State) (w v : Fin 16) (x : PromptPlayer) :
    (s.setPlayer w x).player v = if w = v then x else s.player v := by
  unfold State.setPlayer; simp only [State.player, Table.cell_put]

theorem State.promptArrival_player (s : State) (w v : Fin 16) (index : Nat) (codes : PageCodes) :
    (s.player v).SameBeyondFetch ((s.promptArrival w index codes).player v) := by
  unfold State.promptArrival
  dsimp only
  split
  · rw [State.setPlayer_player]
    split
    · next h => subst h; exact ⟨rfl, rfl, rfl⟩
    · exact .refl _
  · exact .refl _

theorem State.deliver_player (s : State) (f : Fetch) (codes : PageCodes) (v : Fin 16) :
    (s.player v).SameBeyondFetch ((s.deliver f codes).player v) := by
  unfold State.deliver
  split
  · next k _ =>
    split
    · have h : (s.streamArrival k f.index codes).player v = s.player v :=
        congrArg (fun x : Whisper => x.players.cell v) (State.streamArrival_touches s k f.index codes .whisper (by decide))
      rw [h]; exact .refl _
    · exact .refl _
  · split
    · exact s.promptArrival_player _ v _ _
    · exact .refl _

theorem State.grant_player (s : State) (v : Fin 16) : (s.player v).SameBeyondFetch (s.grant.player v) := by
  unfold State.grant
  refine State.grantRounds_keeps (P := fun t => (s.player v).SameBeyondFetch (t.player v)) ?_ ?_ ?_ ?_ ?_ _ s (.refl _)
  · intro t h _; exact h
  · intro t f rest h _ _; exact h.trans (State.deliver_player t.unqueue f _ v)
  · intro t f rest h _ _; exact h
  · intro t p clip index page h _ _; exact h
  · intro t p op h _ _; exact h

theorem State.promptRequest_player (s : State) (w v : Fin 16) :
    (s.player v).SameBeyondFetch ((s.promptRequest w).player v) := by
  unfold State.promptRequest
  dsimp only
  split
  · refine PromptPlayer.SameBeyondFetch.trans ?_ (State.grant_player _ v)
    show (s.player v).SameBeyondFetch ((s.setPlayer w _).player v)
    rw [State.setPlayer_player]
    split
    · next h => subst h; exact ⟨rfl, rfl, rfl⟩
    · exact .refl _
  · exact .refl _

theorem State.promptRequest_law (s : State) (w : Fin 16) : (s.promptRequest w).law = s.law :=
  congrArg StartUp.law (State.promptRequest_touches s w .startUp (by decide))

theorem State.promptRequest_queues (s : State) (w : Fin 16) : (s.promptRequest w).whisper.queues = s.whisper.queues := by
  have hp : ∀ (t : State) (u : Fin 16) (i : Nat) (codes : PageCodes),
      (t.promptArrival u i codes).whisper.queues = t.whisper.queues := by
    intro t u i codes
    unfold State.promptArrival
    dsimp only
    split <;> rfl
  have hd : ∀ (t : State) (f : Fetch) (codes : PageCodes), (t.deliver f codes).whisper.queues = t.whisper.queues := by
    intro t f codes
    unfold State.deliver
    split
    · next k _ =>
      split
      · exact congrArg Whisper.queues (State.streamArrival_touches t k f.index codes .whisper (by decide))
      · rfl
    · split
      · exact hp _ _ _ _
      · rfl
  have hg : ∀ t : State, t.grant.whisper.queues = t.whisper.queues := by
    intro t
    unfold State.grant
    refine State.grantRounds_keeps (P := fun u => u.whisper.queues = t.whisper.queues) ?_ ?_ ?_ ?_ ?_ _ t rfl
    · intro u h _; exact h
    · intro u f rest h _ _; exact (hd u.unqueue f _).trans h
    · intro u f rest h _ _; exact h
    · intro u p clip index page h _ _; exact h
    · intro u p op h _ _; exact h
  unfold State.promptRequest
  dsimp only
  split
  · exact hg _
  · rfl

/-- An assignment gives the player to the position and leaves every other player to whom it was. -/
theorem State.assign_assigned (s : State) (w v : Fin 16) (p : Fin 64) :
    ((s.assign w p).player v).assigned = if w = v then some p else (s.player v).assigned := by
  unfold State.assign
  rw [(State.promptRequest_player _ w v).assigned, State.setPlayer_player]
  split <;> rfl

/-- An assignment makes the position's head PRIMING and leaves every other queue as it was. -/
theorem State.assign_queue (s : State) (w : Fin 16) (p q : Fin 64) :
    (s.assign w p).queue q = if p = q then withHeadPhase .priming (s.queue p) else s.queue q := by
  unfold State.assign State.queue
  rw [State.promptRequest_queues]
  simp only [State.setPlayer, State.setQueue, Table.cell_put]

/-! ## Records filed one after another (R179) -/

@[simp] theorem State.filed_nil (s : State) : s.filed [] = s := rfl

theorem State.filed_cons (s : State) (x : Filing) (l : List Filing) :
    s.filed (x :: l) = (s.fileOwner x.1 x.2.1 x.2.2.1 x.2.2.2).filed l := rfl

theorem State.filed_append (s : State) (l m : List Filing) : s.filed (l ++ m) = (s.filed l).filed m :=
  List.foldl_append ..

/-- A function of the state that does not read the events is the same after records are filed. -/
theorem State.filed_keeps {α : Type} (f : State → α) (h : ∀ s e, f { s with events := e } = f s) (s : State)
    (l : List Filing) : f (s.filed l) = f s :=
  foldl_keeps (P := fun t => f t = f s) (fun t x ht => (State.fileOwner_keeps f h t x.1 _ _ _).trans ht) l s rfl

/-- What filing one record leaves in the event router depends on nothing but the event router, the start-up items and
the frame stamp. -/
theorem State.fileOwner_events {s t : State} (events : t.events = s.events) (startUp : t.startUp = s.startUp)
    (stamp : t.highway.stamp = s.highway.stamp) (p : Option Port) (k : EventKind) (o d : Nat) :
    (t.fileOwner p k o d).events = (s.fileOwner p k o d).events := by
  cases p with
  | none => exact events
  | some q =>
    have e : t.enabled q = s.enabled q := by unfold State.enabled; rw [startUp]
    show (t.file q k o d).events = (s.file q k o d).events
    unfold State.file
    rw [e]
    split
    · unfold State.setEvents State.eventsOf
      dsimp only
      rw [events, stamp]
    · exact events

theorem State.filed_events {s t : State} (events : t.events = s.events) (startUp : t.startUp = s.startUp)
    (stamp : t.highway.stamp = s.highway.stamp) (l : List Filing) : (t.filed l).events = (s.filed l).events := by
  induction l generalizing s t with
  | nil => exact events
  | cons x l ih =>
    refine ih (State.fileOwner_events events startUp stamp _ _ _ _) ?_ ?_
    · exact (State.fileOwner_keeps (fun u => u.startUp) (fun _ _ => rfl) t _ _ _ _).trans
        (startUp.trans (State.fileOwner_keeps (fun u => u.startUp) (fun _ _ => rfl) s _ _ _ _).symm)
    · exact (State.fileOwner_keeps (fun u => u.highway.stamp) (fun _ _ => rfl) t _ _ _ _).trans
        (stamp.trans (State.fileOwner_keeps (fun u => u.highway.stamp) (fun _ _ => rfl) s _ _ _ _).symm)

/-! ## Flushes (R161) -/

/-- What the flush of one entry leaves in the whisper block, the arbiter and the clip store (R115, R161). -/
theorem State.flushed_leaves (s : State) (p : Fin 64) (cause : FlushCause) (e : Entry) :
    (s.flushed p cause e).whisper = (if e.phase = .waiting then s else s.flushPlayer p).whisper
    ∧ (s.flushed p cause e).arbiter = (if e.phase = .waiting then s else s.flushPlayer p).arbiter
    ∧ (s.flushed p cause e).clipStore = (s.dropPlay e.clip).clipStore := by
  let flushed := if e.phase = .waiting then s.dropPlay e.clip else (s.dropPlay e.clip).flushPlayer p
  have filed : Touches [.positions, .streams, .events] flushed (s.flushed p cause e) := by
    have h := (State.file_touches flushed e.origin .promptFlushed p.val (e.detail + 4096 * cause.number)).mono
      (b := [.positions, .streams, .events]) (by decide)
    unfold State.flushed
    dsimp only
    split
    · exact h.trans ((State.announceEnded_touches _ p true).mono (by decide))
    · exact h
  have player : ((s.dropPlay e.clip).flushPlayer p).whisper = (s.flushPlayer p).whisper
      ∧ ((s.dropPlay e.clip).flushPlayer p).arbiter = (s.flushPlayer p).arbiter := by
    unfold State.flushPlayer
    rw [show (s.dropPlay e.clip).playerOf p = s.playerOf p from rfl]
    split <;> exact ⟨rfl, rfl⟩
  refine ⟨(filed .whisper (by decide)).trans ?_, (filed .arbiter (by decide)).trans ?_,
    (filed .clipStore (by decide)).trans ?_⟩ <;> simp only [flushed] <;> split
  · rfl
  · exact player.1
  · rfl
  · exact player.2
  · rfl
  · exact State.flushPlayer_touches _ p .clipStore (by decide)

end Sys2Proof.Machine
end

