-- ==== Sys2Proof/Laws/Folds.lean ====
section
/-! SUPPORT. Work done for one object after another in ascending order (R4, R88, R107, R165, R166): the states between, what
each step hands over, and the lowest object that satisfies a test. -/

namespace Sys2Proof.Machine

/-! ## Steps in ascending order -/

/-- The list of the numbers below `n`, up to and with `k`, ends with `k`. -/
theorem take_finRange_succ {n : Nat} (k : Fin n) :
    (List.finRange n).take (k.val + 1) = (List.finRange n).take k.val ++ [k] := by
  rw [List.take_add_one, List.getElem?_eq_getElem (by simp)]
  simp

/-- A fold over all numbers below `n` passes through a state for each. -/
theorem foldl_finRange_states {n : Nat} {β : Type} (f : β → Fin n → β) (s : β) :
    ∃ u : Nat → β, u 0 = s ∧ (List.finRange n).foldl f s = u n ∧ ∀ k : Fin n, u (k.val + 1) = f (u k.val) k := by
  refine ⟨fun m => ((List.finRange n).take m).foldl f s, rfl, ?_, fun k => ?_⟩
  · show _ = ((List.finRange n).take n).foldl f s
    rw [List.take_of_length_le (by simp)]
  · show ((List.finRange n).take (k.val + 1)).foldl f s = _
    rw [take_finRange_succ, List.foldl_append]
    rfl

/-- Such a fold that also fills a table fills each cell with what its own step hands over. -/
theorem foldl_finRange_cells {n : Nat} {α β : Type} (f : β → Fin n → α × β) (t : Table n α) (s : β) :
    let r := (List.finRange n).foldl (fun acc k => (acc.1.put k (f acc.2 k).1, (f acc.2 k).2)) (t, s)
    ∃ u : Nat → β, u 0 = s ∧ r.2 = u n ∧ ∀ k : Fin n, u (k.val + 1) = (f (u k.val) k).2 ∧ r.1.cell k = (f (u k.val) k).1 := by
  intro r
  obtain ⟨v, start, done, next⟩ := foldl_finRange_states
    (fun (acc : Table n α × β) k => (acc.1.put k (f acc.2 k).1, (f acc.2 k).2)) (t, s)
  have filled : ∀ m, m ≤ n → ∀ k : Fin n, k.val < m → (v m).1.cell k = (f (v k.val).2 k).1 := by
    intro m
    induction m with
    | zero => intro _ k hk; exact absurd hk (Nat.not_lt_zero _)
    | succ m ih =>
      intro hm k hk
      have e : v (m + 1) = _ := next ⟨m, hm⟩
      rw [e, Table.cell_put]
      split
      · next h => subst h; rfl
      · next h =>
        refine ih (Nat.le_of_succ_le hm) k (Nat.lt_of_le_of_ne (Nat.le_of_lt_succ hk) fun h' => h ?_)
        exact Fin.ext h'.symm
  refine ⟨fun m => (v m).2, congrArg Prod.snd start, congrArg Prod.snd done, fun k => ⟨congrArg Prod.snd (next k), ?_⟩⟩
  show r.1.cell k = _
  rw [show r = v n from done]
  exact filled n (Nat.le_refl n) k k.isLt

/-! ## The lowest that satisfies a test -/

theorem find?_finRange_some {n : Nat} (test : Fin n → Bool) (k : Fin n) :
    (List.finRange n).find? test = some k ↔ test k = true ∧ ∀ j, j < k → test j = false := by
  rw [List.find?_eq_some_iff_getElem]
  simp only [List.getElem_finRange, List.length_finRange]
  constructor
  · rintro ⟨h, i, hi, e, below⟩
    have hk : i = k.val := by rw [← e]; rfl
    subst hk
    refine ⟨h, fun j hj => ?_⟩
    simpa using below j.val hj
  · rintro ⟨h, below⟩
    refine ⟨h, k.val, k.isLt, rfl, fun j hj => ?_⟩
    simpa using below ⟨j, Nat.lt_trans hj k.isLt⟩ hj

/-! ## The tap table (R96) -/

theorem State.mem_tapsInUse (s : State) (u : Fin 16) (x : Tap) : (u, x) ∈ s.tapsInUse ↔ s.tap u = some x := by
  unfold State.tapsInUse
  simp only [List.mem_filterMap, List.mem_finRange, true_and, Option.map_eq_some_iff, Prod.mk.injEq]
  constructor
  · rintro ⟨v, y, hy, rfl, rfl⟩; exact hy
  · intro h; exact ⟨u, x, h, rfl, rfl⟩

theorem State.tapsInUse_ascending (s : State) : s.tapsInUse.Pairwise fun x y => x.1 < y.1 := by
  unfold State.tapsInUse
  refine List.Pairwise.filterMap _ ?_ (List.pairwise_lt_finRange 16)
  intro a b hab x hx y hy
  simp only [Option.map_eq_some_iff] at hx hy
  obtain ⟨_, _, rfl⟩ := hx
  obtain ⟨_, _, rfl⟩ := hy
  exact hab

/-- The search for a tap finds the lowest-numbered one that satisfies the test. -/
theorem State.find?_tapsInUse (s : State) (test : Tap → Bool) (x : Tap) :
    (s.tapsInUse.find? fun y => test y.2).map Prod.snd = some x ↔
      ∃ u, s.tap u = some x ∧ test x = true ∧ ∀ v, v < u → ∀ y, s.tap v = some y → test y = false := by
  have ordered := s.tapsInUse_ascending
  constructor
  · intro h
    obtain ⟨⟨u, y⟩, found, rfl⟩ := Option.map_eq_some_iff.mp h
    obtain ⟨passes, before, after, e, fails⟩ := List.find?_eq_some_iff_append.mp found
    refine ⟨u, (s.mem_tapsInUse u y).mp (List.mem_of_find?_eq_some found), passes, fun v hv z hz => ?_⟩
    have hm := (s.mem_tapsInUse v z).mpr hz
    rw [e, List.pairwise_append, List.pairwise_cons] at ordered
    rw [e, List.mem_append, List.mem_cons] at hm
    rcases hm with hm | hm | hm
    · simpa using fails _ hm
    · rw [Prod.mk.injEq] at hm
      exact absurd hv (by simp [hm.1])
    · exact absurd (Fin.lt_trans hv (ordered.2.1.1 _ hm)) (Fin.lt_irrefl v)
  · rintro ⟨u, hu, passes, below⟩
    have hm := (s.mem_tapsInUse u x).mpr hu
    cases found : s.tapsInUse.find? fun y => test y.2 with
    | none => exact absurd passes (List.find?_eq_none.mp found _ hm)
    | some z =>
      obtain ⟨hz, before, after, e, fails⟩ := List.find?_eq_some_iff_append.mp found
      have taken := (s.mem_tapsInUse z.1 z.2).mp (List.mem_of_find?_eq_some found)
      rw [e, List.pairwise_append, List.pairwise_cons] at ordered
      rw [e, List.mem_append, List.mem_cons] at hm
      rcases hm with hm | hm | hm
      · exact absurd (fails _ hm) (by simp [passes])
      · rw [← hm]; rfl
      · exact absurd hz (by simp [below z.1 (ordered.2.1.1 _ hm) z.2 taken])

/-! ## Notes (R107) -/

/-- A note marks its clip accessed under PLAY_NOTE, and no other clip. -/
theorem State.note_clip (s : State) (p : Port) (kind : NoteKind) (c d : Fin 256) :
    (s.note p kind c).clip d = { s.clip d with
      accessed := (s.clip d).accessed || decide (c = d ∧ (s.clip d).keys.cell p = .playNote) } := by
  unfold State.note
  split
  · next h =>
    rw [State.fileOwner_keeps (fun t => t.clip d) (fun _ _ => rfl)]
    simp only [State.setClip, State.clip, Table.cell_put]
    by_cases e : c = d
    · subst e; simp only [State.clip] at h; simp [h]
    · simp [e]
  · next h =>
    by_cases e : c = d
    · subst e; simp [h]
    · simp [e]

/-- What a note files, in a state that differs in clips' accessed flags only. -/
theorem State.note_events (s : State) (p : Port) (kind : NoteKind) (c : Fin 256) :
    (s.note p kind c).events = (s.filed (if (s.clip c).keys.cell p = .playNote then
      [((s.clip c).owner, .clipPlayed, c.val, Port.number p + 256 * kind.number)] else [])).events := by
  unfold State.note
  split
  · exact State.fileOwner_events (s := s) (t := s.setClip c { s.clip c with accessed := true }) rfl rfl rfl _ _ _ _
  · rfl

/-- The notes of a list of different clips, one after another: the clips marked, and the records filed. -/
theorem notes_clip (p : Port) (kind : NoteKind) (l : List (Fin 256)) (s : State) (d : Fin 256) :
    (l.foldl (fun s c => s.note p kind c) s).clip d = { s.clip d with
      accessed := (s.clip d).accessed || decide (d ∈ l ∧ (s.clip d).keys.cell p = .playNote) } := by
  induction l generalizing s with
  | nil => simp
  | cons c l ih =>
    rw [List.foldl_cons, ih, State.note_clip]
    by_cases e : c = d
    · subst e; by_cases k : (s.clip c).keys.cell p = .playNote <;> simp [k]
    · simp [e, Ne.symm e]

theorem notes_events (p : Port) (kind : NoteKind) (l : List (Fin 256)) (s : State) :
    (l.foldl (fun s c => s.note p kind c) s).events
      = (s.filed ((l.filter fun c => (s.clip c).keys.cell p = .playNote).map fun c =>
          ((s.clip c).owner, .clipPlayed, c.val, Port.number p + 256 * kind.number))).events := by
  induction l generalizing s with
  | nil => rfl
  | cons c l ih =>
    have keys : ∀ d, ((s.note p kind c).clip d).keys = (s.clip d).keys := fun d => by rw [State.note_clip]
    have owner : ∀ d, ((s.note p kind c).clip d).owner = (s.clip d).owner := fun d => by rw [State.note_clip]
    have touched := State.note_touches s p kind c
    have rest : ∀ t : State, t.events = (s.note p kind c).events → t.startUp = s.startUp →
        t.highway = s.highway → ∀ m, ((s.note p kind c).filed m).events = (t.filed m).events := fun t h1 h2 h3 m =>
      State.filed_events h1.symm ((touched .startUp (by decide)).trans h2.symm)
        (congrArg Highway.stamp ((touched .highway (by decide)).trans h3.symm)) m
    rw [List.foldl_cons, ih]
    simp only [keys, owner]
    rw [rest (s.filed (if (s.clip c).keys.cell p = .playNote then
      [((s.clip c).owner, .clipPlayed, c.val, Port.number p + 256 * kind.number)] else []))
      (State.note_events s p kind c).symm (State.filed_keeps (fun t => t.startUp) (fun _ _ => rfl) _ _)
      (State.filed_keeps (fun t => t.highway) (fun _ _ => rfl) _ _), ← State.filed_append]
    by_cases k : (s.clip c).keys.cell p = .playNote <;> simp [k]

end Sys2Proof.Machine
end

