-- ==== Sys2Proof/Laws/Frames.lean ====
section
/-! SUPPORT. What the settling of debounce expiries and a frame completion do to the highway interface, the position
records, the suppressor and the mixer (R4, R18, R20). -/

namespace Sys2Proof.Machine

/-! ## Debouncing (R18) -/

theorem State.expireSlot_of_not_due {s : State} {a : Fin 64} (h : (s.debounced a).presentDue = false)
    (k : (s.debounced a).muteDue = false) : s.expireSlot a = s := by
  simp [State.expireSlot, h, k]

theorem State.settleDebounce_of_none_due {s : State}
    (h : ∀ a, (s.debounced a).presentDue = false ∧ (s.debounced a).muteDue = false) : s.settleDebounce = s := by
  unfold State.settleDebounce
  generalize List.finRange 64 = l
  induction l with
  | nil => rfl
  | cons a l ih => rw [List.foldl_cons, State.expireSlot_of_not_due (h a).1 (h a).2]; exact ih

theorem State.expireSlot_debounced (s : State) (a b : Fin 64) :
    (s.expireSlot a).debounced b = if a = b ∧ ((s.debounced a).presentDue || (s.debounced a).muteDue) = true then (s.debounced a).expired else s.debounced b := by
  unfold State.expireSlot
  dsimp only
  split
  · next h =>
    have : ∀ t d, (State.headsetChange t a d).highway = t.highway := by
      intro t d
      have := State.headsetChange_touches t a d .highway (by simp)
      exact this
    simp only [State.debounced, this]
    simp only [State.setDebounced, Table.cell_put]
    by_cases e : a = b <;> simp [e]
    · subst e
      intro h1 h2
      simp only [State.debounced] at h
      rw [h1, h2] at h
      cases h
  · next h => simp [h]

theorem Debounce.expired_quiet (d : Debounce) : d.expired.presentDue = false ∧ d.expired.muteDue = false := by
  simp only [Debounce.expired, Debounce.presentDue, Debounce.muteDue]
  constructor <;> (by_cases h : d.presentCount = 24 <;> by_cases k : d.muteCount = 24 <;> simp [h, k])

theorem settle_fold_quiet (l : List (Fin 64)) (s : State) (a : Fin 64)
    (h : a ∈ l ∨ ((s.debounced a).presentDue = false ∧ (s.debounced a).muteDue = false)) :
    ((l.foldl State.expireSlot s).debounced a).presentDue = false ∧ ((l.foldl State.expireSlot s).debounced a).muteDue = false := by
  induction l generalizing s with
  | nil => simpa using h
  | cons b l ih =>
    rw [List.foldl_cons]
    apply ih
    rw [State.expireSlot_debounced]
    by_cases e : b = a
    · subst e
      right
      split
      · exact Debounce.expired_quiet _
      · next h => simp at h; exact h
    · rcases h with h | h
      · rcases List.mem_cons.mp h with h | h
        · exact absurd h.symm e
        · exact Or.inl h
      · right; simp [e, h]

theorem State.settleDebounce_none_due (s : State) (a : Fin 64) :
    (s.settleDebounce.debounced a).presentDue = false ∧ (s.settleDebounce.debounced a).muteDue = false :=
  settle_fold_quiet _ _ _ (Or.inl (List.mem_finRange a))

theorem State.expireSlot_highway (s : State) (a : Fin 64) :
    (s.expireSlot a).highway = { s.highway with debounce := (s.expireSlot a).highway.debounce } := by
  unfold State.expireSlot
  dsimp only
  split
  · have : ∀ t d, (State.headsetChange t a d).highway = t.highway := fun t d => State.headsetChange_touches t a d .highway (by simp)
    rw [this]; rfl
  · rfl

theorem State.settleDebounce_highway (s : State) :
    s.settleDebounce.highway = { s.highway with debounce := s.settleDebounce.highway.debounce } := by
  unfold State.settleDebounce
  generalize List.finRange 64 = l
  induction l generalizing s with
  | nil => rfl
  | cons a l ih => rw [List.foldl_cons, ih, State.expireSlot_highway]

/-! ## Frame completion (R4) -/

theorem State.completeFrame_highway (s : State) : 
    s.completeFrame.highway.frameDue = false ∧ s.completeFrame.highway.firstFrame = false
    ∧ s.completeFrame.highway.stamp = s.highway.stamp + 1 ∧ s.completeFrame.highway.sync = s.highway.sync
    ∧ s.completeFrame.highway.debounce = s.highway.debounce ∧ s.completeFrame.highway.lockedBefore = s.highway.lockedBefore
    ∧ (∀ a, (s.completeFrame.highway.agent.cell a).map (fun x => (x.position, x.received))
          = (s.highway.agent.cell a).map fun x => (x.position, some []))
    ∧ (∀ u, (s.completeFrame.highway.trunk.cell u).map (fun x => (x.line.position, x.line.received, x.sent))
          = (s.highway.trunk.cell u).map fun x => (x.line.position, some [], [])) := by
  unfold State.completeFrame
  dsimp only
  rw [show ∀ t : State, t.completeHeads.highway = t.highway from fun t => t.completeHeads_touches .highway (by simp [whisperParts, grantParts])]
  generalize hm : (_ : MixInputs) = m
  generalize hw : (State.updateCoachDuck _) = w
  have hh : w.highway = s.stamped.highway := by
    rw [← hw]
    rw [show ∀ t : State, t.updateCoachDuck.highway = t.highway from fun t => rfl]
    rw [show ∀ t : State, t.whisperFrames.2.highway = t.highway from fun t => t.whisperFrames_touches .highway (by simp [whisperParts, grantParts])]
    rw [show ∀ t : State, t.soundHeads.highway = t.highway from fun t => t.soundHeads_touches .highway (by simp)]
    rw [show ∀ t : State, t.streamFrames.2.highway = t.highway from fun t => t.streamFrames_touches .highway (by simp [grantParts])]
    rw [show ∀ t : State, t.suppressFrames.highway = t.highway from fun t => rfl]
    rw [show ∀ t : State, t.echoFrames.2.highway = t.highway from fun t => t.echoFrames_touches .highway (by simp)]
  simp only [State.pastFirstFrame, State.beginFrame, State.mix, hh, State.stamped, State.earBuffers, State.trunkBuffers]
  refine ⟨trivial, trivial, trivial, trivial, trivial, trivial, fun a => ?_, fun u => ?_⟩
  · simp only [Table.cell_map]
    cases s.highway.agent.cell a <;> rfl
  · simp only [Table.cell_map]
    cases s.highway.trunk.cell u <;> rfl

/-- From `s` to `t` a position's record has changed in its statistics at most. -/
def StatsOnly (s t : State) : Prop := ∀ p, ∃ x, t.pos p = { s.pos p with stats := x }

theorem StatsOnly.refl (s : State) : StatsOnly s s := fun p => ⟨(s.pos p).stats, rfl⟩
theorem StatsOnly.trans {s t u : State} (h : StatsOnly s t) (k : StatsOnly t u) : StatsOnly s u := fun p => by
  obtain ⟨x, hx⟩ := h p; obtain ⟨y, hy⟩ := k p; exact ⟨y, by rw [hy, hx]⟩
theorem StatsOnly.of_eq {s t : State} (h : t.positions = s.positions) : StatsOnly s t := fun p => ⟨(s.pos p).stats, by simp only [State.pos, h]⟩

theorem State.echo1_statsOnly (s : State) (p : Fin 64) : StatsOnly s (s.echo1 p).2 := by
  unfold State.echo1
  split
  · unfold State.afterEcho
    dsimp only
    intro q
    have key : ∀ t : State, (∀ q, ∃ x, t.pos q = { s.pos q with stats := x }) → ∀ o k a b, ∃ x, (t.fileOwner o k a b).pos q = { s.pos q with stats := x } := by
      intro t h o k a b
      obtain ⟨x, hx⟩ := h q
      refine ⟨x, ?_⟩
      rw [← hx]
      have := State.fileOwner_touches t o k a b .positions (by simp)
      simp only [State.pos]; rw [this]
    have base : ∀ (e : Echo) st, ∀ q, ∃ x, (State.setPos { s with echo := e } p { s.pos p with stats := st }).pos q = { s.pos q with stats := x } := by
      intro e st q
      simp only [State.pos, State.setPos, Table.cell_put]
      by_cases h : p = q
      · subst h; exact ⟨st, by simp⟩
      · exact ⟨(s.positions.cell q).stats, by simp [h]⟩
    split
    · exact key _ (base _ _) _ _ _ _
    · exact base _ _ q
  · exact StatsOnly.refl s

theorem State.echoFrames_statsOnly (s : State) : StatsOnly s s.echoFrames.2 := by
  unfold State.echoFrames
  generalize Table.fill 64 Frame.zero = f
  generalize List.finRange 64 = l
  induction l generalizing s f with
  | nil => exact StatsOnly.refl s
  | cons a l ih => rw [List.foldl_cons]; exact (State.echo1_statsOnly s a).trans (ih _ _)

theorem State.suppress1_congr {s t : State} (h : StatsOnly s t) (hh : t.highway.agent = s.highway.agent)
    (hd : t.highway.debounce = s.highway.debounce) (hs : t.suppress = s.suppress) (hl : t.startUp = s.startUp) (p : Fin 64) :
    t.suppress1 p = s.suppress1 p := by
  obtain ⟨x, hx⟩ := h p
  have hsup : t.suppressor p = s.suppressor p := by simp only [State.suppressor, hs]
  have hprof : ∀ n, t.profile n = s.profile n := fun n => by simp only [State.profile, hs]
  have hsd : t.suppressed p = s.suppressed p := by
    unfold State.suppressed State.microphone State.headsetPresent State.headsetMuted State.headset State.agentLine State.law
    simp only [hx, hsup, hprof, hh, hd, hl]
  unfold State.suppress1
  rw [hsd, hsup, hx]

theorem State.coachDuckAfter_congr {s t : State} (h : ∀ p, (t.pos p).state = (s.pos p).state) (hm : t.mixer = s.mixer) (hs : ∀ p, t.suppressor p = s.suppressor p)
    (p : Fin 64) : t.coachDuckAfter p = s.coachDuckAfter p := by
  unfold State.coachDuckAfter State.coachSpeaks State.coachTap State.coachDuck State.tapsInUse State.tap
  simp only [h, hm, hs]

theorem State.whisperSample_statsOnly (s : State) (p : Fin 64) (w : Fin 16) : StatsOnly s (s.whisperSample p w).2 := by
  unfold State.whisperSample
  split
  · exact StatsOnly.of_eq rfl
  · refine StatsOnly.of_eq ?_
    show (State.promptTake s w _).positions = _
    exact State.promptRequest_touches _ _ .positions (by simp [grantParts])
  · intro q
    simp only [State.whisperStarve, State.pos, State.setPos, Table.cell_put]
    by_cases h : p = q
    · subst h; simp
    · exact ⟨(s.positions.cell q).stats, by simp [h]⟩
  · exact StatsOnly.refl s

theorem State.whisperSamples_statsOnly (p : Fin 64) (w : Fin 16) (n : Nat) (s : State) : StatsOnly s (State.whisperSamples p w n s).2 := by
  induction n generalizing s with
  | zero => exact StatsOnly.refl s
  | succ n ih => exact (State.whisperSample_statsOnly s p w).trans (ih _)

theorem State.whisperFrame_statsOnly (s : State) (p : Fin 64) : StatsOnly s (s.whisperFrame p).2 := by
  unfold State.whisperFrame
  split
  · split
    · dsimp only; exact State.whisperSamples_statsOnly p _ 32 s
    · exact StatsOnly.refl s
  · exact StatsOnly.refl s

theorem State.whisperFrames_statsOnly (s : State) : StatsOnly s s.whisperFrames.2 := by
  unfold State.whisperFrames
  generalize Table.fill 64 Frame.zero = f
  generalize List.finRange 64 = l
  induction l generalizing s f with
  | nil => exact StatsOnly.refl s
  | cons a l ih => rw [List.foldl_cons]; exact (State.whisperFrame_statsOnly s a).trans (ih _ _)

theorem State.completeFrame_suppress (s : State) : s.completeFrame.suppress = s.stamped.echoFrames.2.suppressFrames.suppress := by
  unfold State.completeFrame
  dsimp only
  rw [show ∀ t : State, t.completeHeads.suppress = t.suppress from fun t => t.completeHeads_touches .suppress (by simp [whisperParts])]
  simp only [State.pastFirstFrame, State.beginFrame, State.mix, State.updateCoachDuck]
  rw [show ∀ t : State, t.whisperFrames.2.suppress = t.suppress from fun t => t.whisperFrames_touches .suppress (by simp [whisperParts])]
  rw [show ∀ t : State, t.soundHeads.suppress = t.suppress from fun t => t.soundHeads_touches .suppress (by simp)]
  rw [show ∀ t : State, t.streamFrames.2.suppress = t.suppress from fun t => t.streamFrames_touches .suppress (by simp [grantParts])]

theorem State.suppressFrames_suppressor (s : State) (p : Fin 64) : s.stamped.echoFrames.2.suppressFrames.suppressor p = s.suppress1 p := by
  simp only [State.suppressor, State.suppressFrames, Table.cell_build]
  have hh : s.stamped.echoFrames.2.highway = s.stamped.highway := s.stamped.echoFrames_touches .highway (by simp)
  rw [State.suppress1_congr (State.echoFrames_statsOnly _) (by rw [hh]) (by rw [hh]) (s.stamped.echoFrames_touches .suppress (by simp)) (s.stamped.echoFrames_touches .startUp (by simp))]
  exact State.suppress1_congr (StatsOnly.of_eq rfl) rfl rfl rfl rfl p

/-- The state at a frame completion when the mixer begins. -/
def State.preMix (s : State) : State := s.stamped.echoFrames.2.suppressFrames.streamFrames.2.soundHeads.whisperFrames.2

theorem State.preMix_mixer (s : State) : (State.preMix s).mixer = s.mixer := by
  unfold State.preMix
  rw [show ∀ t : State, t.whisperFrames.2.mixer = t.mixer from fun t => t.whisperFrames_touches .mixer (by simp [whisperParts])]
  rw [show ∀ t : State, t.soundHeads.mixer = t.mixer from fun t => t.soundHeads_touches .mixer (by simp)]
  rw [show ∀ t : State, t.streamFrames.2.mixer = t.mixer from fun t => t.streamFrames_touches .mixer (by simp [grantParts])]
  rw [show ∀ t : State, t.suppressFrames.mixer = t.mixer from fun t => t.suppressFrames_touches .mixer (by simp)]
  rw [show ∀ t : State, t.echoFrames.2.mixer = t.mixer from fun t => t.echoFrames_touches .mixer (by simp)]
  exact Eq.refl s.stamped.mixer

theorem State.preMix_state (s : State) (q : Fin 64) : ((State.preMix s).pos q).state = (s.pos q).state := by
  obtain ⟨x, hx⟩ := State.whisperFrames_statsOnly (s.stamped.echoFrames.2.suppressFrames.streamFrames.2.soundHeads) q
  unfold State.preMix
  rw [hx]
  have e1 : (s.stamped.echoFrames.2.suppressFrames.streamFrames.2.soundHeads).positions = s.stamped.echoFrames.2.positions := by
    rw [show ∀ t : State, t.soundHeads.positions = t.positions from fun t => t.soundHeads_touches .positions (by simp)]
    rw [show ∀ t : State, t.streamFrames.2.positions = t.positions from fun t => t.streamFrames_touches .positions (by simp [grantParts])]
    exact State.suppressFrames_touches _ .positions (by simp)
  obtain ⟨y, hy⟩ := State.echoFrames_statsOnly s.stamped q
  simp only [State.pos] at hy ⊢
  rw [e1, hy]
  rfl

theorem State.preMix_suppressor (s : State) (q : Fin 64) : (State.preMix s).suppressor q = s.suppress1 q := by
  rw [← State.suppressFrames_suppressor]
  unfold State.preMix State.suppressor
  rw [show ∀ t : State, t.whisperFrames.2.suppress = t.suppress from fun t => t.whisperFrames_touches .suppress (by simp [whisperParts])]
  rw [show ∀ t : State, t.soundHeads.suppress = t.suppress from fun t => t.soundHeads_touches .suppress (by simp)]
  rw [show ∀ t : State, t.streamFrames.2.suppress = t.suppress from fun t => t.streamFrames_touches .suppress (by simp [grantParts])]

theorem State.completeFrame_mixer (s : State) : s.completeFrame.mixer = (State.preMix s).updateCoachDuck.mixer := by
  unfold State.completeFrame State.preMix
  dsimp only
  rw [show ∀ t : State, t.completeHeads.mixer = t.mixer from fun t => t.completeHeads_touches .mixer (by simp [whisperParts])]
  simp only [State.pastFirstFrame, State.beginFrame, State.mix]

end Sys2Proof.Machine
end

