-- ==== Sys2Proof/Laws/Memory.lean ====
section
/-! SUPPORT. Clip memory: what a byte reads as after each write, and that every operation keeps the canonical
form. -/

namespace Sys2Proof.Machine

/-! ## Rising addresses -/

/-- The check of neighbours is the order of all pairs: `rising` is what Mathlib calls a chain. -/
theorem rising_iff (l : List Nat) : rising l = true ↔ l.Pairwise (· < ·) := by
  rw [← List.isChain_iff_pairwise]
  fun_induction rising l with
  | case1 a b rest ih => simp [ih]
  | case2 short list => match short with
    | [] => simp
    | [_] => simp
    | a :: b :: rest => exact absurd rfl (list a b rest)

theorem Memory.wf_iff (silence : Byte) (m : Memory) :
    m.wf silence = true ↔ (m.cells.map Prod.fst).Pairwise (· < ·) ∧ (∀ c ∈ m.cells, c.2 ≠ silence)
      ∧ (m.flaws.map Prod.fst).Pairwise (· < ·) := by
  simp only [Memory.wf, Bool.and_eq_true, rising_iff, List.all_eq_true, bne_iff_ne, ne_eq]
  tauto

/-! ## Runs -/

theorem runCells_ne (silence : Byte) (bs : List Byte) (a : Nat) : ∀ c ∈ runCells silence a bs, c.2 ≠ silence := by
  induction bs generalizing a with
  | nil => simp [runCells]
  | cons b bs ih =>
    unfold runCells
    split
    · exact ih (a + 1)
    · next hb =>
      intro c hc
      rcases List.mem_cons.1 hc with e | hc
      · exact e ▸ hb
      · exact ih (a + 1) c hc

theorem runCells_range (silence : Byte) (bs : List Byte) (a : Nat) :
    ∀ c ∈ runCells silence a bs, a ≤ c.1 ∧ c.1 < a + bs.length := by
  induction bs generalizing a with
  | nil => simp [runCells]
  | cons b bs ih =>
    unfold runCells
    intro c hc
    have tail : c ∈ runCells silence (a + 1) bs → a ≤ c.1 ∧ c.1 < a + (b :: bs).length := by
      intro hc
      have := ih (a + 1) c hc
      simp only [List.length_cons]
      omega
    split at hc
    · exact tail hc
    · rcases List.mem_cons.1 hc with e | hc
      · subst e; simp
      · exact tail hc

theorem runCells_rising (silence : Byte) (bs : List Byte) (a : Nat) :
    ((runCells silence a bs).map Prod.fst).Pairwise (· < ·) := by
  induction bs generalizing a with
  | nil => simp [runCells]
  | cons b bs ih =>
    unfold runCells
    split
    · exact ih (a + 1)
    · rw [List.map_cons, List.pairwise_cons]
      refine ⟨?_, ih (a + 1)⟩
      intro x hx
      obtain ⟨c, hc, rfl⟩ := List.mem_map.1 hx
      have := (runCells_range silence bs (a + 1) c hc).1
      dsimp only
      omega

theorem runCells_find (silence : Byte) (bs : List Byte) (a x : Nat) (h1 : a ≤ x) (h2 : x < a + bs.length) :
    (match (runCells silence a bs).find? (fun c => c.1 == x) with | some c => c.2 | none => silence)
      = bs.getD (x - a) silence := by
  induction bs generalizing a with
  | nil => simp at h2; omega
  | cons b bs ih =>
    simp only [List.length_cons] at h2
    unfold runCells
    rcases Nat.lt_or_ge a x with hlt | hge
    · have hsub : x - a = (x - (a + 1)) + 1 := by omega
      have step := ih (a + 1) (by omega) (by omega)
      rw [hsub, List.getD_cons_succ]
      by_cases hb : b = silence
      · rw [if_pos hb]; exact step
      · rw [if_neg hb, List.find?_cons_of_neg (by simp; omega)]; exact step
    · have : a = x := by omega
      subst this
      simp only [Nat.sub_self, List.getD_cons_zero]
      by_cases hb : b = silence
      · have : (runCells silence (a + 1) bs).find? (fun c => c.1 == a) = none := by
          rw [List.find?_eq_none]
          intro c hc
          have := (runCells_range silence bs (a + 1) c hc).1
          simp; omega
        rw [if_pos hb, this]; exact hb.symm
      · rw [if_neg hb, List.find?_cons_of_pos (by simp)]

/-! ## Reading after writing a run -/

/-- The cells kept below address `a` answer for the addresses below `a` and for no other. -/
theorem cellBelow (cells : List Host.Cell) (a x : Nat) :
    (cells.filter (fun c => c.1 < a)).find? (fun c => c.1 == x)
      = if x < a then cells.find? (fun c => c.1 == x) else none := by
  rw [List.find?_filter]
  split_ifs with below
  · exact congrArg (List.find? · cells) (funext fun c => by grind)
  · exact List.find?_eq_none.2 fun c _ => by grind

/-- The cells kept from address `b` on answer for the addresses from `b` on and for no other. -/
theorem cellFrom (cells : List Host.Cell) (b x : Nat) :
    (cells.filter (fun c => b ≤ c.1)).find? (fun c => c.1 == x)
      = if b ≤ x then cells.find? (fun c => c.1 == x) else none := by
  rw [List.find?_filter]
  split_ifs with above
  · exact congrArg (List.find? · cells) (funext fun c => by grind)
  · exact List.find?_eq_none.2 fun c _ => by grind

/-- A run lists no cell outside itself. -/
theorem runCells_outside (silence : Byte) (bs : List Byte) (a x : Nat) (h : ¬ (a ≤ x ∧ x < a + bs.length)) :
    (runCells silence a bs).find? (fun c => c.1 == x) = none :=
  List.find?_eq_none.2 fun c hc => by have := runCells_range silence bs a c hc; grind

/-- A byte after a run has been written: the run's byte inside it, the old byte outside it. -/
theorem Memory.readByte_writeRun (silence : Byte) (m : Memory) (a : Nat) (bs : List Byte) (x : Nat) :
    (m.writeRun silence a bs).readByte silence x
      = if a ≤ x ∧ x < a + bs.length then bs.getD (x - a) silence else m.readByte silence x := by
  simp only [Memory.readByte, Memory.writeRun, List.find?_append, cellBelow, cellFrom]
  by_cases inside : a ≤ x ∧ x < a + bs.length
  · rw [if_pos inside, if_neg (by omega), if_neg (by omega), Option.none_or, Option.or_none]
    exact runCells_find silence bs a x inside.1 inside.2
  · rw [if_neg inside, runCells_outside silence bs a x inside]
    split_ifs <;> first | omega | simp only [Option.none_or, Option.or_none]

@[simp] theorem Memory.readByte_setFlaw (silence : Byte) (m : Memory) (w : Nat) (f : Option Flaw) (x : Nat) :
    (m.setFlaw w f).readByte silence x = m.readByte silence x := rfl

@[simp] theorem Memory.readByte_clearFlaws (silence : Byte) (m : Memory) (page x : Nat) :
    (m.clearFlaws page).readByte silence x = m.readByte silence x := rfl

/-- A byte after a page has been written (R118). -/
theorem Memory.readByte_writePage (silence : Byte) (m : Memory) (page : Nat) (codes : PageCodes) (x : Nat) :
    (m.writePage silence page codes).readByte silence x
      = if 256 * page ≤ x ∧ x < 256 * page + 256 then codes.nth (x - 256 * page) silence
        else m.readByte silence x := by
  unfold Memory.writePage
  rw [Memory.readByte_clearFlaws, Memory.readByte_writeRun]
  simp only [Vector.length_toList]
  split
  · next h =>
    have hlt : x - 256 * page < 256 := by omega
    simp [Table.nth, Table.cell, hlt, List.getD_eq_getElem?_getD]
  · rfl

/-! ## The canonical form is kept -/

theorem pairwise_around {α : Type} (key : α → Nat) (l mid : List α) (a b : Nat) (hab : a ≤ b)
    (hl : (l.map key).Pairwise (· < ·)) (hm : (mid.map key).Pairwise (· < ·))
    (hr : ∀ c ∈ mid, a ≤ key c ∧ key c < b) :
    ((l.filter (fun c => key c < a) ++ mid ++ l.filter (fun c => b ≤ key c)).map key).Pairwise (· < ·) := by
  rw [List.pairwise_map] at hl hm ⊢
  simp only [List.pairwise_append, List.mem_append, List.mem_filter, decide_eq_true_iff]
  refine ⟨⟨hl.filter _, hm, fun c below d run => ?_⟩, hl.filter _, fun c left d above => ?_⟩
  · have := hr d run
    omega
  · rcases left with below | run
    · omega
    · have := hr c run
      omega

theorem Memory.writeRun_wf (silence : Byte) (m : Memory) (a : Nat) (bs : List Byte) (h : m.wf silence = true) :
    (m.writeRun silence a bs).wf silence = true := by
  rw [Memory.wf_iff] at h ⊢
  obtain ⟨h1, h2, h3⟩ := h
  refine ⟨?_, ?_, h3⟩
  · exact pairwise_around Prod.fst m.cells (runCells silence a bs) a (a + bs.length) (Nat.le_add_right _ _) h1
      (runCells_rising silence bs a) (runCells_range silence bs a)
  · intro c hc
    unfold Memory.writeRun at hc
    dsimp only at hc
    rcases List.mem_append.1 hc with hc | hc
    · rcases List.mem_append.1 hc with hc | hc
      · exact h2 c (List.mem_filter.1 hc).1
      · exact runCells_ne silence bs a c hc
    · exact h2 c (List.mem_filter.1 hc).1

theorem Memory.setFlaw_wf (silence : Byte) (m : Memory) (w : Nat) (f : Option Flaw) (h : m.wf silence = true) :
    (m.setFlaw w f).wf silence = true := by
  rw [Memory.wf_iff] at h ⊢
  obtain ⟨h1, h2, h3⟩ := h
  refine ⟨h1, h2, ?_⟩
  refine pairwise_around Prod.fst m.flaws _ w (w + 1) (Nat.le_succ w) h3 ?_ ?_
  · cases f <;> simp
  · cases f <;> simp

theorem Memory.clearFlaws_wf (silence : Byte) (m : Memory) (page : Nat) (h : m.wf silence = true) :
    (m.clearFlaws page).wf silence = true := by
  rw [Memory.wf_iff] at h ⊢
  obtain ⟨h1, h2, h3⟩ := h
  exact ⟨h1, h2, h3.sublist ((List.filter_sublist).map Prod.fst)⟩

theorem Memory.writePage_wf (silence : Byte) (m : Memory) (page : Nat) (codes : PageCodes) (h : m.wf silence = true) :
    (m.writePage silence page codes).wf silence = true :=
  Memory.clearFlaws_wf silence _ page (m.writeRun_wf silence _ _ h)

theorem Memory.strike_wf (silence : Byte) (page : Nat) (m : Memory) (u : WordUpset) (h : m.wf silence = true) :
    (Memory.strike silence page m u).wf silence = true := by
  unfold Memory.strike
  dsimp only
  split
  · split
    · exact h
    · exact m.setFlaw_wf silence _ _ h
  · exact m.setFlaw_wf silence _ _ h
  · exact Memory.setFlaw_wf silence _ _ _ (m.writeRun_wf silence _ _ h)

theorem Memory.strikes_wf (silence : Byte) (page : Nat) (upsets : List WordUpset) (m : Memory)
    (h : m.wf silence = true) : (upsets.foldl (Memory.strike silence page) m).wf silence = true := by
  induction upsets generalizing m with
  | nil => exact h
  | cons u upsets ih => exact ih _ (Memory.strike_wf silence page m u h)

/-- Memory with nothing listed is in its canonical form. -/
theorem Memory.empty_wf (silence : Byte) : (Memory.mk [] []).wf silence = true := by
  rw [Memory.wf_iff]
  simp

end Sys2Proof.Machine
end

