-- ==== Sys2Proof/Laws/PerInstr.lean ====
section
/-! SUPPORT. What holds of every command as syntax, one lemma for each constructor: a well-formed request
makes a frame that its length field can describe and that is no read period (R168, R178). -/

namespace Sys2Proof.Laws.Requests

open Sys2Proof

/-- A command that is a request has a code which is not the read marker, and a payload whose length the
two-byte length field holds. -/
def Statement (i : Instr) : Prop :=
  i.wellFormed = true → ∀ port code payload, i.codeAndPayload = some (port, code, payload) →
    code ≠ readMarker ∧ payload.length < 65536

/-- A command that makes no request frame. -/
theorem of_none {i : Instr} (h : i.codeAndPayload = none) : Statement i := by
  intro _ port code payload hp
  rw [h] at hp
  cases hp

/-- A request of a given code and payload. -/
theorem of_some {i : Instr} {port : Port} {code : Byte} {payload : List Byte}
    (h : i.codeAndPayload = some (port, code, payload)) (hc : code ≠ readMarker)
    (hl : i.wellFormed = true → payload.length < 65536) : Statement i := by
  intro hw q c l hp
  rw [h] at hp
  simp only [Option.some.injEq, Prod.mk.injEq] at hp
  obtain ⟨-, rfl, rfl⟩ := hp
  exact ⟨hc, hl hw⟩

@[simp] theorem Half.length_bytes (h : Half) : h.bytes.length = 2 := rfl

@[simp] theorem Wide.length_bytes (w : Wide) : w.bytes.length = 4 := rfl

theorem items_length (items : List ItemArg) :
    (items.flatMap fun i => i.clip :: i.gain.bytes).length = 3 * items.length := by
  induction items with
  | nil => rfl
  | cons i rest ih =>
    rw [List.flatMap_cons, List.length_append, ih, List.length_cons, List.length_cons, Half.length_bytes]
    omega

theorem playlist_length (p : PlaylistArg) : p.bytes.length = 3 * p.items.length + 9 := by
  simp only [PlaylistArg.bytes, LoopArg.bytes, List.length_append, List.length_cons, List.length_nil, items_length]

theorem halves_length (l : List Half) : (l.flatMap Half.bytes).length = 2 * l.length := by
  induction l with
  | nil => rfl
  | cons h rest ih =>
    rw [List.flatMap_cons, List.length_append, ih, Half.length_bytes, List.length_cons]
    omega

theorem pinReset : Statement (.pinReset) := of_none rfl

theorem startUpWordShifted (word : Half) : Statement (.startUpWordShifted word) := of_none rfl

theorem startUpMemoryPreparationComplete : Statement (.startUpMemoryPreparationComplete) := of_none rfl

theorem cycle (trunkRx agentRx agentSig : LineBits) : Statement (.cycle trunkRx agentRx agentSig) := of_none rfl

theorem debounceCountExpiry (slot : Fin 64) : Statement (.debounceCountExpiry slot) := of_none rfl

theorem frameCompletion : Statement (.frameCompletion) := of_none rfl

theorem syncLossMissingPulse : Statement (.syncLossMissingPulse) := of_none rfl

theorem fsPulse (bit : Nat) : Statement (.fsPulse bit) := of_none rfl

theorem refreshTimerExpiry : Statement (.refreshTimerExpiry) := of_none rfl

theorem pageFetchCompletion (upsets : List WordUpset) : Statement (.pageFetchCompletion upsets) := of_none rfl

theorem portPageWriteCompletion : Statement (.portPageWriteCompletion) := of_none rfl

theorem portPageReadCompletion (upsets : List WordUpset) : Statement (.portPageReadCompletion upsets) := of_none rfl

theorem scrubStepCompletion (upsets : List WordUpset) : Statement (.scrubStepCompletion upsets) := of_none rfl

theorem ignoredRequestFrame (port : Port) : Statement (.ignoredRequestFrame port) := of_none rfl

theorem unknownRequestCode (port : Port) (code : Byte) : Statement (.unknownRequestCode port code) := of_none rfl

theorem portStatus (port : Port) : Statement (.portStatus port) := of_some rfl (by decide) fun _ => by decide

theorem resetPort (port : Port) : Statement (.resetPort port) := of_some rfl (by decide) fun _ => by decide

theorem openPosition (port : Port) (position slot tail profile : Byte) : Statement (.openPosition port position slot tail profile) := of_some rfl (by decide) fun _ => by simp

theorem closePosition (port : Port) (position : Byte) : Statement (.closePosition port position) := of_some rfl (by decide) fun _ => by simp

theorem connect (port : Port) (position trunk : Byte) (prompt : Option PromptArg) (stream : Option Byte) : Statement (.connect port position trunk prompt stream) := of_some rfl (by decide) fun _ => by simp

theorem hold (port : Port) (position : Byte) (stream : Option Byte) : Statement (.hold port position stream) := of_some rfl (by decide) fun _ => by simp

theorem retrieve (port : Port) (position : Byte) : Statement (.retrieve port position) := of_some rfl (by decide) fun _ => by simp

theorem release (port : Port) (position : Byte) : Statement (.release port position) := of_some rfl (by decide) fun _ => by simp

theorem setPosition (port : Port) (position : Byte) (params : ParamsArg) : Statement (.setPosition port position params) := of_some rfl (by decide) fun _ => by simp

theorem setTail (port : Port) (position tail : Byte) : Statement (.setTail port position tail) := of_some rfl (by decide) fun _ => by simp

theorem offerPositionOffer (port : Port) (position choice : Byte) : Statement (.offerPositionOffer port position choice) := of_some rfl (by decide) fun _ => by simp

theorem offerPositionWithdraw (port : Port) (position : Byte) : Statement (.offerPositionWithdraw port position) := of_some rfl (by decide) fun _ => by simp

theorem acceptPosition (port : Port) (position : Byte) : Statement (.acceptPosition port position) := of_some rfl (by decide) fun _ => by simp

theorem positionInfo (port : Port) (position : Byte) : Statement (.positionInfo port position) := of_some rfl (by decide) fun _ => by simp

theorem positionStats (port : Port) (position : Byte) (clear : Bool) : Statement (.positionStats port position clear) := of_some rfl (by decide) fun _ => by simp

theorem writeProfile (port : Port) (profile : Byte) (gains : Table 16 Half) (threshold : Byte) (nmin : Wide) : Statement (.writeProfile port profile gains threshold nmin) := by
  refine of_some rfl (by decide) fun _ => ?_
  rw [List.length_append, List.length_append, List.length_cons, halves_length]
  simp

theorem addTap (port : Port) (listener target kind : Byte) (gain : Half) : Statement (.addTap port listener target kind gain) := of_some rfl (by decide) fun _ => by simp

theorem removeTap (port : Port) (tap : Byte) : Statement (.removeTap port tap) := of_some rfl (by decide) fun _ => by simp

theorem listTaps (port : Port) : Statement (.listTaps port) := of_some rfl (by decide) fun _ => by decide

theorem defineClip (port : Port) (clip : Byte) (base length fill : Half) (key0 key1 : Byte) : Statement (.defineClip port clip base length fill key0 key1) := of_some rfl (by decide) fun _ => by simp

theorem setKeys (port : Port) (clip key0 key1 : Byte) : Statement (.setKeys port clip key0 key1) := of_some rfl (by decide) fun _ => by simp

theorem freeClip (port : Port) (clip : Byte) : Statement (.freeClip port clip) := of_some rfl (by decide) fun _ => by simp

theorem clipInfo (port : Port) (clip : Byte) : Statement (.clipInfo port clip) := of_some rfl (by decide) fun _ => by simp

theorem writePage (port : Port) (clip : Byte) (index : Half) (codes : PageCodes) : Statement (.writePage port clip index codes) := by
  refine of_some rfl (by decide) fun _ => ?_
  simp

theorem readPage (port : Port) (clip : Byte) (index : Half) : Statement (.readPage port clip index) := of_some rfl (by decide) fun _ => by simp

theorem readFault (port : Port) : Statement (.readFault port) := of_some rfl (by decide) fun _ => by decide

theorem clearFault (port : Port) : Statement (.clearFault port) := of_some rfl (by decide) fun _ => by decide

theorem memoryStatus (port : Port) : Statement (.memoryStatus port) := of_some rfl (by decide) fun _ => by decide

theorem startStream (port : Port) (stream : Byte) (playlist : PlaylistArg) : Statement (.startStream port stream playlist) := by
  refine of_some rfl (by decide) fun h => ?_
  have h' : playlist.items.length ≤ 255 := by simpa [Instr.wellFormed, PlaylistArg.wf] using h
  simp only [List.length_cons, playlist_length]
  omega

theorem loadStream (port : Port) (stream : Byte) (playlist : PlaylistArg) : Statement (.loadStream port stream playlist) := by
  refine of_some rfl (by decide) fun h => ?_
  have h' : playlist.items.length ≤ 255 := by simpa [Instr.wellFormed, PlaylistArg.wf] using h
  simp only [List.length_cons, playlist_length]
  omega

theorem stopStream (port : Port) (stream : Byte) : Statement (.stopStream port stream) := of_some rfl (by decide) fun _ => by simp

theorem streamInfo (port : Port) (stream : Byte) (clear : Bool) : Statement (.streamInfo port stream clear) := of_some rfl (by decide) fun _ => by simp

theorem whisper (port : Port) (position clip : Byte) (gain : Half) : Statement (.whisper port position clip gain) := of_some rfl (by decide) fun _ => by simp

theorem cancelWhisper (port : Port) (position : Byte) : Statement (.cancelWhisper port position) := of_some rfl (by decide) fun _ => by simp

theorem readEvent (port : Port) : Statement (.readEvent port) := of_some rfl (by decide) fun _ => by decide

theorem routeEvent (port : Port) (kind cls : Byte) : Statement (.routeEvent port kind cls) := of_some rfl (by decide) fun _ => by simp

theorem maskEvents (port : Port) (mask : Byte) : Statement (.maskEvents port mask) := of_some rfl (by decide) fun _ => by simp

end Sys2Proof.Laws.Requests
end

