-- ==== Sys2Proof/Laws/Periods.lean ====
section
/-! SUPPORT. Chip-select periods: bytes from bits and bits from bytes, and what SDO carries (R168, R172); and the bit
periods of a cycle: what a line carries in a timeslot, and what the transmit lines show (R3, R18). -/

namespace Sys2Proof

/-! ## Bits and bytes (R168) -/

theorem byteOfBits_getMsbD (b : Byte) :
    byteOfBits (b.getMsbD 0) (b.getMsbD 1) (b.getMsbD 2) (b.getMsbD 3) (b.getMsbD 4) (b.getMsbD 5) (b.getMsbD 6)
      (b.getMsbD 7) = b := by
  revert b; decide +kernel

/-- Bit `i`, from the most significant, of a byte that is built from bits. -/
theorem getMsbD_byteOfBits (b : Fin 8 → Bool) (i : Fin 8) :
    (byteOfBits (b 0) (b 1) (b 2) (b 3) (b 4) (b 5) (b 6) (b 7)).getMsbD i.val = b i := by
  have all : ∀ b0 b1 b2 b3 b4 b5 b6 b7 : Bool,
      (List.finRange 8).map (fun i => (byteOfBits b0 b1 b2 b3 b4 b5 b6 b7).getMsbD i.val)
        = [b0, b1, b2, b3, b4, b5, b6, b7] := by decide +kernel
  have here := congrArg (·[i.val]?) (all (b 0) (b 1) (b 2) (b 3) (b 4) (b 5) (b 6) (b 7))
  fin_cases i <;> simpa using here

theorem Byte.bits_eq (b : Byte) : Byte.bits b = [b.getMsbD 0, b.getMsbD 1, b.getMsbD 2, b.getMsbD 3, b.getMsbD 4,
    b.getMsbD 5, b.getMsbD 6, b.getMsbD 7] := rfl

@[simp] theorem Byte.bits_length (b : Byte) : (Byte.bits b).length = 8 := rfl

@[simp] theorem bitsOfBytes_nil : bitsOfBytes [] = [] := rfl

@[simp] theorem bitsOfBytes_cons (b : Byte) (bytes : List Byte) :
    bitsOfBytes (b :: bytes) = Byte.bits b ++ bitsOfBytes bytes := rfl

@[simp] theorem bitsOfBytes_length (bytes : List Byte) : (bitsOfBytes bytes).length = 8 * bytes.length := by
  induction bytes with
  | nil => rfl
  | cons b bytes ih => rw [bitsOfBytes_cons, List.length_append, ih, Byte.bits_length, List.length_cons]; omega

/-- Fewer than eight bits are no byte. -/
theorem bytesOfBits_short {l : List Bool} (h : l.length < 8) : bytesOfBits l = [] := by
  unfold bytesOfBits
  split
  · exact absurd h (by simp)
  · rfl

theorem bytesOfBits_bits (b : Byte) (l : List Bool) : bytesOfBits (Byte.bits b ++ l) = b :: bytesOfBits l := by
  rw [Byte.bits_eq]
  show byteOfBits _ _ _ _ _ _ _ _ :: bytesOfBits l = _
  rw [byteOfBits_getMsbD]

/-- The bits of bytes give the bytes back, whatever bits of an incomplete byte follow. -/
theorem bytesOfBits_bitsOfBytes (bytes : List Byte) {extra : List Bool} (h : extra.length < 8) :
    bytesOfBits (bitsOfBytes bytes ++ extra) = bytes := by
  induction bytes with
  | nil => exact bytesOfBits_short h
  | cons b bytes ih => rw [bitsOfBytes_cons, List.append_assoc, bytesOfBits_bits, ih]

/-- The bit at place `8 i + j` is bit `j` of byte `i`, from the most significant. -/
theorem bitsOfBytes_getElem? (bytes : List Byte) (clock : Nat) (h : clock < 8 * bytes.length) :
    (bitsOfBytes bytes)[clock]? = some ((bytes.getD (clock / 8) 0xFF).getMsbD (clock % 8)) := by
  induction bytes generalizing clock with
  | nil => simp at h
  | cons b bytes ih =>
    rw [bitsOfBytes_cons]
    by_cases hc : clock < 8
    · rw [List.getElem?_append_left (by simpa using hc), Byte.bits, List.getElem?_map, List.getElem?_range hc,
        Nat.div_eq_of_lt hc, Nat.mod_eq_of_lt hc]
      rfl
    · have hl : clock - 8 < 8 * bytes.length := by rw [List.length_cons] at h; omega
      rw [List.getElem?_append_right (by simpa using Nat.le_of_not_lt hc), Byte.bits_length, ih _ hl,
        show clock / 8 = (clock - 8) / 8 + 1 by omega, show clock % 8 = (clock - 8) % 8 by omega]
      rfl

namespace Machine

/-! ## What SDO carries (R168, R172) -/

@[simp] theorem State.readPeriod_length (s : State) (p : Port) (n : Nat) : (s.readPeriod p n).length = n := by
  unfold State.readPeriod
  simp

@[simp] theorem State.sdoBytes_length (s : State) (p : Port) (first : Byte) (n : Nat) :
    (s.sdoBytes p first n).length = n := by
  unfold State.sdoBytes
  split
  · simp
  · simp

/-- A shorter stretch of a read period is the beginning of a longer one. -/
theorem State.readPeriod_take (s : State) (p : Port) {m n : Nat} (h : m ≤ n) :
    (s.readPeriod p n).take m = s.readPeriod p m := by
  unfold State.readPeriod
  rw [List.take_take, Nat.min_eq_left h]
  simp only [List.take_append, List.take_replicate]
  rw [Nat.min_eq_left (by omega), Nat.min_eq_left (by omega)]

theorem State.sdoBytes_take (s : State) (p : Port) (first : Byte) {m n : Nat} (h : m ≤ n) :
    (s.sdoBytes p first n).take m = s.sdoBytes p first m := by
  unfold State.sdoBytes
  split
  · cases m with
    | zero => simp
    | succ m =>
      obtain ⟨n, rfl⟩ : ∃ k, n = k + 1 := ⟨n - 1, by omega⟩
      simp only [List.take_succ_cons, List.take_take]
      rw [Nat.min_eq_left (by omega), s.readPeriod_take p (by omega : m ≤ n + 1), s.readPeriod_take p (by omega : m ≤ m + 1)]
  · rw [List.take_replicate, Nat.min_eq_left h]

/-! ## Bit periods of a cycle (R3, R18) -/

/-- A timeslot's bit period, by its number in the cycle. -/
theorem cell_slotPeriod (line : LineBits) (n : Fin 64) (i : Fin 8) :
    line.cell (slotPeriod n i) = line.nth (8 * n.val + i.val) false := by
  unfold Table.nth slotPeriod
  rw [dif_pos (by omega)]

/-- The code a line carries in timeslot n has the levels of bit periods 8n to 8n + 7, most significant first. -/
theorem slotCode_getMsbD (line : LineBits) (n : Fin 64) (i : Fin 8) :
    (slotCode line n).getMsbD i.val = line.nth (8 * n.val + i.val) false := by
  rw [← cell_slotPeriod]
  exact getMsbD_byteOfBits (fun i => line.cell (slotPeriod n i)) i

theorem slotSig_present (agentSig : LineBits) (a : Fin 64) :
    (slotSig agentSig a).present = agentSig.nth (8 * a.val) false := cell_slotPeriod agentSig a 0

theorem slotSig_mute (agentSig : LineBits) (a : Fin 64) :
    (slotSig agentSig a).mute = agentSig.nth (8 * a.val + 1) false := cell_slotPeriod agentSig a 1

/-- What a line shows in bit period `i` of timeslot `n`. -/
theorem slotLevel_slotPeriod (codes : Table 64 (Option Byte)) (n : Fin 64) (i : Fin 8) :
    slotLevel codes (slotPeriod n i) = (codes.cell n).map fun code => code.getMsbD i.val := by
  have slot : (⟨(slotPeriod n i).val / 8, by omega⟩ : Fin 64) = n := Fin.ext (by simp only [slotPeriod]; omega)
  have place : (slotPeriod n i).val % 8 = i.val := by simp only [slotPeriod]; omega
  unfold slotLevel
  rw [slot, place]

end Machine
end Sys2Proof
end

