-- ==== Sys2Proof/Tests/Slice0.lean ====
section
/-! SUPPORT. The model's own tests: ill-formed commands, worked examples of the manual, decoded request frames, small
single steps, and for every statement with hypotheses a state and operands that meet them. -/

namespace Sys2Proof.Tests

-- One test at a time: evaluated together, they would start more threads than memory has stacks for.
set_option Elab.async false

open Sys2Proof.Machine

/-! ## Helpers -/

/-- A part that runs, with both ports enabled and READY high. -/
def running : State := { State.reset with
  phase := .running
  startUp := { StartUp.beforeWord with cp1Enabled := true }
  ports := ⟨⟨true, none, none, 0⟩, ⟨true, none, none, 0⟩⟩ }

/-- CP0's record of an IDLE position on agent timeslot 3, with segments 0 and 1. -/
def idle : Position := { Position.closedContents with state := .idle, owner := some .cp0, agentSlot := some 3 }

/-- CP0's record of a CONNECTED position on timeslots 3. -/
def talking : Position := { idle with state := .connected, trunkSlot := some 3 }

/-- The running part with position 3 as given and two segments allocated to it. -/
def withRecord (x : Position) : State := { running.setPos 3 x with echo :=
  ⟨running.echo.coefficients, (List.finRange 128).drop 2, running.echo.positions.put 3 (Canceller.zeroed [0, 1])⟩ }

/-- The running part with IDLE position 3 on its timeslot. -/
def opened : State := (withRecord idle).setAgentLine 3 (some ⟨3, none, Table.fill 32 0xFF⟩)

/-- The running part with position 3 in a call, its trunk timeslot having sent and received a frame of one code each. -/
def inCall (x : Position) (sent received : Byte) : State :=
  ((withRecord x).setAgentLine 3 (some ⟨3, some (List.replicate 32 0xFF), Table.fill 32 0xFF⟩)).setTrunkLine 3
    (some ⟨⟨3, some (List.replicate 32 received), Table.fill 32 0xFF⟩, List.replicate 32 sent⟩)

/-- The running part with sync LOCKED on the given cycle, which began at bit position 100. -/
def locked (cycle : Fin 32) : State := { opened with highway := { opened.highway with sync := .locked 100 cycle } }

/-- A clip of CP0's, of 4 pages, which both ports may play under PLAY_NOTE. -/
def prompt : Clip := ⟨true, some .cp0, 10, 4, 200, ⟨.playNote, .playNote⟩, false, false, 0, 0⟩

/-- The running part with that clip as number 5. -/
def withClip (s : State) (x : Clip) : State := s.setClip 5 x

/-- One item of that clip at unity gain, played without loops. -/
def oneItem : PlaylistArg := ⟨[⟨5, 32768⟩], ⟨false, 0, 0, 0⟩, ⟨false, 0, 0, 0⟩⟩

/-- A stream of CP0's in a state, with that playlist. -/
def playing (state : StreamState) (cursor : FetchCursor) : Stream :=
  { Stream.atReset with state := state, owner := some .cp0, current := some (storedPlaylist oneItem), cursor := cursor }

/-- An entry of that clip's, from CP0. -/
def entry (kind : EntryKind) (phase : EntryPhase) : Entry := ⟨5, 32768, .cp0, kind, 0, phase⟩

/-- The status and payload of the reply a command leaves at CP0. -/
def replyOf (c : Instr) (s : State) : Option (Status × List Byte) :=
  match exec c s with
  | .next t => (t.port .cp0).lastReply.map fun r => (r.status, r.payload)
  | _ => none

/-- A fact of the state a command leads to. -/
def after (c : Instr) (s : State) (f : State → Bool) : Bool :=
  match exec c s with
  | .next t => f t
  | _ => false

/-- A line that carries one code in every timeslot of a cycle. -/
def everySlot (code : Byte) : LineBits := Table.build fun period => code.getMsbD (period.val % 8)

/-! ## Ill-formed commands -/

/-- Two upsets of one word. -/
def doubleUpset : List WordUpset := [⟨4, .correctable⟩, ⟨4, .uncorrectable⟩]

theorem test_wellFormed_rejects_two_upsets_of_a_word :
    (Instr.pageFetchCompletion doubleUpset).wellFormed = false
      ∧ (Instr.portPageReadCompletion doubleUpset).wellFormed = false
      ∧ (Instr.scrubStepCompletion doubleUpset).wellFormed = false
      ∧ (Instr.scrubStepCompletion [⟨4, .correctable⟩, ⟨5, .uncorrectable⟩]).wellFormed = true := by decide

theorem test_wellFormed_rejects_the_read_marker_as_a_code :
    (Instr.unknownRequestCode .cp0 0xC3).wellFormed = false ∧ (Instr.unknownRequestCode .cp0 0xC4).wellFormed = true := by
  decide

theorem test_wellFormed_rejects_an_offer_that_withdraws :
    (Instr.offerPositionOffer .cp0 3 1).wellFormed = false ∧ (Instr.offerPositionOffer .cp0 3 0).wellFormed = true := by
  decide

theorem test_wellFormed_rejects_a_playlist_longer_than_its_count_byte :
    (Instr.startStream .cp0 0 { oneItem with items := List.replicate 256 ⟨5, 0⟩ }).wellFormed = false
      ∧ (Instr.loadStream .cp0 0 { oneItem with items := List.replicate 256 ⟨5, 0⟩ }).wellFormed = false
      ∧ (Instr.loadStream .cp0 0 { oneItem with items := List.replicate 255 ⟨5, 0⟩ }).wellFormed = true := by decide +kernel

/-! ## Request frames, written out from R178 -/

theorem test_decodes_open_position : decodeRequest .cp0 [0x10, 0x00, 0x04, 3, 7, 2, 1] = some (.openPosition .cp0 3 7 2 1) := by
  decide +kernel

theorem test_decodes_add_tap : decodeRequest .cp1 [0x28, 0x00, 0x05, 3, 4, 1, 0x40, 0x00]
    = some (.addTap .cp1 3 4 1 0x4000) := by decide +kernel

theorem test_decodes_whisper : decodeRequest .cp0 [0x48, 0x00, 0x04, 3, 5, 0x80, 0x00] = some (.whisper .cp0 3 5 0x8000) := by
  decide +kernel

theorem test_decodes_a_short_frame_as_unreadable : decodeRequest .cp0 [0x48, 0x00, 0x03, 3, 5, 0x80]
    = some (.unknownRequestCode .cp0 0x48) := by decide +kernel

theorem test_decodes_start_stream :
    decodeRequest .cp1 [0x40, 0x00, 0x0D, 2, 1, 5, 0x80, 0x00, 1, 0, 0, 3, 0, 0, 0, 0]
      = some (.startStream .cp1 2 ⟨[⟨5, 0x8000⟩], ⟨true, 0, 0, 3⟩, ⟨false, 0, 0, 0⟩⟩) := by decide +kernel

/-- The bits of 0x48. -/
def bits48 : List Bool := [false, true, false, false, true, false, false, false]

theorem test_bits_travel_most_significant_first :
    Byte.bits 0x48 = bits48 ∧ bytesOfBits (bits48 ++ [true, true, true]) = [0x48] ∧ bytesOfBits [true, false] = []
      ∧ decodePeriod .cp0 (bitsOfBytes [0x55, 0x00, 0x00]) = some (.unknownRequestCode .cp0 0x55)
      ∧ decodePeriod .cp0 (bitsOfBytes [0xC3, 0x48, 0x00]) = none := by decide +kernel

theorem test_undefined_presence_bits_are_ignored :
    decodeRequest .cp0 [0x13, 0x00, 0x03, 3, 0xFE, 2] = decodeRequest .cp0 [0x13, 0x00, 0x03, 3, 0x00, 2] := by
  decide +kernel

theorem test_no_table_row_gives_bits : decodeTableWord 8 0 = none ∧ State.reset.withFetchWord 8 0 = State.reset := ⟨rfl, rfl⟩

/-! ## Worked examples of the manual -/

theorem test_companding_table :
    compress .mu 1000 = 0xCE ∧ expand .mu 0xCE = 988 ∧ compress .a 1000 = 0xFA ∧ expand .a 0xFA = 1008
    ∧ compress .mu (-1000) = 0x4E ∧ expand .mu 0x4E = -988 ∧ compress .a (-1000) = 0x7A ∧ expand .a 0x7A = -1008
    ∧ compress .mu 20000 = 0x8C ∧ expand .mu 0x8C = 19836 ∧ compress .a 20000 = 0xA6 ∧ expand .a 0xA6 = 19968
    ∧ compress .mu 32767 = 0x80 ∧ expand .mu 0x80 = 32124 ∧ compress .a 32767 = 0xAA ∧ expand .a 0xAA = 32256 := by
  decide +kernel

theorem test_speech_onset :
    let x : Suppressor := ⟨40000, 2, 11585, false, Frame.zero, false, true⟩
    let y := x.stages (Profile.atReset.cell 2) 1200000 (Table.fill 32 1000)
    y.speech = true ∧ y.floor = 40157 ∧ y.index = 5 ∧ y.gain = 32768 ∧ y.send.cell 0 = 374
      ∧ rampGain 11585 32768 15 = 22176 ∧ rampSample 11585 32768 0 (-1000) = -374 := by decide +kernel

theorem test_release_after_speech :
    let x : Suppressor := ⟨40157, 5, 32768, false, Frame.zero, true, true⟩
    let y := x.stages (Profile.atReset.cell 2) 30000 Frame.zero
    let z := y.stages (Profile.atReset.cell 2) 30000 Frame.zero
    y.floor = 30000 ∧ y.index = 4 ∧ y.gain = 23170 ∧ rampGain 32768 23170 0 = 32468
      ∧ z.index = 3 ∧ z.gain = 16384 ∧ rampGain 23170 16384 0 = 22957 := by decide +kernel

theorem test_tap_updates :
    adaptTap 10 1200 (-2500) 1000 = -1930 ∧ adaptTap 14 1200 (-2500) 1000 = 817 ∧ adaptTap 2 8000 200 0 = 32767
      ∧ adaptShift 3000000 20 3 = 10 := by decide +kernel

theorem test_two_loops :
    let l : Playlist := ⟨List.replicate 4 ⟨5, 0⟩, ⟨true, 1, 2, 3⟩, ⟨true, 0, 3, 2⟩⟩
    l.decide 0 3 2 = (.page 1 0, 3, 2) ∧ l.decide 2 3 2 = (.page 1 0, 2, 2) ∧ l.decide 2 1 2 = (.page 3 0, 3, 2)
      ∧ l.decide 3 3 2 = (.page 0 0, 3, 1) ∧ l.decide 3 3 1 = (.exhausted, 3, 2) := by decide +kernel

/-- Section 11.5's full store: two masked records, the oldest, then 30 of class 3. -/
def fullStore : EventState where
  store := ⟨.clipPlayed, 6, 10, 0, 0⟩ :: ⟨.clipPlayed, 6, 11, 0, 0⟩ :: List.replicate 30 ⟨.promptDone, 3, 0, 0, 0⟩
  classes := EventState.defaultClasses
  mask := 0x40
  lost := 0

theorem test_full_store :
    let e := ((fullStore.store1 ⟨.ecReset, 2, 0, 0, 0⟩).store1 ⟨.clipPlayed, 6, 12, 0, 0⟩).store1 ⟨.headsetChange, 1, 0, 0, 0⟩
    let f := e.store1 ⟨.streamLost, 4, 0, 0, 0⟩
    e.lost = 3 ∧ e.store.length = 32 ∧ f.lost = 4 ∧ f.store = e.store ∧ f.pick = some ⟨.headsetChange, 1, 0, 0, 0⟩ := by
  decide +kernel

/-- Section 7.6's grant sequence: S3 and W7 wait, a port operation of each port is pending, and 2 are owed. -/
def contended : State := running.setArbiter { running.arbiter with
  queue := [⟨.stream 3, 0, 20, 0⟩, ⟨.prompt 7, 0, 30, 0⟩]
  pendingOps := ⟨some (.write 5 0 10 (Table.fill 256 0) false), some (.read 5 0 11)⟩
  owed := 2 }

theorem test_grant_takes_the_fetch_first :
    contended.grant.arbiter.bus = some (.fetch ⟨.stream 3, 0, 20, 0⟩) ∧ contended.grant.arbiter.owed = 2 := by decide +kernel

theorem test_grant_alternates_between_ports :
    (contended.setArbiter { contended.arbiter with queue := [] }).grant.arbiter.alternation = .cp0
      ∧ (contended.setArbiter { contended.arbiter with queue := [], alternation := .cp0 }).grant.arbiter.bus
        = some (.port .cp1 (.read 5 0 11)) := by decide +kernel

/-! ## Single steps -/

theorem test_a_step_takes_the_front_command :
    step { running with pending := [.portStatus .cp0, .pinReset] }
      = exec (.portStatus .cp0) { running with pending := [.pinReset] } := rfl

theorem test_port_status : replyOf (.portStatus .cp0) running
    = some (.ok, [0x06, 0x40, 0x01, 0, 0, 0, 0, 0, 1, 1]) := by decide +kernel

theorem test_open_position : after (.openPosition .cp0 3 7 2 1) running
    (fun s => (s.pos 3).state = .idle && s.segments 3 = [0, 1] && (s.highway.agent.cell 7).isSome) = true := by decide +kernel

theorem test_open_position_in_a_taken_slot : replyOf (.openPosition .cp0 4 3 2 1) opened = some (.slotTaken, []) := by
  decide +kernel

theorem test_close_position : after (.closePosition .cp0 3) opened
    (fun s => (s.pos 3).state = .closed && s.echo.free.length = 128 && (s.highway.agent.cell 3).isNone) = true := by
  decide +kernel

theorem test_connect_with_a_prompt : after (.connect .cp0 3 9 (some ⟨5, 32768⟩) none) (withClip opened prompt)
    (fun s => (s.pos 3).state = .announce && (s.queue 3).length = 1 && (s.clip 5).plays = 1 && (s.clip 5).accessed
      && s.arbiter.bus.isSome) = true := by decide +kernel

theorem test_hold : after (.hold .cp0 3 none) (withRecord talking) (fun s => (s.pos 3).state = .held) = true := by
  decide +kernel

theorem test_set_tail : after (.setTail .cp0 3 4) opened
    (fun s => s.segments 3 = [0, 1, 2, 3] && (s.pos 3).tail = 4) = true := by decide +kernel

theorem test_read_page_of_a_free_clip : replyOf (.readPage .cp0 5 0) running = some (.clipFault, [])
    ∧ after (.readPage .cp0 5 0) running (fun s => (s.fault .cp0).record.isSome) = true := by decide +kernel

theorem test_write_page_goes_to_the_bus :
    after (.writePage .cp0 5 2 (Table.fill 256 7)) (withClip running { prompt with keys := ⟨.write, .noAccess⟩ })
      (fun s => s.busPage = some 12 && !(s.port .cp0).ready && (s.clip 5).writeBusy = 1) = true := by
  decide +kernel

theorem test_start_stream_fetches : after (.startStream .cp0 2 oneItem) (withClip running prompt)
    (fun s => s.arbiter.bus = some (.fetch ⟨.stream 2, 0, 10, 0⟩) && (s.clip 5).plays = 1) = true := by decide +kernel

theorem test_whisper_takes_a_player : after (.whisper .cp0 3 5 32768) (withClip opened prompt)
    (fun s => (s.player 0).assigned = some 3 && (s.queue 3).map Entry.phase = [.priming]) = true := by decide +kernel

theorem test_cycle_sends_and_receives :
    after (.cycle (Table.fill 512 false) (everySlot 0xA2) (everySlot 0x80)) (locked 31)
      (fun s => s.highway.frameDue && s.highway.agentOut.cell 3 = some 0xFF && s.highway.agentOut.cell 4 = none
        && s.agtTx 24 = some true && s.agtTx 32 = none
        && (s.debounced 0).presentCount = 1 && (s.debounced 0).muteCount = 0) = true := by decide +kernel

theorem test_a_slot_is_eight_bit_periods :
    let line := (Table.fill 512 false).put 24 true
    slotCode line 3 = 0x80 ∧ slotCode line 2 = 0 ∧ slotCode (everySlot 0xA2) 63 = 0xA2
      ∧ slotSig line 3 = ⟨true, false⟩ ∧ slotSig (everySlot 0x40) 63 = ⟨false, true⟩
      ∧ slotLevel ((Table.fill 64 none).put 3 (some 0x01)) 31 = some true
      ∧ slotLevel ((Table.fill 64 none).put 3 (some 0x01)) 30 = some false := by decide +kernel

theorem test_frame_completion_stamps :
    after .frameCompletion { opened with highway := { opened.highway with sync := .locked 100 0, frameDue := true } }
      (fun s => s.highway.stamp = 1 && !s.highway.frameDue) = true := by decide +kernel

/-- The caller's loudest code reaches the agent's transmit buffer, and the trunk hears silence. -/
theorem test_frame_completion_transmits :
    let s := inCall { talking with mode := .bypass, nlp := false } 0xFF 0x80
    after .frameCompletion { s with highway := { s.highway with sync := .locked 100 0, frameDue := true } }
      (fun t => (t.highway.agent.cell 3).map (fun l => (l.received, l.transmit.cell 31)) = some (some [], 0x80)
        && (t.highway.trunk.cell 3).map (fun l => l.line.transmit.cell 31) = some 0xFF) = true := by decide +kernel

theorem test_missing_page_stops_the_part :
    exec .portPageWriteCompletion
        (running.setArbiter { running.arbiter with bus := some (.port .cp0 (.write 5 0 16384 (Table.fill 256 0) false)) })
      = .fault (.noSuchPage 16384) := by rfl

/-! ## The hypotheses of the statements can be met -/

theorem running_takes (p : Port) : running.takes p := by cases p <;> exact ⟨rfl, rfl, rfl⟩

theorem test_witness_StepRunsTheFrontCommand : State.reset.pending = [] := rfl

theorem test_witness_CommandsChangeOnlyTheirPieces : ∃ t, exec .pinReset running = .next t := ⟨_, rfl⟩

/-- Nothing waits in a part that has just begun to run. -/
theorem running_pagesSound : running.pagesSound :=
  ⟨fun _ h => (nomatch h), fun p _ h => by cases p <;> exact (nomatch h), fun _ h => (nomatch h),
    fun h => absurd rfl h⟩

theorem test_witness_OnlyMissingPagesStopThePart : (∃ r, exec .portPageWriteCompletion
    (running.setArbiter { running.arbiter with bus := some (.port .cp0 (.write 5 0 16384 (Table.fill 256 0) false)) })
      = .fault r) ∧ running.pagesSound := ⟨⟨_, test_missing_page_stops_the_part⟩, running_pagesSound⟩

theorem test_witness_RefusedRequestsChangeNothingElse :
    (∃ t r, exec (.hold .cp0 64 none) running = .next t ∧ (t.port .cp0).lastReply = some r ∧ r.status ≠ .ok)
    ∧ ∃ t r, exec (.readPage .cp0 5 0) running = .next t ∧ (t.port .cp0).lastReply = some r ∧ r.status = .clipFault :=
  ⟨⟨_, ⟨.badArg, Code.hold, []⟩, rfl, by decide +kernel, by decide⟩,
    ⟨_, ⟨.clipFault, Code.readPage, []⟩, rfl, by decide +kernel, by decide⟩⟩

theorem test_witness_RefusedRequests_verdicts :
    running.verdict .cp0 (.hold .cp0 64 none) = some .badArg ∧ running.verdict .cp0 (.hold .cp0 63 none) = some .state
    ∧ running.verdict .cp0 (.readPage .cp0 5 4095) = some .clipFault
    ∧ running.faultOf .cp0 (.readPage .cp0 5 4095) = some (⟨true, false, false, false⟩, 5, some 4095)
    ∧ running.verdict .cp0 (.readPage .cp0 5 4096) = some .badArg
    ∧ running.verdict .cp0 (.portStatus .cp0) = none ∧ (Instr.portStatus .cp0).codeAndPayload.isSome = true := by
  decide +kernel

theorem test_witness_PortChecksComeFirst :
    State.reset.phase = .shifting
    ∧ ((running.setPort .cp0 ⟨false, some 1, none, 255⟩).phase ≠ .shifting
      ∧ ((running.setPort .cp0 ⟨false, some 1, none, 255⟩).port .cp0).ready = false)
    ∧ ({ running with phase := .preparing }.phase = .preparing
      ∧ ({ running with phase := .preparing }.port .cp0).ready = true)
    ∧ ({ running with startUp := StartUp.beforeWord }.phase = .running
      ∧ ({ running with startUp := StartUp.beforeWord }.port .cp1).ready = true
      ∧ { running with startUp := StartUp.beforeWord }.enabled .cp1 = false)
    ∧ running.takes .cp0 :=
  ⟨rfl, ⟨by decide, rfl⟩, ⟨rfl, rfl⟩, ⟨rfl, rfl, rfl⟩, running_takes .cp0⟩

theorem test_witness_DecodeOfEncodedRequest :
    (Instr.startStream .cp1 2 oneItem).wellFormed = true
      ∧ (encodeRequest (.startStream .cp1 2 oneItem)).isSome = true ∧ bits48.tail.length < 8
      ∧ (0 : Byte) ≠ 1 ∧ (List.replicate 255 (⟨5, 0⟩ : ItemArg)).length ≤ 255 := by decide +kernel

theorem test_witness_PinResetAndStartUp :
    State.reset.phase = .shifting ∧ { running with phase := .preparing }.phase = .preparing := ⟨rfl, rfl⟩

/-- A state is quiet when neither a frame completion nor an expiry is due. -/
theorem quiet_of {s : State} (h : s.highway.frameDue = false)
    (k : (List.finRange 64).all (fun a => !(s.debounced a).presentDue && !(s.debounced a).muteDue) = true) : s.quiet := by
  refine ⟨h, fun a => ?_⟩
  have := List.all_eq_true.mp k a (List.mem_finRange a)
  simpa using this

theorem opened_none_due :
    (List.finRange 64).all (fun a => !(opened.debounced a).presentDue && !(opened.debounced a).muteDue) = true := by
  decide +kernel

theorem locked_quiet (cycle : Fin 32) : (locked cycle).quiet := by
  refine ⟨rfl, fun a => ?_⟩
  have := List.all_eq_true.mp opened_none_due a (List.mem_finRange a)
  have e : (locked cycle).debounced a = opened.debounced a := rfl
  rw [e]
  simpa using this

theorem test_witness_Cycles :
    (∀ cycle, (locked cycle).phase = .running ∧ (locked cycle).quiet ∧ (locked cycle).highway.sync = .locked 100 cycle)
    ∧ (running.phase = .running ∧ running.quiet ∧ running.highway.sync = .lost none) ∧ State.reset.phase ≠ .running :=
  ⟨fun cycle => ⟨rfl, locked_quiet cycle, rfl⟩, ⟨rfl, quiet_of rfl (by decide +kernel), rfl⟩,
    by decide⟩

/-- Sync LOCKED at cycle 0 with a frame completion due. -/
def lockedDue : State := { locked 0 with highway := { (locked 0).highway with frameDue := true } }

theorem test_witness_DueEffectsAreTakenFirst :
    running.quiet ∧ (lockedDue.phase = .running ∧ lockedDue.highway.frameDue = true
      ∧ lockedDue.highway.sync = .locked 100 0) ∧ running.highway.sync = .lost none ∧ State.reset.phase ≠ .running :=
  ⟨quiet_of rfl (by decide +kernel), ⟨rfl, rfl, rfl⟩, rfl, by decide⟩

/-- Agent timeslot 3 with both counters at 24. -/
def expiring (s : State) : State := s.setDebounced 3 ⟨false, true, 24, 24⟩

theorem test_witness_DebounceExpiry :
    ((expiring opened).debounced 3).presentCount = 24 ∧ ((expiring opened).debounced 3).muteCount = 24
      ∧ (expiring opened).highway.agent.cell 3 = some ⟨3, none, Table.fill 32 0xFF⟩
      ∧ (expiring running).highway.agent.cell 3 = none := by decide +kernel

theorem test_witness_FrameCompletion :
    let s : State := { opened with highway := { opened.highway with frameDue := true } }
    s.highway.frameDue = true ∧ ∀ a, (s.debounced a).presentCount ≠ 24 ∧ (s.debounced a).muteCount ≠ 24 := by decide +kernel

/-- The last sample of a page of that clip's, in a stream's playing slot and in a prompt player's. -/
def lastSample : StreamPlaying := ⟨⟨Table.fill 256 0, 200, 32768, 0, 3⟩, 199⟩
def lastPromptSample : PromptPlaying := ⟨⟨Table.fill 256 0, 200⟩, 199⟩

/-- The running part with stream 2 as given. -/
def withStream (x : Stream) : State := (withClip running prompt).setStream 2 x

theorem test_witness_FrameCompletion_streams :
    let x := playing .running (.page 0 0)
    ((withStream x).stream 2).state = .running ∧ (running.stream 2).state ≠ .running
    ∧ (x.playing = none ∧ x.next = .empty ∧ x.cursor ≠ .exhausted)
    ∧ (playing .running .exhausted).cursor = .exhausted
    ∧ ({ x with playing := some lastSample } : Stream).playing = some lastSample
    ∧ ({ x with next := .filled lastSample.page } : Stream).next = .filled lastSample.page
    ∧ ({ x with next := .awaited 0 } : Stream).next = .awaited 0 :=
  ⟨by decide +kernel, by decide +kernel, ⟨rfl, rfl, by decide⟩, rfl, rfl, rfl, rfl⟩

/-- A position in a call whose head has the kind and phase given and plays through player 0. -/
def sounding (state : PositionState) (kind : EntryKind) (phase : EntryPhase) (x : PromptPlayer) : State :=
  (((withClip (withRecord { talking with state := state }) { prompt with plays := 1 }).setQueue 3
    [entry kind phase]).setPlayer 0 { x with assigned := some 3 })

/-- CP0's head has just ended: its last page is played and its fetch cursor is done. -/
def endedHead (state : PositionState) (kind : EntryKind) : State :=
  sounding state kind .sounding { PromptPlayer.free 0 with cursor := .done }

theorem test_witness_FrameCompletion_ended_heads :
    let s := endedHead .announce .announce
    s.playerOf 3 = some 0 ∧ (s.player 0).playing = none ∧ (s.player 0).next = .empty ∧ (s.player 0).cursor = .done
    ∧ s.queue 3 = [entry .announce .sounding] ∧ s.sounding 3 = true ∧ (s.pos 3).state = .announce
    ∧ ((endedHead .held .announce).pos 3).state = .held ∧ (endedHead .connected .prompt).queue 3 = [entry .prompt .sounding]
    ∧ running.sounding 3 = false ∧ running.playerOf 3 = none := by decide +kernel

theorem test_witness_FrameCompletion_prompts :
    let x := PromptPlayer.free 0
    let primed := sounding .connected .prompt .priming { x with next := .filled lastPromptSample.page }
    let starved := sounding .connected .prompt .sounding { x with next := .awaited }
    (primed.primed 3 = true ∧ running.primed 3 = false ∧ starved.sounding 3 = true ∧ (starved.player 0).next = .awaited)
    ∧ (primed.player 0).next = .filled lastPromptSample.page
    ∧ ({ x with playing := some lastPromptSample } : PromptPlayer).playing = some lastPromptSample :=
  ⟨by decide +kernel, rfl, rfl⟩

theorem test_a_played_announcement_connects :
    let t := (endedHead .announce .announce).completeHead 3
    (t.pos 3).state = .connected ∧ t.queue 3 = [] ∧ (t.clip 5).plays = 0 ∧ (t.player 0).assigned = none
      ∧ (t.eventsOf .cp0).store.map Record.kind = [.promptDone, .announceDone] := by decide +kernel

theorem test_a_stream_out_of_pages_underruns :
    let t := ((withStream { playing .running .undecided with next := .awaited 0 }).streamSample 2).2
    (t.stream 2).underrun = true ∧ (t.stream 2).underrunSamples = 1
      ∧ (t.eventsOf .cp0).store.map Record.kind = [.streamUnderrun] := by decide +kernel

theorem test_witness_SyncMonitor :
    ((locked 0).phase = .running ∧ (locked 0).quiet ∧ (locked 0).highway.sync = .locked 100 0
      ∧ 612 % 512 = 100 % 512 ∧ 613 % 512 ≠ 100 % 512)
    ∧ let s : State := { running with highway := { running.highway with sync := .lost (some 100) } }
      s.phase = .running ∧ s.quiet ∧ s.highway.sync = .lost (some 100)
      ∧ (some 100).map (· + 512) = some 612 ∧ (some 100).map (· + 512) ≠ some 613 :=
  ⟨⟨rfl, locked_quiet 0, rfl, by decide, by decide⟩,
    ⟨rfl, quiet_of rfl (by decide +kernel), rfl, by decide, by decide⟩⟩

theorem test_witness_GainRule :
    clampGain 32768 = 32768 ∧ clampGain 32769 = 32768 ∧ applyGain 32768 (-32768) = -32768 ∧ applyGain 32768 32767 = 32767 := by
  decide +kernel

theorem test_witness_MuLaw :
    compress .mu (-32768) = 0x00 ∧ compress .mu (-32635) = 0x00 ∧ compress .mu 32635 = 0x80 ∧ compress .mu 0 = 0xFF
      ∧ expand .mu 0x00 = -32124 := by decide +kernel

theorem test_witness_ALaw :
    compress .a (-32768) = 0x2A ∧ compress .a 32767 = 0xAA ∧ compress .a 0 = 0xD5 ∧ expand .a 0xD5 = 8
      ∧ expand .a 0x2A = -32256 := by decide +kernel

theorem test_witness_SuppressorFloor :
    (Profile.atReset.cell 2).nmin ≤ 2 ^ 35 ∧ 2 ^ 35 ≤ 2 ^ 35
      ∧ 512 ≤ (Suppressor.fresh (Profile.atReset.cell 2)).floor := by decide +kernel

theorem test_witness_SuppressorRamp :
    rampGain 0 32768 31 = 32768 ∧ rampGain 32768 0 31 = 0 ∧ rampSample 32768 32768 31 (-32768) = -32768 := by decide +kernel

theorem test_witness_SuppressorFrame :
    (Suppressor.fresh (Profile.atReset.cell 2)).firstFrame = true ∧ 1 ≤ (Profile.atReset.cell 2).threshold
      ∧ ({ Suppressor.fresh (Profile.atReset.cell 2) with firstFrame := false } : Suppressor).firstFrame = false := by
  decide +kernel

/-- A position whose headset is present, with MUTE as given, and whose timeslot hands over a frame. -/
def heardState (mute : Bool) : State := (inCall talking 0xFF 0xFF).setDebounced 3 ⟨true, mute, 0, 0⟩

theorem test_witness_SuppressorDecision :
    (running.pos 3).state = .closed
    ∧ ((opened.pos 3).state ≠ .closed ∧ opened.microphone 3 = none)
    ∧ ((inCall talking 0xFF 0xFF).headsetPresent 3 = false)
    ∧ talking.agentSlot = some 3 ∧ ((heardState false).highway.agent.cell 3).map (fun l => l.received.map List.length)
      = some (some 32)
    ∧ ∀ mute, ((heardState mute).pos 3).state ≠ .closed ∧ ((heardState mute).microphone 3).isSome = true
      ∧ (heardState mute).headsetPresent 3 = true ∧ (heardState mute).headsetMuted 3 = mute := by decide +kernel

/-- A run at the beginning of a frame, with `n` taps. -/
def freshRun (n : Nat) : EchoRun := ⟨List.replicate 512 0, 0, 0, 0, List.replicate n 0, []⟩

theorem test_witness_EchoSample :
    ((freshRun 512).history.length = 512 ∧ 1 ≤ (freshRun 512).taps.length ∧ (freshRun 512).taps.length ≤ 512)
    ∧ 1 ≤ (freshRun 1).taps.length
    ∧ ((freshRun 128).sample { talking with mode := .adapt } true (0, 0)).hangover = 0
    ∧ ((freshRun 128).sample { talking with mode := .adapt } true (100, 0)).hangover = 8 ∧ 16 ≤ talking.reg := by
  decide +kernel

theorem test_witness_EchoPowerIsExact :
    (freshRun 512).power = (((freshRun 512).history.take (freshRun 512).taps.length).map fun v => v.natAbs ^ 2).sum := by
  decide +kernel

/-- A talking position whose last frame sent was SPEECH, that sent a loud frame and received a silent one. -/
def echoQuiet : State := (inCall { talking with mode := .frozen } 0x80 0xFF).setSuppressor 3
  { Suppressor.fresh (Profile.atReset.cell 2) with speech := true, wasConnected := true }

/-- A talking position about to diverge: its first tap is large, the sent frame loud, the received one quiet. -/
def diverging (mode : EcMode) : State :=
  let s := inCall { talking with mode := mode } 0x80 0xE6
  { s with echo := { s.echo with
      coefficients := s.echo.coefficients.put 0 ((Table.fill 128 0).put 0 32767)
      positions := s.echo.positions.put 3 { s.canceller 3 with divergence := 3 } } }

theorem test_witness_EchoFrames_in_and_out_of_a_call :
    (opened.pos 3).state.inCall = false
    ∧ ((diverging .bypass).pos 3).state.inCall = true ∧ ((diverging .bypass).pos 3).mode = .bypass
    ∧ ((diverging .adapt).canceller 3).divergence ≤ 3
    ∧ ((diverging .adapt).segments 3).Nodup ∧ ((diverging .adapt).segments 3).length ≤ 4
    ∧ (talking.trunkSlot = some 3 ∧ (diverging .adapt).highway.trunk.cell 3
      = some ⟨⟨3, some (List.replicate 32 0xE6), Table.fill 32 0xFF⟩, List.replicate 32 0x80⟩)
    ∧ ((opened.setTrunkLine 3 (some ⟨⟨3, none, Table.fill 32 0xFF⟩, []⟩)).highway.trunk.cell 3).map
        (fun l => l.line.received) = some none := by decide +kernel

theorem test_witness_EchoFrames_nlp_acts :
    echoQuiet.sentSpeech 3 = true ∧ (echoQuiet.pos 3).nlp = true ∧ (echoQuiet.echoFrame 3).run.hangover = 0
      ∧ ((echoQuiet.echoFrame 3).run.errors.map fun e => e.natAbs * e.natAbs).sum
        < frameEnergy (echoQuiet.echoInput 3).2 / 2 ^ (echoQuiet.pos 3).shift := by decide +kernel

theorem test_witness_EchoFrames_guard_fires :
    ((diverging .frozen).pos 3).state = .connected ∧ ((diverging .frozen).canceller 3).divergence = 3
      ∧ 2 ^ 16 ≤ frameEnergy ((diverging .frozen).echoInput 3).1
      ∧ 4 * frameEnergy ((diverging .frozen).echoInput 3).1
        < (((diverging .frozen).echoFrame 3).run.errors.map fun e => e.natAbs * e.natAbs).sum := by decide +kernel

/-- A tap of CP0's from position 4 on to position 3. -/
def tapOn3 (kind : TapKind) : Tap := ⟨4, 3, kind, 16384, .cp0⟩

theorem test_witness_EarAndTrunkFrames :
    (opened.setQueue 3 [entry .prompt .sounding]).queue 3 ≠ [] ∧ opened.queue 3 = []
    ∧ (opened.setTap 0 (some (tapOn3 .coach))).coachTap 3 = some (tapOn3 .coach) ∧ opened.coachTap 3 = none
    ∧ (opened.setTap 0 (some (tapOn3 .monitor))).listenerTap 4 = some (tapOn3 .monitor) ∧ opened.listenerTap 3 = none
    ∧ (opened.pos 3).state ≠ .closed ∧ (opened.pos 4).state = .closed := by decide +kernel

theorem test_witness_OpenPosition : running.takes .cp0 ∧ number? 64 63 = some 63 ∧ number? 64 0 = some 0
    ∧ 1 ≤ (4#8).toNat ∧ (4#8).toNat ≤ 4 ∧ (running.pos 63).state = .closed ∧ running.highway.agent.cell 0 = none
    ∧ (4#8).toNat ≤ running.echo.free.length := ⟨running_takes .cp0, by decide +kernel⟩

theorem opened_takes (p : Port) : opened.takes p := by cases p <;> exact ⟨rfl, rfl, rfl⟩

theorem withRecord_takes (x : Position) (p : Port) : (withRecord x).takes p := by cases p <;> exact ⟨rfl, rfl, rfl⟩

theorem test_witness_ClosePosition : opened.takes .cp0 ∧ opened.arbiter.pendingOps.cell .cp0 = none
    ∧ number? 64 3 = some 3 ∧ (opened.pos 3).state = .idle ∧ (opened.pos 3).owner = some .cp0
    ∧ (opened.setArbiter { opened.arbiter with bus := some .scrub }).arbiter.bus ≠ none :=
  ⟨opened_takes .cp0, by decide +kernel⟩

/-- The forms of FlushLeaves: entries that all wait, and a head that plays, each beside another position's entry. -/
theorem test_witness_FlushLeaves :
    let s := sounding .connected .prompt .priming (PromptPlayer.free 0)
    s.takes .cp0 ∧ s.arbiter.pendingOps.cell .cp0 = none ∧ (s.pos 3).state.inCall = true ∧ (s.pos 3).owner = some .cp0
    ∧ s.queue 3 = entry .prompt .priming :: [] ∧ (entry .prompt .priming).phase ≠ .waiting ∧ s.playerOf 3 = some 0
    ∧ ((s.setPos 3 idle).pos 3).state = .idle
    ∧ ([] : List Entry).all (fun e => e.phase = .waiting) = true ∧ [entry .prompt .waiting].all (fun e => e.phase = .waiting) = true
    ∧ ((s.setQueue 4 [entry .prompt .waiting]).queue 4).length = 1 :=
  ⟨⟨rfl, rfl, rfl⟩, by decide +kernel⟩

/-- A release flushes its own queue and leaves another position's prompt waiting, with its play count. -/
theorem test_release_leaves_other_queues :
    let s := withClip (sounding .connected .prompt .priming (PromptPlayer.free 0)) { prompt with plays := 2 }
    let full := { s with whisper := { s.whisper with players := Table.fill 16 { PromptPlayer.free 0 with assigned := some 3 } } }
    after (.release .cp0 3) (full.setQueue 4 [entry .prompt .waiting])
      (fun t => t.queue 3 = [] && (t.queue 4).length = 1 && (t.clip 5).plays = 1 && (t.player 0).assigned = some 4) = true := by
  decide +kernel

theorem test_close_position_files_in_order :
    let s := ((withClip opened { prompt with plays := 1 }).setQueue 3 [entry .prompt .waiting]).setTap 0
      (some ⟨4, 3, .coach, 16384, .cp0⟩)
    after (.closePosition .cp0 3) (s.setPos 3 { idle with offer := true })
      (fun t => (t.eventsOf .cp0).store.map (fun r => (r.kind, r.detail)) = [(.promptFlushed, 0x2005), (.tapDropped, 0x0210)]
        && (t.eventsOf .cp1).store.map Record.kind = [.handoverOffer]) = true := by decide +kernel

theorem test_witness_Connect :
    let s := withClip opened prompt
    s.takes .cp0 ∧ number? 64 3 = some 3 ∧ number? 64 63 = some 63 ∧ (s.pos 3).state = .idle
    ∧ (s.pos 3).owner = some .cp0 ∧ s.highway.trunk.cell 63 = none
    ∧ s.namedStopped none = false ∧ (s.setStream 2 (playing .ended .exhausted)).namedStopped (some 2) = false
    ∧ number? 16 2 = some 2 ∧ (s.queue 3).length < 4 ∧ s.arbiter.pendingOps.cell .cp0 = none
    ∧ ((s.clip (clipNumber 5)).check .cp0 .play none).found = false ∧ (s.clip (clipNumber 5)).writeBusy = 0
    ∧ (s.setQueue 3 [entry .prompt .waiting]).queue 3 ≠ []
    ∧ (s.setArbiter { s.arbiter with bus := some .scrub }).arbiter.bus ≠ none :=
  ⟨⟨rfl, rfl, rfl⟩, by decide +kernel⟩

theorem test_connect_drops_its_tap_and_notes_its_prompt :
    after (.connect .cp0 3 9 (some ⟨5, 32768⟩) none) ((withClip opened prompt).setTap 2 (some ⟨3, 4, .coach, 16384, .cp0⟩))
      (fun t => (t.eventsOf .cp0).store.map (fun r => (r.kind, r.object, r.detail))
          = [(.tapDropped, 3, 18), (.clipPlayed, 5, 256)] && (t.tap 2).isNone && (t.player 0).assigned = some 3) = true := by
  decide +kernel

theorem test_witness_HoldAndRetrieve :
    ((withRecord talking).takes .cp0 ∧ number? 64 3 = some 3 ∧ ((withRecord talking).pos 3).owner = some .cp0
      ∧ ((withRecord talking).pos 3).state = .connected ∧ (withRecord talking).namedStopped none = false)
    ∧ ((withRecord { talking with state := .announce }).pos 3).state = .announce
    ∧ ∀ pending, ((withRecord { talking with state := .held, announcePending := pending }).pos 3).state = .held
      ∧ ((withRecord { talking with state := .held, announcePending := pending }).pos 3).announcePending = pending :=
  ⟨⟨withRecord_takes talking .cp0, by decide +kernel⟩, by decide +kernel⟩

theorem test_witness_Release : (withRecord talking).takes .cp0
    ∧ (withRecord talking).arbiter.pendingOps.cell .cp0 = none
    ∧ ((withRecord talking).pos 3).state.inCall = true ∧ ((withRecord talking).pos 3).owner = some .cp0 :=
  ⟨withRecord_takes talking .cp0, by decide +kernel⟩

theorem test_witness_SetPosition : opened.takes .cp0 ∧ number? 64 3 = some 3 ∧ (opened.pos 3).state ≠ .closed
    ∧ (opened.pos 3).owner = some .cp0 ∧ ecMode? 2 = some .bypass := ⟨opened_takes .cp0, by decide +kernel⟩

theorem test_witness_SetTail : opened.takes .cp0 ∧ number? 64 3 = some 3 ∧ (opened.pos 3).state = .idle
    ∧ (opened.pos 3).owner = some .cp0 ∧ (4#8).toNat - (opened.pos 3).tail ≤ opened.echo.free.length
    ∧ (opened.pos 3).tail = (2#8).toNat ∧ (1#8).toNat < (opened.pos 3).tail ∧ (opened.pos 3).tail < (4#8).toNat :=
  ⟨opened_takes .cp0, by decide +kernel⟩

theorem test_witness_OffersAndAcceptance :
    ((withRecord idle).takes .cp0 ∧ (withRecord { idle with offer := true }).takes .cp0
      ∧ (withRecord { idle with offer := true }).takes .cp1)
    ∧ ((withRecord idle).pos 3).state ≠ .closed ∧ ((withRecord idle).pos 3).offer = false
    ∧ (withRecord idle).enabled .cp1 = true ∧ ((withRecord { idle with offer := true }).pos 3).offer = true
    ∧ ((withRecord { idle with offer := true }).pos 3).owner = some (Port.other .cp1) :=
  ⟨⟨withRecord_takes _ _, withRecord_takes _ _, withRecord_takes _ _⟩, by decide +kernel⟩

theorem test_witness_ReadingRequests : running.takes .cp1 ∧ number? 64 63 = some 63 := ⟨running_takes .cp1, by decide⟩

theorem test_witness_StatisticsRequests : opened.takes .cp0 ∧ (opened.pos 3).state ≠ .closed
    ∧ (opened.pos 3).owner = some .cp0 ∧ number? 16 2 = some 2
    ∧ ((opened.setStream 2 (playing .running .undecided)).stream 2).state ≠ .stopped
    ∧ ((opened.setStream 2 (playing .running .undecided)).stream 2).owner = some .cp0
    ∧ ((opened.setStream 2 (playing .running .undecided)).stream 2).current.isSome = true :=
  ⟨opened_takes .cp0, by decide +kernel⟩

theorem test_witness_WriteProfile : running.takes .cp0 ∧ number? 4 3 = some 3 := ⟨running_takes .cp0, by decide⟩

theorem test_witness_AddAndRemoveTap :
    (let s := opened.setPos 4 { idle with agentSlot := some 4 };
      s.takes .cp0 ∧ number? 64 4 = some 4 ∧ tapKind? 1 = some .coach ∧ (s.pos 4).state = .idle
      ∧ (s.pos 4).owner = some .cp0 ∧ (s.pos 3).state ≠ .closed ∧ s.listenerTap 4 = none
      ∧ (s.tapsInUse.filter fun x => x.2.target = 3).length < 3 ∧ s.coachTap 3 = none ∧ s.tap 0 = none
      ∧ ∀ v, v < (0 : Fin 16) → (s.tap v).isSome = true)
    ∧ let s := opened.setTap 15 (some { tapOn3 .monitor with owner := .cp1 })
      s.takes .cp1 ∧ s.takes .cp0 ∧ number? 16 15 = some 15 ∧ (s.tap 15).isSome = true
      ∧ (s.pos 3).owner = some .cp0 :=
  ⟨⟨⟨rfl, rfl, rfl⟩, by decide +kernel⟩, ⟨rfl, rfl, rfl⟩, ⟨rfl, rfl, rfl⟩, by decide +kernel⟩

theorem test_witness_ClipDescriptors :
    let s := withClip running prompt
    s.takes .cp0 ∧ key? 4 = some .writeNote ∧ (s.clip 5).defined = true ∧ (s.clip 5).owner = some .cp0
    ∧ (s.clip 5).plays = 0 ∧ (s.clip 5).writeBusy = 0 ∧ (s.clip 6).defined = false ∧ 14 + 4096 ≤ s.pageCount
    ∧ (∀ d, d ≠ 6 → (s.clip d).defined = true → ∀ page, 14 ≤ page → page < 14 + 4096 →
        ¬((s.clip d).base ≤ page ∧ page < (s.clip d).base + (s.clip d).length))
    ∧ (∀ d, d ≠ 6 → (s.clip d).defined = true → 1 ≤ (s.clip d).length)
    ∧ (s.overlaps 6 13 1 = true ∧ s.overlaps 6 14 1 = false ∧ s.overlaps 5 10 4 = false) := by
  have only : ∀ d, ((withClip running prompt).clip d).defined = true → d = 5 := by decide +kernel
  refine ⟨⟨rfl, rfl, rfl⟩, by decide, by decide +kernel, by decide +kernel, by decide +kernel, by decide +kernel,
    by decide +kernel, by decide +kernel, fun d _ h page low _ meets => ?_, fun d _ h => ?_, by decide +kernel⟩
  · have hd := only d h
    subst hd
    have : ((withClip running prompt).clip 5).base + ((withClip running prompt).clip 5).length = 14 := by decide +kernel
    omega
  · have hd := only d h
    subst hd
    decide +kernel

theorem test_witness_ReferenceFaults :
    (Clip.freeContents.defined = false ∧ prompt.defined = true ∧ (prompt.check .cp0 .write (some 4)).found = true
      ∧ (prompt.check .cp0 .write (some 4)).primary = 2)
    ∧ (running.fault .cp0).record = none
    ∧ running.takes .cp0
    ∧ ((running.recordFault .cp0 ⟨true, false, false, false⟩ 5 none Code.whisper).fault .cp0).record ≠ none
    ∧ (running.recordFault .cp0 ⟨true, false, false, false⟩ 5 none Code.whisper).takes .cp0 :=
  ⟨by decide +kernel, by decide +kernel, running_takes .cp0, by decide +kernel, ⟨rfl, rfl, rfl⟩⟩

theorem test_witness_PageOperationsAdmitted :
    (withClip running { prompt with keys := ⟨.write, .playNote⟩ }).takes .cp0
    ∧ (({ prompt with keys := ⟨.write, .playNote⟩ } : Clip).check .cp0 .write (some 3)).found = false
    ∧ prompt.plays = 0 ∧ (prompt.check .cp1 .read (some 3)).found = false
    ∧ (running.setArbiter { running.arbiter with bus := some .scrub }).arbiter.bus.isSome = true :=
  ⟨⟨rfl, rfl, rfl⟩, by decide +kernel⟩

theorem test_witness_StreamRequests :
    let s := withClip running prompt
    s.takes .cp0 ∧ number? 16 2 = some 2 ∧ playlistLegal oneItem = true
    ∧ s.faultyItem .cp0 (storedPlaylist oneItem).items = none ∧ s.itemsBusy (storedPlaylist oneItem).items = false
    ∧ (s.stream 2).state = .stopped
    ∧ (playing .running .undecided).cursor ≠ .exhausted ∧ (playing .running .exhausted).cursor = .exhausted
    ∧ (playing .ended .exhausted).state = .ended ∧ (playing .running .undecided).owner = some .cp0
    ∧ (playing .running .undecided).listeners = 0 := ⟨⟨rfl, rfl, rfl⟩, by decide +kernel⟩

/-- Two loops over a list of three items, the inner from item 1 to item `bottom`, the outer over all of it. -/
def looped (bottom : Byte) : PlaylistArg :=
  ⟨[⟨5, 40000⟩, ⟨5, 1⟩, ⟨6, 2⟩], ⟨true, 1, bottom, 0⟩, ⟨true, 0, 2, 0⟩⟩

theorem test_witness_StreamRequests_playlists :
    playlistLegal (looped 2) = true ∧ playlistLegal (looped 3) = false ∧ playlistLegal (looped 0) = false
    ∧ storedPlaylist (looped 2) = ⟨[⟨5, 32768⟩, ⟨5, 1⟩, ⟨6, 2⟩], ⟨true, 1, 2, 1⟩, ⟨true, 0, 2, 0⟩⟩
    ∧ (playing .running .exhausted).lastItem = 0 ∧ (storedPlaylist oneItem).items.length = 1 := by decide +kernel

theorem test_a_playlist_notes_each_clip_once :
    let t := (withClip running prompt).noteItems .cp1 (storedPlaylist (looped 2)).items
    (t.clip 5).accessed = true ∧ (t.clip 6).accessed = false
      ∧ (t.eventsOf .cp0).store.map (fun r => (r.kind, r.object, r.detail)) = [(.clipPlayed, 5, 1)] := by decide +kernel

theorem test_witness_StreamRequests_fetches :
    let x := playing .running (.page 0 3)
    x.state = .running ∧ x.next = .empty ∧ x.cursor = .page 0 3 ∧ x.current = some (storedPlaylist oneItem)
    ∧ (storedPlaylist oneItem).items[0]? = some ⟨5, 32768⟩ ∧ (playing .ended (.page 0 3)).state ≠ .running
    ∧ ((withStream x).streamRequest 2).arbiter.bus = some (.fetch ⟨.stream 2, 0, 13, 3⟩)
    ∧ (((withStream x).streamRequest 2).stream 2).cursor = .undecided := by decide +kernel

/-- A playlist of two items whose two loops both end at item 1, with the counts given. -/
def twoLoops (inner outer : Nat) : Playlist := ⟨[⟨5, 0⟩, ⟨5, 0⟩], ⟨true, 1, 1, inner⟩, ⟨true, 0, 1, outer⟩⟩

theorem test_witness_ItemEndDecision :
    let x : Stream := { playing .running .undecided with current := some (twoLoops 2 2), inner := 2, outer := 2 }
    ((running.setStream 2 x).stream 2).current = some (twoLoops 2 2)
    ∧ ({ x with staged := some (twoLoops 1 0) } : Stream).staged = some (twoLoops 1 0)
    ∧ x.staged = none ∧ 1 < x.inner ∧ ¬ 1 < ({ x with inner := 1 } : Stream).inner ∧ 1 < x.outer
    ∧ (twoLoops 2 0).outer.count = 0 ∧ (twoLoops 2 2).outer.count ≠ 0
    ∧ ({ x with next := .awaited 1 } : Stream).next = .awaited 1 ∧ (twoLoops 2 2).items[1]? = some ⟨5, 0⟩ := by
  decide +kernel

theorem test_witness_WhisperRequests :
    let s := withClip opened prompt
    s.takes .cp1 ∧ number? 64 3 = some 3 ∧ (s.pos 3).state ≠ .closed ∧ (s.queue 3).length < 4
    ∧ ((s.clip (clipNumber 5)).check .cp1 .play none).found = false ∧ (s.clip (clipNumber 5)).writeBusy = 0
    ∧ s.arbiter.pendingOps.cell .cp1 = none
    ∧ ((s.setQueue 3 [entry .prompt .waiting]).queue 3).all (fun e => e.kind ≠ .announce) = true :=
  ⟨⟨rfl, rfl, rfl⟩, by decide +kernel⟩

theorem test_witness_WhisperRequests_cancels :
    let s := sounding .announce .announce .priming (PromptPlayer.free 0)
    s.takes .cp0 ∧ (s.pos 3).state = .announce ∧ (s.pos 3).owner = some .cp0
    ∧ s.queue 3 = [] ++ entry .announce .priming :: [] ∧ (entry .announce .priming).kind = .announce
    ∧ (entry .announce .priming).phase ≠ .waiting ∧ s.playerOf 3 = some 0
    ∧ ((sounding .held .announce .waiting (PromptPlayer.free 0)).pos 3).state = .held
    ∧ [entry .announce .waiting].all (fun e => e.phase = .waiting) = true :=
  ⟨⟨rfl, rfl, rfl⟩, by decide +kernel⟩

theorem test_a_cancelled_announcement_connects :
    after (.cancelWhisper .cp0 3) (sounding .announce .announce .priming (PromptPlayer.free 0))
      (fun t => (t.pos 3).state = .connected && t.queue 3 = [] && (t.player 0).generation = 1 && (t.clip 5).plays = 0
        && (t.eventsOf .cp0).store.map Record.kind = [.promptFlushed, .announceDone]) = true := by decide +kernel

theorem test_witness_FlushesAndAssignment :
    FlushCause.close ≠ .cancel ∧ ((withRecord { talking with state := .announce }).pos 3).state = .announce
    ∧ ((withRecord { talking with state := .held }).pos 3).state = .held
    ∧ (opened.setQueue 3 [entry .prompt .waiting]).oldestHead = some 3 ∧ opened.oldestHead = none
    ∧ (opened.setQueue 3 [entry .prompt .waiting]).freePlayer = some 0
    ∧ (sounding .connected .prompt .priming (PromptPlayer.free 0)).playerOf 3 = some 0
    ∧ (entry .prompt .priming).phase ≠ .waiting ∧ opened.playerOf 3 = none
    ∧ ((sounding .connected .prompt .priming { PromptPlayer.free 0 with cursor := .page 3 }).player 0).cursor = .page 3
    ∧ (running.player 0).assigned = none := by decide +kernel

theorem test_witness_FlushesAndAssignment_ages :
    let s := opened.setQueue 3 [{ entry .prompt .waiting with arrival := 0xFFFFFFFF }]
    ({ s with whisper := { s.whisper with arrival := 1 } } : State).waitingAge 3 = some 2 ∧ opened.waitingAge 3 = none
      ∧ (opened.setQueue 3 [entry .prompt .priming]).waitingAge 3 = none := by decide +kernel

theorem test_witness_EventRequests :
    (running.setEvents .cp1 fullStore).takes .cp1
    ∧ fullStore.store = [⟨.clipPlayed, 6, 10, 0, 0⟩, ⟨.clipPlayed, 6, 11, 0, 0⟩] ++ ⟨.promptDone, 3, 0, 0, 0⟩
        :: List.replicate 29 ⟨.promptDone, 3, 0, 0, 0⟩
    ∧ fullStore.masked 3 = false ∧ (∀ y ∈ fullStore.store, fullStore.masked y.cls = false → 3 ≤ y.cls)
    ∧ (∀ y ∈ ({ fullStore with mask := 0x48 } : EventState).store, ({ fullStore with mask := 0x48 } : EventState).masked y.cls = true)
    ∧ 1 ≤ (21#8).toNat ∧ (21#8).toNat = (20 : Fin 21).val + 1 ∧ number? 8 7 = some 7 :=
  ⟨⟨rfl, rfl, rfl⟩, by decide +kernel⟩

theorem test_witness_EventStore :
    EventState.atReset.store.length < 32 ∧ fullStore.store.length = 32 ∧ fullStore.masked 6 = true
    ∧ (∀ y ∈ fullStore.store, ({ fullStore with mask := 0 } : EventState).masked y.cls = false)
    ∧ running.enabled .cp1 = true ∧ State.reset.enabled .cp1 = false
    ∧ EventKind.code .clipWritten = (20 : Fin 21).val + 1 := by decide +kernel

theorem test_witness_AttentionAndReadPeriods :
    running.takes .cp1 ∧ running.attn .cp1 = false ∧ (running.setEvents .cp1 fullStore).attn .cp1 = true
    ∧ (running.port .cp1).lastReply = none ∧ ((running.replied .cp1 1 .ok [7]).port .cp1).lastReply = some ⟨.ok, 1, [7]⟩
    ∧ (running.replied .cp1 1 .ok [7]).readPeriod .cp1 6 = [0, 1, 0, 1, 7, 0xFF]
    ∧ (running.replied .cp1 1 .ok [7]).sdoBytes .cp1 0xC3 4 = [0xFF, 0, 1, 0]
    ∧ (running.replied .cp1 1 .ok [7]).sdoBytes .cp1 0x48 2 = [0xFF, 0xFF]
    ∧ (List.range 32).map ((running.replied .cp1 1 .ok [7]).sdo .cp1 (some 0xC3))
      = (bitsOfBytes [0xFF, 0, 1, 0]).map some ∧ 31 < 8 * 4 :=
  ⟨running_takes .cp1, by decide +kernel⟩

theorem test_witness_ResetPort :
    let s := (withRecord idle).setPos 4 { idle with agentSlot := some 4, offer := true }
    s.takes .cp0 ∧ s.arbiter.pendingOps.cell .cp0 = none ∧ (s.pos 3).owner = some .cp0 ∧ (s.pos 3).offer = false
    ∧ (s.pos 4).owner = some .cp0 ∧ (s.pos 4).offer = true
    ∧ ((s.setStream 2 (playing .running .undecided)).stream 2).owner = some .cp0 ∧ s.callsSound
    ∧ (s.setArbiter { s.arbiter with bus := some .scrub }).arbiter.bus ≠ none :=
  ⟨⟨rfl, rfl, rfl⟩, by unfold State.callsSound State.callSound; decide +kernel⟩

/-- A part whose players are sound, and in which a port reset frees one. -/
theorem test_witness_ResetPort_players :
    let s := sounding .connected .prompt .priming (PromptPlayer.free 0)
    s.playersSound ∧ (s.player 0).assigned = some 3 ∧ (s.pos 3).owner = some .cp0 ∧ (s.pos 3).offer = false
      ∧ (s.queue 3).any (fun e => e.phase ≠ .waiting) = true := by
  intro s
  have queues : ∀ p, p = 3 ∧ s.queue p = [entry .prompt .priming] ∨ s.queue p = [] := by decide +kernel
  have players : ∀ w p, (s.player w).assigned = some p → w = 0 ∧ p = 3 := by decide +kernel
  have heads : ∀ p e, (s.queue p).head? = some e → p = 3 ∧ e = entry .prompt .priming := fun p e h => by
    rcases queues p with ⟨hp, hq⟩ | hq <;> rw [hq] at h <;> cases h
    exact ⟨hp, rfl⟩
  refine ⟨⟨fun w p h => ?_, fun p e h _ => ⟨0, ?_⟩, fun v w p hv hw => ?_, fun p e h => ?_, fun w p e _ h => ?_⟩,
    by decide +kernel⟩
  · rw [(players w p h).2]
    exact ⟨entry .prompt .priming, by decide +kernel⟩
  · rw [(heads p e h).1]
    decide +kernel
  · rw [(players v p hv).1, (players w p hw).1]
  · rcases queues p with ⟨_, hq⟩ | hq <;> rw [hq] at h <;> cases h
  · rw [(heads p e h).2]
    decide

theorem test_reset_port_closes_a_call :
    let s := (inCall { talking with state := .held, stream := some 2 } 0xFF 0xFF).setCoachDuck 3 5
    let t := s.setSuppressor 3 { s.suppressor 3 with index := 7, speech := true }
    after (.resetPort .cp0) ((t.setCanceller 3 { t.canceller 3 with power := 9, hangover := 2 }).setStream 2
        { playing .running .undecided with owner := some .cp1, listeners := 2 })
      (fun u => u.coachDuck 3 = 0 && (u.suppressor 3).index = 0 && !(u.suppressor 3).speech && (u.canceller 3).power = 0
        && (u.canceller 3).hangover = 0 && u.echo.free.length = 128 && (u.highway.trunk.cell 3).isNone
        && (u.highway.agent.cell 3).isNone && (u.stream 2).listeners = 1
        && (u.eventsOf .cp1).store.map Record.kind = [.peerReset]) = true := by decide +kernel

theorem test_reset_port_files_in_order :
    let s := (withClip (withRecord idle) prompt).setPos 4
      { idle with state := .held, agentSlot := some 4, trunkSlot := some 4, offer := true, stream := some 2 }
    after (.resetPort .cp0) (s.setStream 2 { playing .running .undecided with listeners := 1 })
      (fun t => (t.eventsOf .cp1).store.map (fun r => (r.kind, r.object, r.detail))
          = [(.positionInherited, 4, 0), (.streamLost, 4, 2), (.peerReset, 0, 0)]
        && t.pos 4 = { s.pos 4 with owner := some .cp1, offer := false, stream := none }
        && t.pos 3 = Position.closedContents) = true := by decide +kernel

theorem test_witness_GrantAndRefresh :
    (running.phase = .running ∧ State.reset.phase ≠ .running ∧ contended.arbiter.bus = none ∧ contended.arbiter.owed < 8
      ∧ contended.arbiter.queue ≠ [] ∧ 20 ∉ contended.arbiter.badPages
      ∧ 20 ∈ ({ contended.arbiter with badPages := [20] } : Arbiter).badPages
      ∧ running.arbiter.queue = [] ∧ running.arbiter.pendingOps = ⟨none, none⟩ ∧ running.arbiter.owed = 0)
    ∧ contended.arbiter.pendingOps.cell .cp0 = some (.write 5 0 10 (Table.fill 256 0) false)
    ∧ contended.startUp.fairness = .alternate ∧ contended.arbiter.alternation = Port.other .cp0
    ∧ ((running.stream 2).generation = 0 ∧ (running.stream 2).generation ≠ 1 ∧ (running.player 0).generation = 0
      ∧ (running.player 0).generation ≠ 1 ∧ (running.player 0).next ≠ .awaited)
    ∧ let s := sounding .connected .prompt .priming { PromptPlayer.free 0 with next := .awaited }
      (s.player 0).generation = 0 ∧ (s.player 0).next = .awaited ∧ (s.player 0).assigned = some 3
      ∧ s.queue 3 = [entry .prompt .priming] :=
  ⟨by decide, rfl, rfl, rfl, by decide +kernel⟩

/-- A part with an operation on the bus and CP0's request in flight. -/
def onBus (op : BusOp) : State :=
  (running.setPort .cp0 ⟨false, some Code.writePage, none, 0⟩).setArbiter { running.arbiter with bus := some op }

theorem test_witness_BusCompletions :
    (let f : Fetch := ⟨.stream 2, 0, 16383, 0⟩;
      (onBus (.fetch f)).arbiter.bus = some (.fetch f) ∧ f.page < (onBus (.fetch f)).pageCount)
    ∧ (let s := onBus (.port .cp0 (.write 5 0 0 (Table.fill 256 7) false));
      0 < s.pageCount ∧ (s.port .cp0).inFlight = some Code.writePage ∧ s.arbiter.pendingOps.cell .cp0 = none)
    ∧ (onBus .scrub).arbiter.scrubPointer < (onBus .scrub).pageCount
    ∧ (onBus .scrub).arbiter.scrubPointer ∉ (onBus .scrub).arbiter.badPages
    ∧ ((onBus .scrub).struck 0 [⟨3, .uncorrectable⟩]).pageBad 0 = true
    ∧ ((onBus .scrub).struck 0 [⟨3, .correctable⟩]).pageBad 0 = false := by decide +kernel

theorem test_a_scrub_step_frees_the_bus :
    after (.scrubStepCompletion []) (onBus .scrub)
      (fun t => t.arbiter.bus.isNone && t.arbiter.scrubPointer = 1) = true := by decide +kernel

/-- The uncorrectable word of page 100 that a fetch for stream 2 finds, with `n` other pages listed. -/
def uncorrectable (n : Nat) : State :=
  let s := onBus (.fetch ⟨.stream 2, 0, 100, 0⟩)
  (s.setArbiter { s.arbiter with badPages := List.range n }).struck 100 [⟨3, .uncorrectable⟩]

theorem test_witness_BusCompletions_reports :
    (uncorrectable 15).pageBad 100 = true ∧ 100 ∉ (uncorrectable 15).arbiter.badPages
    ∧ (uncorrectable 15).arbiter.badPages.length < 16 ∧ (uncorrectable 16).arbiter.badPages.length = 16
    ∧ (onBus .scrub).pageBad 100 = false
    ∧ ((onBus (.port .cp0 (.read 5 0 100))).setArbiter { (onBus .scrub).arbiter with scrubPointer := 16383 }).pageCount
        = 16384
    ∧ (((uncorrectable 16).counted 100 258).eventsOf .cp1).store.map (fun r => (r.kind, r.object, r.detail))
      = [(.memUncorrectable, 100, 258), (.badListFull, 100, 16)] := by decide +kernel

/-! The invariants hold at reset (the statement InvariantsHoldAtReset), and a part at reset steps: -/

theorem test_witness_of_the_invariants_kept : ∃ t, step State.reset = .next t := ⟨_, rfl⟩

theorem test_witness_BookkeepingStaysInBounds : running.fetchesSound ∧ noneComesRound running running :=
  ⟨⟨fun _ => Nat.zero_le 1, fun _ h => (nomatch h), fun _ h => (nomatch h), by decide +kernel, by decide +kernel⟩,
    fun _ h => (nomatch h)⟩

/-- A state that queues and plays nothing counts no plays. -/
theorem playsCounted_of_idle {s : State} (empty : ∀ p, s.queue p = []) (current : ∀ k, (s.stream k).current = none)
    (staged : ∀ k, (s.stream k).staged = none) (stopped : ∀ k, (s.stream k).state = .stopped)
    (unplayed : ∀ c, (s.clip c).plays = 0) : s.playsCounted := by
  refine ⟨fun c => ?_, fun c _ => unplayed c, fun k _ => ⟨current k, staged k⟩, fun k h => ?_, fun k _ => staged k⟩
  · rw [unplayed c]
    unfold State.references
    simp [empty, current, staged, namings]
  · rw [stopped k] at h
    exact nomatch h

theorem running_playsCounted : running.playsCounted :=
  playsCounted_of_idle (by decide +kernel) (by decide +kernel) (by decide +kernel) (by decide +kernel)
    (by decide +kernel)

theorem test_witness_ClipsStaySound : running.clipsSound ∧ running.playsCounted ∧ running.playersSound ∧ running.scrubSound
    ∧ running.cursorsSound ∧ running.pagesSound := by
  have free : ∀ c, (running.clip c).defined = false := by decide +kernel
  have unassigned : ∀ w, (running.player w).assigned = none := by decide +kernel
  have empty : ∀ p, running.queue p = [] := by decide +kernel
  have stopped : ∀ k, (running.stream k).current = none := by decide +kernel
  refine ⟨⟨fun c _ _ h => ?_, fun c h => ?_, fun _ => free⟩, running_playsCounted, ⟨fun w p h => ?_, fun p e h => ?_, fun v w p h => ?_,
    fun p e h => ?_, fun w p e _ h => ?_⟩, ⟨by decide, fun _ => by decide⟩, ⟨fun k l i j x h => ?_, fun w p e i h => ?_⟩,
    running_pagesSound⟩
  · rw [free c] at h; exact nomatch h
  · rw [free c] at h; exact nomatch h
  · rw [unassigned w] at h; exact nomatch h
  · rw [empty p] at h; exact nomatch h
  · rw [unassigned v] at h; exact nomatch h
  · rw [empty p] at h; exact nomatch h
  · rw [empty p] at h; exact nomatch h
  · rw [stopped k] at h; exact nomatch h
  · rw [unassigned w] at h; exact nomatch h

theorem running_canceller_legal : ∀ p, (running.canceller p).legal := by
  have zeroed : running.echo.positions = Table.fill 64 (Canceller.zeroed []) := rfl
  intro p
  unfold State.canceller
  rw [zeroed, Table.cell_fill]
  refine ⟨fun i => ?_, Nat.zero_le _, Nat.zero_le _, Nat.zero_le _, Nat.zero_le _⟩
  show ((Table.fill 512 (0 : Int)).cell i).natAbs ≤ 32256
  rw [Table.cell_fill]
  decide

theorem running_coefficients_legal : ∀ g i, -32768 ≤ (running.echo.coefficients.cell g).cell i
    ∧ (running.echo.coefficients.cell g).cell i ≤ 32767 := by
  have zero : running.echo.coefficients = Table.fill 128 (Table.fill 128 0) := rfl
  rw [zero]
  intro g i
  rw [Table.cell_fill, Table.cell_fill]
  exact ⟨by decide, by decide⟩

theorem running_suppressor_legal : ∀ p, (running.suppressor p).legal := by unfold Suppressor.legal; decide +kernel

theorem test_witness_SegmentsStaySound : running.segmentsSound := by
  have held : ∀ p, running.segments p = [] := by decide +kernel
  have free : ∀ g, g ∈ running.echo.free := by decide +kernel
  have closed : ∀ p, (running.pos p).state = .closed := by decide +kernel
  refine ⟨by decide +kernel, fun p => ?_, fun p => ?_, fun p q _ => ?_, fun g => Or.inl (free g),
    fun p h => absurd (closed p) h, fun p _ => held p⟩
  all_goals rw [held p]; simp

theorem test_witness_ParametersStayLegal :
    running.parametersLegal ∧ running.segmentsSound ∧ running.blocksLegal ∧ running.powerSound := by
  have profiles : ∀ n, (running.profile n).legal := by unfold Profile.legal; decide +kernel
  have ducked : ∀ p, running.coachDuck p ≤ 8 := by decide +kernel
  have closed : ∀ p, (running.pos p).state.inCall = false := by decide +kernel
  refine ⟨?_, test_witness_SegmentsStaySound,
    ⟨profiles, fun p => ⟨running_suppressor_legal p, running_canceller_legal p, ducked p⟩, running_coefficients_legal⟩,
    fun p h => ?_⟩
  · unfold State.parametersLegal Position.legal; decide +kernel
  · rw [closed p] at h; exact nomatch h

theorem test_witness_CallsStaySound : running.callsSound ∧ running.listenersCounted ∧ running.stoppedUnheard := by
  unfold State.callsSound State.callSound State.listenersCounted State.stoppedUnheard; decide +kernel

end Sys2Proof.Tests
end

section
/-! PROOFS. The gain rule (R1). -/

namespace Sys2Proof.Machine

/-! ## Stored gains -/

theorem clampGain_le (g : Nat) : clampGain g ≤ 32768 := Nat.min_le_right g 32768

theorem clampGain_of_le {g : Nat} (h : g ≤ 32768) : clampGain g = g := Nat.min_eq_left h

theorem clampGain_of_lt {g : Nat} (h : 32768 < g) : clampGain g = 32768 := Nat.min_eq_right h.le

/-! ## Gains applied to samples -/

theorem applyGain_unity (x : Int) : applyGain 32768 x = x := by
  rw [applyGain_eq]
  omega

theorem applyGain_mono (g : Nat) {x y : Int} (h : x ≤ y) : applyGain g x ≤ applyGain g y := by
  have product : x * (g : Int) ≤ y * g := mul_le_mul_of_nonneg_right h (Int.natCast_nonneg g)
  rw [applyGain_eq, applyGain_eq]
  exact Int.ediv_le_ediv (by decide) (Int.add_le_add_right product 16384)

theorem applyGain_lowest {g : Nat} (h : g ≤ 32768) : -32768 ≤ applyGain g (-32768) := by
  rw [applyGain_eq]
  omega

theorem applyGain_highest {g : Nat} (h : g ≤ 32768) : applyGain g 32767 ≤ 32767 := by
  rw [applyGain_eq]
  omega

/-- Applying a gain is monotone in the sample, so the two ends of the 16-bit range bound every result. -/
theorem applyGain_range {g : Nat} {x : Int} (h : g ≤ 32768) (low : -32768 ≤ x) (high : x ≤ 32767) :
    -32768 ≤ applyGain g x ∧ applyGain g x ≤ 32767 :=
  ⟨(applyGain_lowest h).trans (applyGain_mono g low), (applyGain_mono g high).trans (applyGain_highest h)⟩

/-- Settles O14: the clauses of R1, each a lemma above or the division form of `applyGain`. -/
theorem gainRule : Obligations.GainRule :=
  ⟨fun g => ⟨clampGain_le g, clampGain_of_le, clampGain_of_lt⟩, applyGain_eq, applyGain_unity,
    fun _ _ => applyGain_range⟩

end Sys2Proof.Machine
end

section
/-! PROOFS. The pieces each command may change (R22 to R45, R97 to R99, R108 to R122, R142 to R145, R158 to R183): one lemma for
each effect of an accepted request, and then every command. -/

namespace Sys2Proof.Machine

/-! ## The shared forms of a request -/

/-- A predicate of the state that does not read the ports holds after a request when the request's body keeps it. -/
theorem State.request_keeps {P : State → Prop} {s : State} {p : Port} {code : Byte} {body : State → State} (start : P s)
    (ports : ∀ x, P { s with ports := x }) (accepted : s.takes p → P (body (s.taken p code))) :
    P (s.request p code body) := by
  rcases s.request_cases p code body with e | e | e | e | ⟨taken, e⟩ <;> rw [e]
  · exact start
  · exact ports _
  · exact ports _
  · exact ports _
  · exact accepted taken

theorem State.checked_keeps {P : State → Prop} {s : State} {p : Port} {checks : List (Bool × Status)}
    {effect : State → State} (refused : ∀ status, P (s.refuse p status))
    (passed : firstRefusal checks = none → P (effect s)) : P (s.checked p checks effect) := by
  unfold State.checked
  cases h : firstRefusal checks with
  | none => exact passed h
  | some status => exact refused status

theorem State.withNumber_keeps {P : State → Prop} {n : Nat} {s : State} {p : Port} {b : Byte} {body : Fin n → State → State}
    (refused : ∀ status, P (s.refuse p status)) (found : ∀ i, P (body i s)) : P (s.withNumber p b body) := by
  unfold State.withNumber
  cases number? n b with
  | some i => exact found i
  | none => exact refused .badArg

theorem State.refuse_touches {parts : List Part} (ports : .ports ∈ parts) (s : State) (p : Port) (status : Status) :
    Touches parts s (s.refuse p status) :=
  (s.answer_touches p status []).mono (by simpa using ports)

theorem State.withNumber_touches {parts : List Part} (ports : .ports ∈ parts) {n : Nat} {s : State} {p : Port} {b : Byte}
    {body : Fin n → State → State} (found : ∀ i, Touches parts s (body i s)) : Touches parts s (s.withNumber p b body) :=
  State.withNumber_keeps (s.refuse_touches ports p) found

/-- An effect that ends with the reply. -/
theorem Touches.answered {parts : List Part} {s t : State} (h : Touches parts s t) (ports : .ports ∈ parts) (p : Port)
    (status : Status) (payload : List Byte) : Touches parts s (t.answer p status payload) :=
  h.trans ((t.answer_touches p status payload).mono (by simpa using ports))

theorem touches_of_next {parts : List Part} {s t u : State}
    (h : (Host.Outcome.next u : Host.Outcome State Fault Refusal) = .next t) (k : Touches parts s u) : Touches parts s t := by
  cases h; exact k

/-! ## Positions (R24 to R45) -/

theorem State.setSuppressor_touches (s : State) (p : Fin 64) (x : Suppressor) :
    Touches [.suppress] s (s.setSuppressor p x) := Touches.of_suppress s _

theorem State.setFirstFrame_touches (s : State) (p : Fin 64) : Touches [.suppress] s (s.setFirstFrame p) :=
  s.setSuppressor_touches p _

theorem State.setCanceller_touches (s : State) (p : Fin 64) (x : Canceller) : Touches [.echo] s (s.setCanceller p x) :=
  Touches.of_echo s _

theorem State.setCoachDuck_touches (s : State) (p : Fin 64) (n : Nat) : Touches [.mixer] s (s.setCoachDuck p n) :=
  Touches.of_mixer s _

theorem State.setEvents_touches (s : State) (p : Port) (x : EventState) : Touches [.events] s (s.setEvents p x) :=
  Touches.of_events s _

theorem State.setFault_touches (s : State) (p : Port) (x : FaultState) : Touches [.clipStore] s (s.setFault p x) :=
  Touches.of_clipStore s _

theorem State.setTap_touches (s : State) (t : Fin 16) (x : Option Tap) : Touches [.mixer] s (s.setTap t x) :=
  Touches.of_mixer s _

theorem State.setMemory_touches (s : State) (x : Memory) : Touches [.memory] s (s.setMemory x) := Touches.of_memory s _

theorem State.drawn_touches (s : State) (n : Nat) : Touches [.freeCount] s (s.drawn n) := by
  intro y hy; cases y <;> first | rfl | exact absurd (by simp) hy

theorem State.bindAgent_touches (s : State) (a p : Fin 64) : Touches [.highway] s (s.bindAgent a p) :=
  Touches.of_highway s _

theorem State.bindTrunk_touches (s : State) (t p : Fin 64) : Touches [.highway] s (s.bindTrunk t p) :=
  Touches.of_highway s _

/-- The pieces OPEN POSITION may change (R24). -/
def openParts : List Part := [.ports, .positions, .highway, .suppress, .echo, .mixer]

theorem State.openAccepted_touches (s : State) (port : Port) (p slot : Fin 64) (tail : Nat) (profile : Fin 4) :
    Touches openParts s (s.openAccepted port p slot tail profile) := by
  have record := (s.setPos_touches p (Position.opened port slot tail profile)).mono (b := openParts) (by decide)
  have cleared := record.trans ((State.setCanceller_touches _ p (Canceller.zeroed [])).mono (by decide))
  have segments := cleared.trans ((State.allocate_touches _ p tail).mono (by decide))
  have bound := segments.trans ((State.bindAgent_touches _ slot p).mono (by decide))
  have suppressor := fun x => bound.trans ((State.setSuppressor_touches _ p x).mono (by decide))
  exact ((suppressor _).trans ((State.setCoachDuck_touches _ p 0).mono (by decide))).answered (by decide) port _ _

/-- The pieces CONNECT may change (R27). -/
def connectParts : List Part := .positions :: .highway :: .suppress :: .echo :: .mixer :: grantParts

theorem State.connecting_touches (s : State) (p t : Fin 64) (state : PositionState) (stream : Option (Fin 16)) :
    Touches connectParts s (s.connecting p t state stream) := by
  have record := fun x => (s.setPos_touches p x).mono (b := connectParts) (by decide)
  have bound := fun x => (record x).trans ((State.bindTrunk_touches _ t p).mono (by decide))
  have cleared := fun x => (bound x).trans ((State.clearCanceller_touches _ p).mono (by decide))
  have untapped := fun x => (cleared x).trans ((State.dropListenerTaps_touches _ p).mono (by decide))
  have marked := fun x => (untapped x).trans ((State.setFirstFrame_touches _ p).mono (by decide))
  exact (marked _).trans ((State.addListener_touches _ stream).mono (by decide))

theorem State.connect_touches (s : State) (port : Port) (p t : Fin 64) (prompt : Option PromptArg)
    (stream : Option (Fin 16)) : Touches connectParts s (s.connect port p t prompt stream) := by
  cases prompt with
  | none => exact (s.connecting_touches p t .connected none).answered (by decide) port _ _
  | some x =>
    have accepted : Touches connectParts s (s.connectPrompt port p t (clipNumber x.clip) x.gain stream) :=
      ((s.connecting_touches p t .announce stream).trans
        ((State.queueEntry_touches _ p port _ _).mono (by decide))).answered (by decide) port _ _
    exact Touches.ite _ (s.refuse_touches (by decide) port .queueFull)
      (s.checkItems_touches (by decide) (by decide) port _ _ _ accepted)

theorem State.holdAccepted_touches (s : State) (port : Port) (p : Fin 64) (stream : Option (Fin 16)) :
    Touches [.ports, .positions, .streams] s (s.holdAccepted port p stream) :=
  ((((s.setPos_touches p _).mono (by decide)).trans ((State.dropListener_touches _ _).mono (by decide))).trans
    ((State.addListener_touches _ stream).mono (by decide))).answered (by decide) port _ _

theorem State.retrieveAccepted_touches (s : State) (port : Port) (p : Fin 64) :
    Touches [.ports, .positions, .streams] s (s.retrieveAccepted port p) := by
  have record := fun x => (s.setPos_touches p x).mono (b := [.ports, .positions, .streams]) (by decide)
  exact Touches.ite _ ((record _).answered (by decide) port _ _)
    (((record _).trans ((State.dropListener_touches _ _).mono (by decide))).answered (by decide) port _ _)

theorem State.setAccepted_touches (s : State) (port : Port) (p : Fin 64) (a : ParamsArg) (mode : Option EcMode) :
    Touches [.ports, .positions, .suppress] s (s.setAccepted port p a mode) :=
  (((s.setPos_touches p _).mono (by decide)).trans ((State.setSuppressor_touches _ p _).mono (by decide))).answered
    (by decide) port _ _

theorem State.tailAccepted_touches (s : State) (port : Port) (p : Fin 64) (tail : Nat) :
    Touches [.ports, .positions, .echo] s (s.tailAccepted port p tail) := by
  have segments : Touches [.ports, .positions, .echo] s (if (s.pos p).tail < tail then s.allocate p (tail - (s.pos p).tail)
      else if tail < (s.pos p).tail then s.keepSegments p tail else s) :=
    Touches.ite _ ((s.allocate_touches p _).mono (by decide))
      (Touches.ite _ ((s.keepSegments_touches p tail).mono (by decide)) (Touches.refl _ s))
  exact (segments.trans ((State.setPos_touches _ p _).mono (by decide))).answered (by decide) port _ _

theorem State.passTo_touches (s : State) (p : Fin 64) (port : Port) : Touches [.positions, .whisper] s (s.passTo p port) :=
  ((s.setPos_touches p _).mono (by decide)).trans ((State.setQueue_touches _ p _).mono (by decide))

theorem State.statsAccepted_touches (s : State) (port : Port) (p : Fin 64) (clear : Bool) :
    Touches [.ports, .positions] s (s.statsAccepted port p clear) :=
  (Touches.ite _ ((s.setPos_touches p _).mono (by decide)) (Touches.refl _ s)).answered (by decide) port _ _

theorem State.cancelAccepted_touches (s : State) (port : Port) (p : Fin 64) :
    Touches (.positions :: grantParts) s (s.cancelAccepted port p) :=
  (((s.flush_touches p .cancel _).mono (by decide)).trans
    ((State.assignPlayers_touches _).mono (by decide))).answered (by decide) port _ _

/-! ## Taps, streams and page operations (R97 to R99, R117, R119, R142, R143, R158) -/

theorem State.addTapAccepted_touches (s : State) (port : Port) (x : Tap) :
    Touches [.ports, .mixer, .events] s (s.addTapAccepted port x) := by
  unfold State.addTapAccepted
  cases s.freeTap with
  | none => exact Touches.refl _ s
  | some t =>
    have placed := (s.setTap_touches t (some x)).mono (b := [.ports, .mixer, .events]) (by decide)
    exact (Touches.ite _ (placed.trans ((State.file_touches _ _ _ _ _).mono (by decide))) placed).answered (by decide) port _ _

theorem State.removeTapAccepted_touches (s : State) (port : Port) (t : Fin 16) (x : Tap) :
    Touches [.ports, .mixer, .events] s (s.removeTapAccepted port t x) :=
  (Touches.ite _ ((s.setTap_touches t none).mono (by decide)) ((s.dropTap_touches t x _).mono (by decide))).answered
    (by decide) port _ _

theorem State.acceptItems_touches (s : State) (p : Port) (items : List Item) :
    Touches [.clipStore, .events] s (s.acceptItems p items) :=
  ((s.addPlays_touches items).mono (by decide)).trans (State.noteItems_touches _ p items)

theorem State.startAccepted_touches (s : State) (p : Port) (k : Fin 16) (l : Playlist) :
    Touches grantParts s (s.startAccepted p k l) :=
  ((((s.acceptItems_touches p l.items).mono (by decide)).trans ((State.setStream_touches _ k _).mono (by decide))).trans
    (State.streamRequest_touches _ k)).answered (by decide) p _ _

theorem State.loadAccepted_touches (s : State) (p : Port) (k : Fin 16) (l : Playlist) :
    Touches grantParts s (s.loadAccepted p k l) := by
  have noted : Touches grantParts s (s.acceptItems p l.items) := (s.acceptItems_touches p l.items).mono (by decide)
  have dropped := fun x => noted.trans ((State.dropPlays_touches _ x).mono (by decide))
  have stored := fun x y => (dropped x).trans ((State.setStream_touches _ k y).mono (by decide))
  unfold State.loadAccepted
  dsimp only
  split
  · exact ((stored _ _).trans (State.streamRequest_touches _ k)).answered (by decide) p _ _
  · split
    · exact (((stored _ _).trans ((State.switch_touches _ k _).mono (by decide))).trans
        (State.streamRequest_touches _ k)).answered (by decide) p _ _
    · exact (stored _ _).answered (by decide) p _ _
  · exact noted.answered (by decide) p _ _

theorem State.whisperAccepted_touches (s : State) (port : Port) (p : Fin 64) (c : Fin 256) (gain : Half) :
    Touches grantParts s (s.whisperAccepted port p c gain) :=
  (s.queueEntry_touches p port _ _).answered (by decide) port _ _

theorem State.admitWrite_touches (s : State) (port : Port) (c : Fin 256) (index : Nat) (codes : PageCodes) :
    Touches grantParts s (s.admitWrite port c index codes) :=
  ((s.setClip_touches c _).mono (by decide)).trans (State.admitOp_touches _ port _)

theorem State.admitRead_touches (s : State) (port : Port) (c : Fin 256) (index : Nat) :
    Touches grantParts s (s.admitRead port c index) :=
  ((s.note_touches port _ c).mono (by decide)).trans (State.admitOp_touches _ port _)

theorem State.streamInfo_touches (s : State) (port : Port) (k : Fin 16) (clear : Bool) (payload : List Byte) :
    Touches [.ports, .streams, .freeCount] s
      ((if clear then (s.drawn 24).setStream k { (s.drawn 24).stream k with underrunSamples := 0 } else s.drawn 24).answer
        port .ok payload) := by
  have drawn := (s.drawn_touches 24).mono (b := [.ports, .streams, .freeCount]) (by decide)
  exact (Touches.ite _ (drawn.trans ((State.setStream_touches _ k _).mono (by decide))) drawn).answered (by decide) port _ _

/-! ## Completions on the memory bus (R128, R130, R132) -/

/-- The pieces the completion of a memory operation may change. -/
def busParts : List Part := .memory :: grantParts

theorem State.freeBus_touches (s : State) : Touches [.arbiter] s s.freeBus := s.setArbiter_touches _

theorem State.unlist_touches (s : State) (page : Nat) : Touches [.arbiter] s (s.unlist page) := s.setArbiter_touches _

theorem State.readReply_touches (s : State) (p : Port) (clip : Fin 256) (index : Nat) (codes : PageCodes) (marker : Bool) :
    Touches [.ports] s (s.readReply p clip index codes marker) := s.answer_touches p _ _

/-- What every completion that reads a page begins with: the bus freed, the page struck and what is found counted. -/
theorem State.readFound_touches (s : State) (page finder : Nat) (upsets : List WordUpset) :
    Touches busParts s ((s.freeBus.struck page upsets).counted page finder) :=
  (((s.freeBus_touches).mono (by decide)).trans ((State.struck_touches _ page upsets).mono (by decide))).trans
    ((State.counted_touches _ page finder).mono (by decide))

theorem State.fetchCompleted_touches (s : State) (f : Fetch) (upsets : List WordUpset) :
    Touches busParts s (s.fetchCompleted f upsets) :=
  ((s.readFound_touches f.page _ upsets).trans ((State.deliver_touches _ f _).mono (by decide))).trans
    ((State.grant_touches _).mono (by decide))

theorem State.writeNoted_touches (s : State) (p : Port) (clip : Fin 256) (index : Nat) (noted : Bool) :
    Touches [.clipStore, .events] s (s.writeNoted p clip index noted) := by
  have marked := fun x => (s.setClip_touches clip x).mono (b := [.clipStore, .events]) (by decide)
  exact Touches.ite _ ((marked _).trans ((State.fileOwner_touches _ _ _ _ _).mono (by decide))) (marked _)

theorem State.writeCompleted_touches (s : State) (p : Port) (clip : Fin 256) (index page : Nat) (codes : PageCodes)
    (noted : Bool) : Touches busParts s (s.writeCompleted p clip index page codes noted) := by
  have freed := (s.freeBus_touches).mono (b := busParts) (by decide)
  have written := fun m => freed.trans ((State.setMemory_touches _ m).mono (by decide))
  have unlisted := fun m => (written m).trans ((State.unlist_touches _ page).mono (by decide))
  have marked := fun m => (unlisted m).trans ((State.writeNoted_touches _ p clip index noted).mono (by decide))
  exact ((marked _).answered (by decide) p _ _).trans ((State.grant_touches _).mono (by decide))

theorem State.readCompleted_touches (s : State) (p : Port) (clip : Fin 256) (index page : Nat) (upsets : List WordUpset) :
    Touches busParts s (s.readCompleted p clip index page upsets) :=
  ((s.readFound_touches page _ upsets).trans ((State.readReply_touches _ p clip index _ _).mono (by decide))).trans
    ((State.grant_touches _).mono (by decide))

theorem State.scrubPage_touches (s : State) (page : Nat) (upsets : List WordUpset) :
    Touches busParts s (s.scrubPage page upsets) := by
  have found : Touches busParts s ((s.struck page upsets).counted page 0) :=
    ((s.struck_touches page upsets).mono (by decide)).trans ((State.counted_touches _ page 0).mono (by decide))
  exact Touches.ite _ (Touches.refl _ s)
    (Touches.ite _ found (found.trans ((State.setMemory_touches _ _).mono (by decide))))

theorem State.advanceScrub_touches (s : State) : Touches [.arbiter] s s.advanceScrub :=
  Touches.ite _ (s.setArbiter_touches _) (s.setArbiter_touches _)

theorem State.scrubCompleted_touches (s : State) (upsets : List WordUpset) : Touches busParts s (s.scrubCompleted upsets) :=
  ((((s.freeBus_touches).mono (by decide)).trans (State.scrubPage_touches _ _ upsets)).trans
    ((State.advanceScrub_touches _).mono (by decide))).trans ((State.grant_touches _).mono (by decide))

/-! ## RESET PORT (R176) -/

theorem State.inherit_touches (s : State) (port : Port) (p : Fin 64) :
    Touches [.positions, .whisper, .events] s (s.inherit port p) :=
  ((s.passTo_touches p port.other).mono (by decide)).trans ((State.file_touches _ _ _ _ _).mono (by decide))

theorem State.tearDown_touches (s : State) (p : Fin 64) : Touches closeParts s (s.tearDown p) :=
  (Touches.ite _ (s.releasing_touches p .portReset) (Touches.refl _ s)).trans (State.closing_touches _ p .portReset)

theorem State.clearOffersTo_touches (s : State) (port : Port) : Touches [.positions] s (s.clearOffersTo port) :=
  Touches.of_positions s _

theorem State.resetPositions_touches (s : State) (port : Port) : Touches closeParts s (s.resetPositions port) :=
  (((Touches.foldl (fun t p => t.inherit_touches port p) _ s).mono (by decide)).trans
    ((State.clearOffersTo_touches _ port).mono (by decide))).trans (Touches.foldl State.tearDown_touches _ _)

theorem State.loseStream_touches (s : State) (k : Fin 16) (p : Fin 64) :
    Touches [.positions, .events] s (s.loseStream k p) :=
  Touches.ite _ (((s.setPos_touches p _).mono (by decide)).trans ((State.fileOwner_touches _ _ _ _ _).mono (by decide)))
    (Touches.refl _ s)

theorem State.resetStream_touches (s : State) (k : Fin 16) : Touches (.positions :: grantParts) s (s.resetStream k) := by
  have unnamed := (Touches.foldl (fun t p => t.loseStream_touches k p) (List.finRange 64) s).mono
    (b := .positions :: grantParts) (by decide)
  unfold State.resetStream
  generalize (List.finRange 64).foldl (fun t p => t.loseStream k p) s = u at unnamed ⊢
  exact (unnamed.trans ((u.setStream_touches k _).mono (by decide))).trans ((State.stopStream_touches _ k).mono (by decide))

theorem State.resetStreams_touches (s : State) (port : Port) :
    Touches (.positions :: grantParts) s (s.resetStreams port) :=
  Touches.foldl State.resetStream_touches _ s

theorem State.resetWhispers_touches (s : State) (port : Port) :
    Touches (.positions :: grantParts) s (s.resetWhispers port) :=
  ((Touches.foldl (fun t p => t.flush_touches p .portReset _) _ s).mono (by decide)).trans
    ((State.assignPlayers_touches _).mono (by decide))

theorem State.removeTapsOwned_touches (s : State) (port : Port) : Touches [.mixer] s (s.removeTapsOwned port) :=
  Touches.of_mixer s _

theorem State.resetLocal_touches (s : State) (port : Port) : Touches [.clipStore, .events, .ports] s (s.resetLocal port) :=
  (((s.setFault_touches port _).mono (by decide)).trans ((State.setEvents_touches _ port _).mono (by decide))).trans
    ((Touches.of_ports _ _).mono (by decide))

theorem State.resetTeardown_touches (s : State) (port : Port) : Touches (.ports :: closeParts) s (s.resetTeardown port) := by
  have positions := (s.resetPositions_touches port).mono (b := .ports :: closeParts) (by decide)
  have streams := positions.trans ((State.resetStreams_touches _ port).mono (by decide))
  have whispers := streams.trans ((State.resetWhispers_touches _ port).mono (by decide))
  have taps := whispers.trans ((State.removeTapsOwned_touches _ port).mono (by decide))
  have own := taps.trans ((State.resetLocal_touches _ port).mono (by decide))
  exact own.trans ((State.file_touches _ _ _ _ _).mono (by decide))

/-! ## What an event that is no request can come to -/

theorem cycle_next {s t : State} {trunkRx agentRx agentSig : LineBits} (h : exec (.cycle trunkRx agentRx agentSig) s = .next t) :
    t = s ∨ s.phase = .running ∧ t = s.settle.cycled trunkRx agentRx agentSig := by
  replace h : execCycle trunkRx agentRx agentSig s = .next t := h
  unfold execCycle at h
  split at h
  · next running => exact .inr ⟨running, (Host.Outcome.next.inj h).symm⟩
  · exact .inl (Host.Outcome.next.inj h).symm
  · exact .inl (Host.Outcome.next.inj h).symm

theorem syncLossMissingPulse_next {s t : State} (h : exec .syncLossMissingPulse s = .next t) :
    t = s ∨ t = s.settle.loseSync none 1 := by
  replace h : execSyncLossMissingPulse s = .next t := h
  unfold execSyncLossMissingPulse at h
  split at h
  · exact .inr (Host.Outcome.next.inj h).symm
  · exact .inl (Host.Outcome.next.inj h).symm
  · exact .inl (Host.Outcome.next.inj h).symm
  · exact .inl (Host.Outcome.next.inj h).symm

theorem fsPulse_next {s t : State} {bit : Nat} (h : exec (.fsPulse bit) s = .next t) :
    t = s ∨ s.phase = .running ∧ t = s.settle.pulsed bit := by
  replace h : execFsPulse bit s = .next t := h
  unfold execFsPulse at h
  split at h
  · next running => exact .inr ⟨running, (Host.Outcome.next.inj h).symm⟩
  · exact .inl (Host.Outcome.next.inj h).symm
  · exact .inl (Host.Outcome.next.inj h).symm

theorem startUpWordShifted_next {s t : State} {word : Half} (h : exec (.startUpWordShifted word) s = .next t) :
    t = s ∨ s.phase = .shifting ∧ t = { s.bothReady with phase := .preparing, startUp := startUpOf word } := by
  replace h : execStartUpWordShifted word s = .next t := h
  unfold execStartUpWordShifted at h
  split at h <;> cases h
  · next shifting => exact .inr ⟨shifting, rfl⟩
  · exact .inl rfl
  · exact .inl rfl

theorem startUpMemoryPreparationComplete_next {s t : State} (h : exec .startUpMemoryPreparationComplete s = .next t) :
    t = s ∨ s.phase = .preparing
      ∧ t = { s with phase := .running, arbiter := Arbiter.atReset, memory := ⟨[], []⟩, highway := s.highway.begun } := by
  replace h : execStartUpMemoryPreparationComplete s = .next t := h
  unfold execStartUpMemoryPreparationComplete at h
  split at h <;> cases h
  · next preparing => exact .inr ⟨preparing, rfl⟩
  · exact .inl rfl
  · exact .inl rfl

theorem ignoredRequestFrame_next {s t : State} {port : Port} (h : exec (.ignoredRequestFrame port) s = .next t) :
    t = s ∨ t = s.ignoreFrame port := by
  replace h : execIgnoredRequestFrame port s = .next t := h
  unfold execIgnoredRequestFrame at h
  split at h <;> cases h
  · exact .inl rfl
  · split
    · exact .inl rfl
    · exact .inr rfl
  · split
    · exact .inl rfl
    · exact .inr rfl

theorem refreshTimerExpiry_next {s t : State} (h : exec .refreshTimerExpiry s = .next t) :
    t = s ∨ t = (s.setArbiter { s.arbiter with owed := min 16 (s.arbiter.owed + 1) }).grant := by
  replace h : execRefreshTimerExpiry s = .next t := h
  unfold execRefreshTimerExpiry at h
  split at h <;> cases h
  · exact .inr rfl
  · exact .inl rfl
  · exact .inl rfl

theorem onPage_next {s t u : State} {page : Nat} (h : s.onPage page u = .next t) : page < s.pageCount ∧ t = u := by
  unfold State.onPage at h
  split at h <;> cases h
  next inRange => exact ⟨inRange, rfl⟩

theorem pageFetchCompletion_next {s t : State} {upsets : List WordUpset}
    (h : exec (.pageFetchCompletion upsets) s = .next t) :
    t = s ∨ ∃ f, s.arbiter.bus = some (.fetch f) ∧ t = s.fetchCompleted f upsets := by
  replace h : execPageFetchCompletion upsets s = .next t := h
  unfold execPageFetchCompletion at h
  split at h
  · next f bus => exact .inr ⟨f, bus, (onPage_next h).2⟩
  all_goals cases h; exact .inl rfl

theorem portPageWriteCompletion_next {s t : State} (h : exec .portPageWriteCompletion s = .next t) :
    t = s ∨ ∃ p clip index page codes noted, s.arbiter.bus = some (.port p (.write clip index page codes noted))
      ∧ t = s.writeCompleted p clip index page codes noted := by
  replace h : execPortPageWriteCompletion s = .next t := h
  unfold execPortPageWriteCompletion at h
  split at h
  · next p clip index page codes noted bus => exact .inr ⟨p, clip, index, page, codes, noted, bus, (onPage_next h).2⟩
  all_goals cases h; exact .inl rfl

theorem portPageReadCompletion_next {s t : State} {upsets : List WordUpset}
    (h : exec (.portPageReadCompletion upsets) s = .next t) :
    t = s ∨ ∃ p clip index page, s.arbiter.bus = some (.port p (.read clip index page))
      ∧ t = s.readCompleted p clip index page upsets := by
  replace h : execPortPageReadCompletion upsets s = .next t := h
  unfold execPortPageReadCompletion at h
  split at h
  · next p clip index page bus => exact .inr ⟨p, clip, index, page, bus, (onPage_next h).2⟩
  all_goals cases h; exact .inl rfl

theorem scrubStepCompletion_next {s t : State} {upsets : List WordUpset}
    (h : exec (.scrubStepCompletion upsets) s = .next t) :
    t = s ∨ s.arbiter.bus = some .scrub ∧ t = s.scrubCompleted upsets := by
  replace h : execScrubStepCompletion upsets s = .next t := h
  unfold execScrubStepCompletion at h
  split at h
  · next bus => exact .inr ⟨bus, (onPage_next h).2⟩
  all_goals cases h; exact .inl rfl

/-! ## The highway interface (R3, R9, R11) -/

theorem State.cycled_touches (s : State) (trunkRx agentRx agentSig : LineBits) :
    Touches [.highway] s (s.cycled trunkRx agentRx agentSig) := by
  unfold State.cycled
  split
  · exact Touches.of_highway s _
  · exact Touches.of_highway s _

theorem State.loseSync_touches (s : State) (held : Option Nat) (detail : Nat) :
    Touches [.highway, .events] s (s.loseSync held detail) :=
  (((Touches.of_highway s _).trans (Touches.of_highway _ _)).mono (by decide)).trans
    ((State.fileBoth_touches _ _ _ _).mono (by decide))

theorem State.restoreSync_touches (s : State) (bit : Nat) :
    Touches [.highway, .suppress, .events] s (s.restoreSync bit) := by
  have lines : Touches [.highway] s (((s.setSync (.locked bit 0)).silencedLines).beginFrame.markFirstFrame) :=
    (((Touches.of_highway s _).trans (Touches.of_highway _ _)).trans (Touches.of_highway _ _)).trans
      (Touches.of_highway _ _)
  exact ((lines.mono (by decide)).trans ((State.setFirstFrames_touches _).mono (by decide))).trans
    ((State.fileBoth_touches _ _ _ _).mono (by decide))

theorem State.pulsed_touches (s : State) (bit : Nat) : Touches [.highway, .suppress, .events] s (s.pulsed bit) := by
  unfold State.pulsed
  split
  · exact Touches.ite _ (Touches.refl _ s) ((s.loseSync_touches _ _).mono (by decide))
  · exact Touches.ite _ (s.restoreSync_touches bit) ((Touches.of_highway s _).mono (by decide))

/-! ## Every command -/

/-- A request changes no piece that its body, and the taking of a request, does not. -/
theorem touches_of_request {parts : List Part} {s t : State} {p : Port} {code : Byte} {body : State → State}
    (h : (Host.Outcome.next (s.request p code body) : Host.Outcome State Fault Refusal) = .next t)
    (ports : .ports ∈ parts) (k : ∀ u, Touches parts u (body u)) : Touches parts s t :=
  touches_of_next h (s.request_touches ports p code body k)

/-- Each block keeps everything that the command's rules do not give it to change. -/
theorem exec_touches {c : Instr} {s t : State} (h : exec c s = .next t) : Touches (commandParts c) s t := by
  cases c with
  | pinReset => exact touches_of_next h fun x hx => by cases x <;> first | rfl | exact absurd (by simp [commandParts]) hx
  | startUpWordShifted word =>
    obtain rfl | ⟨-, rfl⟩ := startUpWordShifted_next h
    · exact Touches.refl _ _
    · exact fun x hx => by cases x <;> first | rfl | exact absurd (by simp [commandParts]) hx
  | startUpMemoryPreparationComplete =>
    obtain rfl | ⟨-, rfl⟩ := startUpMemoryPreparationComplete_next h
    · exact Touches.refl _ _
    · exact fun x hx => by cases x <;> first | rfl | exact absurd (by simp [commandParts]) hx
  | cycle trunkRx agentRx agentSig =>
    obtain e | ⟨-, e⟩ := cycle_next h <;> rw [e]
    · exact Touches.refl _ _
    · exact s.settle_touches.trans ((State.cycled_touches _ _ _ _).mono (b := frameParts) (by decide))
  | debounceCountExpiry slot => exact touches_of_next h (s.expireSlot_touches slot)
  | frameCompletion => exact touches_of_next h (Touches.ite _ s.settle_touches (Touches.refl _ s))
  | syncLossMissingPulse =>
    obtain e | e := syncLossMissingPulse_next h <;> rw [e]
    · exact Touches.refl _ _
    · exact s.settle_touches.trans ((State.loseSync_touches _ _ _).mono (b := frameParts) (by decide))
  | fsPulse bit =>
    obtain e | ⟨-, e⟩ := fsPulse_next h <;> rw [e]
    · exact Touches.refl _ _
    · exact s.settle_touches.trans ((State.pulsed_touches _ bit).mono (b := frameParts) (by decide))
  | refreshTimerExpiry =>
    obtain rfl | rfl := refreshTimerExpiry_next h
    · exact Touches.refl _ _
    · exact ((s.setArbiter_touches _).mono (b := grantParts) (by decide)).trans (State.grant_touches _)
  | pageFetchCompletion upsets =>
    obtain rfl | ⟨f, -, rfl⟩ := pageFetchCompletion_next h
    · exact Touches.refl _ _
    · exact s.fetchCompleted_touches f upsets
  | portPageWriteCompletion =>
    obtain rfl | ⟨p, clip, index, page, codes, noted, -, rfl⟩ := portPageWriteCompletion_next h
    · exact Touches.refl _ _
    · exact s.writeCompleted_touches p clip index page codes noted
  | portPageReadCompletion upsets =>
    obtain rfl | ⟨p, clip, index, page, -, rfl⟩ := portPageReadCompletion_next h
    · exact Touches.refl _ _
    · exact s.readCompleted_touches p clip index page upsets
  | scrubStepCompletion upsets =>
    obtain rfl | ⟨-, rfl⟩ := scrubStepCompletion_next h
    · exact Touches.refl _ _
    · exact s.scrubCompleted_touches upsets
  | ignoredRequestFrame port =>
    obtain rfl | rfl := ignoredRequestFrame_next h
    · exact Touches.refl _ _
    · exact s.ignoreFrame_touches port
  | unknownRequestCode port code =>
    show Touches [.ports] s t
    exact touches_of_request h (by decide) fun u => u.refuse_touches (by decide) port _
  | portStatus port =>
    show Touches [.ports] s t
    exact touches_of_request h (by decide) fun u => u.answer_touches port _ _
  | resetPort port =>
    show Touches (.ports :: closeParts) s t
    exact touches_of_request h (by decide) fun u => (u.resetTeardown_touches port).answered (by decide) port _ _
  | openPosition port position slot tail profile =>
    show Touches openParts s t
    refine touches_of_request h (by decide) fun u => ?_
    split
    · exact u.checked_touches (by decide) port _ _ (u.openAccepted_touches port _ _ _ _)
    · exact u.refuse_touches (by decide) port _
  | closePosition port position =>
    show Touches (.ports :: closeParts) s t
    refine touches_of_request h (by decide) fun u => State.withNumber_touches (by decide) fun p =>
      u.checked_touches (by decide) port _ _ ?_
    exact (((u.closing_touches p _).mono (by decide)).trans ((State.assignPlayers_touches _).mono (by decide))).answered
      (by decide) port _ _
  | connect port position trunk prompt stream =>
    show Touches connectParts s t
    refine touches_of_request h (by decide) fun u => ?_
    split
    · exact u.checked_touches (by decide) port _ _ (u.connect_touches port _ _ _ _)
    · exact u.refuse_touches (by decide) port _
  | hold port position stream =>
    show Touches [.ports, .positions, .streams] s t
    refine touches_of_request h (by decide) fun u => ?_
    split
    · exact u.checked_touches (by decide) port _ _ (u.holdAccepted_touches port _ _)
    · exact u.refuse_touches (by decide) port _
  | retrieve port position =>
    show Touches [.ports, .positions, .streams] s t
    exact touches_of_request h (by decide) fun u => State.withNumber_touches (by decide) fun p =>
      u.checked_touches (by decide) port _ _ (u.retrieveAccepted_touches port p)
  | release port position =>
    show Touches (.ports :: closeParts) s t
    refine touches_of_request h (by decide) fun u => State.withNumber_touches (by decide) fun p =>
      u.checked_touches (by decide) port _ _ ?_
    exact (((u.releasing_touches p _).mono (by decide)).trans ((State.assignPlayers_touches _).mono (by decide))).answered
      (by decide) port _ _
  | setPosition port position params =>
    show Touches [.ports, .positions, .suppress] s t
    refine touches_of_request h (by decide) fun u => ?_
    split
    · exact u.checked_touches (by decide) port _ _ (u.setAccepted_touches port _ _ _)
    · exact u.refuse_touches (by decide) port _
  | setTail port position tail =>
    show Touches [.ports, .positions, .echo] s t
    exact touches_of_request h (by decide) fun u => State.withNumber_touches (by decide) fun p =>
      u.checked_touches (by decide) port _ _ (u.checked_touches (by decide) port _ _ (u.tailAccepted_touches port p _))
  | offerPositionOffer port position choice =>
    show Touches [.ports, .positions, .events] s t
    refine touches_of_request h (by decide) fun u => State.withNumber_touches (by decide) fun p =>
      u.checked_touches (by decide) port _ _ (u.checked_touches (by decide) port _ _ ?_)
    exact (((u.setPos_touches p _).mono (by decide)).trans ((State.file_touches _ _ _ _ _).mono (by decide))).answered
      (by decide) port _ _
  | offerPositionWithdraw port position =>
    show Touches [.ports, .positions, .events] s t
    refine touches_of_request h (by decide) fun u => State.withNumber_touches (by decide) fun p =>
      u.checked_touches (by decide) port _ _ ?_
    exact (((u.setPos_touches p _).mono (by decide)).trans ((State.file_touches _ _ _ _ _).mono (by decide))).answered
      (by decide) port _ _
  | acceptPosition port position =>
    show Touches [.ports, .positions, .whisper, .events] s t
    refine touches_of_request h (by decide) fun u => State.withNumber_touches (by decide) fun p =>
      u.checked_touches (by decide) port _ _ ?_
    exact (((u.passTo_touches p port).mono (by decide)).trans ((State.fileOwner_touches _ _ _ _ _).mono (by decide))).answered
      (by decide) port _ _
  | positionInfo port position =>
    show Touches [.ports] s t
    exact touches_of_request h (by decide) fun u => State.withNumber_touches (by decide) fun _ => u.answer_touches port _ _
  | positionStats port position clear =>
    show Touches [.ports, .positions] s t
    exact touches_of_request h (by decide) fun u => State.withNumber_touches (by decide) fun p =>
      u.checked_touches (by decide) port _ _ (u.statsAccepted_touches port p clear)
  | writeProfile port profile gains threshold nmin =>
    show Touches [.ports, .suppress] s t
    refine touches_of_request h (by decide) fun u => ?_
    split
    · exact ((Touches.of_suppress u _).mono (by decide)).answered (by decide) port _ _
    · exact u.refuse_touches (by decide) port _
  | addTap port listener target kind gain =>
    show Touches [.ports, .mixer, .events] s t
    refine touches_of_request h (by decide) fun u => ?_
    split
    · exact u.checked_touches (by decide) port _ _ (u.addTapAccepted_touches port _)
    · exact u.refuse_touches (by decide) port _
  | removeTap port tap =>
    show Touches [.ports, .mixer, .events] s t
    refine touches_of_request h (by decide) fun u => ?_
    split
    · split
      · exact u.checked_touches (by decide) port _ _ (u.removeTapAccepted_touches port _ _)
      · exact u.refuse_touches (by decide) port _
    · exact u.refuse_touches (by decide) port _
  | listTaps port =>
    show Touches [.ports] s t
    exact touches_of_request h (by decide) fun u => u.answer_touches port _ _
  | defineClip port clip base length fill key0 key1 =>
    show Touches [.ports, .clipStore] s t
    refine touches_of_request h (by decide) fun u => ?_
    split
    · exact u.checked_touches (by decide) port _ _ (((u.setClip_touches _ _).mono (by decide)).answered (by decide) port _ _)
    · exact u.refuse_touches (by decide) port _
  | setKeys port clip key0 key1 =>
    show Touches [.ports, .clipStore] s t
    refine touches_of_request h (by decide) fun u => ?_
    dsimp only
    split
    · exact u.checked_touches (by decide) port _ _ (((u.setClip_touches _ _).mono (by decide)).answered (by decide) port _ _)
    · exact u.refuse_touches (by decide) port _
  | freeClip port clip =>
    show Touches [.ports, .clipStore] s t
    exact touches_of_request h (by decide) fun u =>
      u.checked_touches (by decide) port _ _ (((u.setClip_touches _ _).mono (by decide)).answered (by decide) port _ _)
  | clipInfo port clip =>
    show Touches [.ports] s t
    exact touches_of_request h (by decide) fun u => u.answer_touches port _ _
  | writePage port clip index codes =>
    show Touches grantParts s t
    exact touches_of_request h (by decide) fun u => Touches.ite _ (u.refuse_touches (by decide) port _)
      (Touches.ite _ ((u.refuseFault_touches port _ _ _ _).mono (by decide))
        (Touches.ite _ (u.refuse_touches (by decide) port _) (u.admitWrite_touches port _ _ codes)))
  | readPage port clip index =>
    show Touches grantParts s t
    exact touches_of_request h (by decide) fun u => Touches.ite _ (u.refuse_touches (by decide) port _)
      (Touches.ite _ ((u.refuseFault_touches port _ _ _ _).mono (by decide)) (u.admitRead_touches port _ _))
  | readFault port =>
    show Touches [.ports, .freeCount] s t
    refine touches_of_request h (by decide) fun u => ?_
    split
    · exact ((u.drawn_touches 2).mono (by decide)).answered (by decide) port _ _
    · exact u.refuse_touches (by decide) port _
  | clearFault port =>
    show Touches [.ports, .clipStore] s t
    exact touches_of_request h (by decide) fun u => ((u.setFault_touches port _).mono (by decide)).answered (by decide) port _ _
  | memoryStatus port =>
    show Touches [.ports] s t
    exact touches_of_request h (by decide) fun u => u.answer_touches port _ _
  | startStream port stream playlist =>
    show Touches grantParts s t
    exact touches_of_request h (by decide) fun u => State.withNumber_touches (by decide) fun k =>
      u.checked_touches (by decide) port _ _
        (u.checkItems_touches (by decide) (by decide) port _ _ _ (u.startAccepted_touches port k _))
  | loadStream port stream playlist =>
    show Touches grantParts s t
    exact touches_of_request h (by decide) fun u => State.withNumber_touches (by decide) fun k =>
      u.checked_touches (by decide) port _ _
        (u.checkItems_touches (by decide) (by decide) port _ _ _ (u.loadAccepted_touches port k _))
  | stopStream port stream =>
    show Touches [.ports, .streams, .clipStore, .arbiter] s t
    exact touches_of_request h (by decide) fun u => State.withNumber_touches (by decide) fun k =>
      u.checked_touches (by decide) port _ _ (((u.stopStream_touches k).mono (by decide)).answered (by decide) port _ _)
  | streamInfo port stream clear =>
    show Touches [.ports, .streams, .freeCount] s t
    exact touches_of_request h (by decide) fun u => State.withNumber_touches (by decide) fun k =>
      u.checked_touches (by decide) port _ _ (u.streamInfo_touches port k clear _)
  | whisper port position clip gain =>
    show Touches grantParts s t
    exact touches_of_request h (by decide) fun u => State.withNumber_touches (by decide) fun p =>
      u.checked_touches (by decide) port _ _ (Touches.ite _ (u.refuse_touches (by decide) port _)
        (u.checkItems_touches (by decide) (by decide) port _ _ _ (u.whisperAccepted_touches port p _ gain)))
  | cancelWhisper port position =>
    show Touches (.positions :: grantParts) s t
    exact touches_of_request h (by decide) fun u => State.withNumber_touches (by decide) fun p =>
      u.checked_touches (by decide) port _ _ (u.cancelAccepted_touches port p)
  | readEvent port =>
    show Touches [.ports, .events] s t
    refine touches_of_request h (by decide) fun u => ?_
    unfold State.readEvent
    dsimp only
    split
    · exact ((u.setEvents_touches port _).mono (by decide)).answered (by decide) port _ _
    · exact u.refuse_touches (by decide) port _
  | routeEvent port kind cls =>
    show Touches [.ports, .events] s t
    refine touches_of_request h (by decide) fun u => ?_
    split
    · exact ((u.setEvents_touches port _).mono (by decide)).answered (by decide) port _ _
    · exact u.refuse_touches (by decide) port _
  | maskEvents port mask =>
    show Touches [.ports, .events] s t
    exact touches_of_request h (by decide) fun u => ((u.setEvents_touches port _).mono (by decide)).answered (by decide) port _ _

end Sys2Proof.Machine
end

section
/-! PROOFS. Timeslots stay bound as the positions' records say, and frames in progress stay in step with the cycle counter
(R3, R5, R6, R7). -/

namespace Sys2Proof.Machine

/-! ## What the bindings read of a position's record -/

/-- A position's timeslots, whether it is open, and whether it is in a call (R7, R21). -/
def Position.slots (x : Position) : Option (Fin 64) × Option (Fin 64) × Bool × Bool :=
  (x.agentSlot, x.trunkSlot, decide (x.state ≠ .closed), x.state.inCall)

/-- From `s` to `t` every position keeps its timeslots, whether it is open, and whether it is in a call. -/
def SlotsKept (s t : State) : Prop := ∀ p, (t.pos p).slots = (s.pos p).slots

theorem SlotsKept.refl (s : State) : SlotsKept s s := fun _ => rfl

theorem SlotsKept.trans {s t u : State} (h : SlotsKept s t) (k : SlotsKept t u) : SlotsKept s u :=
  fun p => (k p).trans (h p)

theorem SlotsKept.of_touches {parts : List Part} {s t : State} (h : Touches parts s t) (untouched : .positions ∉ parts) :
    SlotsKept s t := fun p => by
  unfold State.pos
  rw [show t.positions = s.positions from h .positions untouched]

theorem SlotsKept.of_statsOnly {s t : State} (h : StatsOnly s t) : SlotsKept s t := fun p => by
  obtain ⟨x, hx⟩ := h p
  rw [hx]
  rfl

theorem SlotsKept.foldl {α : Type} {f : State → α → State} (h : ∀ s x, SlotsKept s (f s x)) (l : List α) (s : State) :
    SlotsKept s (l.foldl f s) :=
  foldl_keeps (P := SlotsKept s) (fun t x ht => ht.trans (h t x)) l s (.refl s)

theorem SlotsKept.answered {s t : State} (h : SlotsKept s t) (p : Port) (status : Status) (payload : List Byte) :
    SlotsKept s (t.answer p status payload) :=
  h.trans (.of_touches (t.answer_touches p status payload) (by decide))

theorem SlotsKept.closed_iff {s t : State} (h : SlotsKept s t) (p : Fin 64) :
    (t.pos p).state = .closed ↔ (s.pos p).state = .closed := by
  have opened : decide ((t.pos p).state ≠ .closed) = decide ((s.pos p).state ≠ .closed) := congrArg (·.2.2.1) (h p)
  simpa using opened

theorem SlotsKept.inCall {s t : State} (h : SlotsKept s t) (p : Fin 64) :
    (t.pos p).state.inCall = (s.pos p).state.inCall := congrArg (·.2.2.2) (h p)

theorem State.setPos_pos (s : State) (p q : Fin 64) (x : Position) :
    (s.setPos p x).pos q = if p = q then x else s.pos q := by
  unfold State.setPos
  simp only [State.pos, Table.cell_put]

theorem State.setPos_slotsKept (s : State) (p : Fin 64) (x : Position) (h : x.slots = (s.pos p).slots) :
    SlotsKept s (s.setPos p x) := fun q => by
  rw [State.setPos_pos]
  split
  · next e => rw [← e]; exact h
  · rfl

/-! ## Operations that keep every position's timeslots -/

theorem State.announceEnded_slotsKept (s : State) (p : Fin 64) (cancelled : Bool) :
    SlotsKept s (s.announceEnded p cancelled) := by
  have filed := fun (t : State) o k a d => SlotsKept.of_touches (t.fileOwner_touches o k a d) (by decide)
  unfold State.announceEnded
  dsimp only
  refine SlotsKept.trans ?_ (filed _ _ _ _ _)
  cases e : (s.pos p).state with
  | announce =>
    exact (s.setPos_slotsKept p _ (by simp [Position.slots, e, PositionState.inCall])).trans
      (.of_touches (State.dropListener_touches _ _) (by decide))
  | held => exact s.setPos_slotsKept p _ (by simp [Position.slots, e, PositionState.inCall])
  | closed => exact .refl s
  | idle => exact .refl s
  | connected => exact .refl s

theorem State.flushed_slotsKept (s : State) (p : Fin 64) (cause : FlushCause) (e : Entry) :
    SlotsKept s (s.flushed p cause e) := by
  have dropped : SlotsKept s (s.dropPlay e.clip) := .of_touches (s.dropPlay_touches _) (by decide)
  have player : SlotsKept s (if e.phase = .waiting then s.dropPlay e.clip else (s.dropPlay e.clip).flushPlayer p) := by
    split
    · exact dropped
    · exact dropped.trans (.of_touches (State.flushPlayer_touches _ p) (by decide))
  have filed := fun k o d => player.trans (.of_touches (State.file_touches _ e.origin k o d) (by decide))
  unfold State.flushed
  dsimp only
  split
  · exact (filed _ _ _).trans (State.announceEnded_slotsKept _ p true)
  · exact filed _ _ _

theorem State.flush_slotsKept (s : State) (p : Fin 64) (cause : FlushCause) (chosen : Entry → Bool) :
    SlotsKept s (s.flush p cause chosen) :=
  s.flush_keeps (P := SlotsKept s) p cause chosen (.of_touches (s.setQueue_touches p _) (by decide))
    fun t e h => h.trans (t.flushed_slotsKept p cause e)

theorem State.assignPlayers_slotsKept (s : State) : SlotsKept s s.assignPlayers :=
  .of_touches s.assignPlayers_touches (by decide)

theorem State.completeEntry_slotsKept (s : State) (p : Fin 64) (w : Fin 16) (e : Entry) :
    SlotsKept s (s.completeEntry p w e) := by
  have dropped : SlotsKept s ((s.setQueue p (s.queue p).tail).dropPlay e.clip) :=
    (SlotsKept.of_touches (s.setQueue_touches p _) (by decide)).trans (.of_touches (State.dropPlay_touches _ _) (by decide))
  have freed := fun x => dropped.trans (.of_touches (State.setPlayer_touches _ w x) (by decide))
  have filed := fun x k o d => (freed x).trans (.of_touches (State.file_touches _ e.origin k o d) (by decide))
  unfold State.completeEntry
  dsimp only
  refine SlotsKept.trans ?_ (State.assignPlayers_slotsKept _)
  split
  · exact (filed _ _ _ _).trans (State.announceEnded_slotsKept _ p false)
  · exact filed _ _ _ _

theorem State.completeHead_slotsKept (s : State) (p : Fin 64) : SlotsKept s (s.completeHead p) := by
  unfold State.completeHead
  split
  · split
    · exact s.completeEntry_slotsKept p _ _
    · exact .refl s
  · exact .refl s

theorem State.completeHeads_slotsKept (s : State) : SlotsKept s s.completeHeads :=
  .foldl State.completeHead_slotsKept (List.finRange 64) s

theorem State.mix_slotsKept (s : State) (m : MixInputs) : SlotsKept s (s.mix m) := .of_statsOnly fun p => by
  simp only [State.mix, State.pos, State.clippedCounted, Table.cell_build]
  split
  · exact ⟨_, rfl⟩
  · exact ⟨_, rfl⟩

theorem State.beginFrame_touches (s : State) : Touches [.highway] s s.beginFrame := Touches.of_highway s _

theorem State.pastFirstFrame_touches (s : State) : Touches [.highway] s s.pastFirstFrame := Touches.of_highway s _

theorem State.completeFrame_slotsKept (s : State) : SlotsKept s s.completeFrame := by
  have echo : SlotsKept s s.stamped.echoFrames.2 :=
    (SlotsKept.of_touches (Touches.of_highway s _) (by decide)).trans (.of_statsOnly (State.echoFrames_statsOnly _))
  have suppressed := echo.trans (.of_touches (State.suppressFrames_touches _) (by decide))
  have streams := suppressed.trans (.of_touches (State.streamFrames_touches _) (by decide))
  have sounding := streams.trans (.of_touches (State.soundHeads_touches _) (by decide))
  have whisper := sounding.trans (.of_statsOnly (State.whisperFrames_statsOnly _))
  have ducked := whisper.trans (.of_touches (State.updateCoachDuck_touches _) (by decide))
  have mixed := fun m => ducked.trans (State.mix_slotsKept _ m)
  have begun := fun m => (mixed m).trans
    (.of_touches ((State.beginFrame_touches _).trans (State.pastFirstFrame_touches _)) (by decide))
  exact (begun _).trans (State.completeHeads_slotsKept _)

theorem State.holdAccepted_slotsKept (s : State) (port : Port) (p : Fin 64) (stream : Option (Fin 16))
    (inCall : (s.pos p).state.inCall = true) : SlotsKept s (s.holdAccepted port p stream) := by
  have record : SlotsKept s (s.setPos p { s.pos p with
      state := .held, announcePending := (s.pos p).state = .announce, stream := stream }) := by
    refine s.setPos_slotsKept p _ ?_
    cases e : (s.pos p).state <;> simp_all [Position.slots, PositionState.inCall]
  have unheard := fun k => record.trans (.of_touches (State.dropListener_touches _ k) (by decide))
  exact ((unheard _).trans (.of_touches (State.addListener_touches _ stream) (by decide))).answered port _ _

theorem State.retrieveAccepted_slotsKept (s : State) (port : Port) (p : Fin 64) (held : (s.pos p).state = .held) :
    SlotsKept s (s.retrieveAccepted port p) := by
  unfold State.retrieveAccepted
  dsimp only
  split
  · exact (s.setPos_slotsKept p _ (by simp [Position.slots, held, PositionState.inCall])).answered port _ _
  · have record := s.setPos_slotsKept p { s.pos p with state := .connected, stream := none }
      (by simp [Position.slots, held, PositionState.inCall])
    exact (record.trans (.of_touches (State.dropListener_touches _ _) (by decide))).answered port _ _

theorem State.setAccepted_slotsKept (s : State) (port : Port) (p : Fin 64) (a : ParamsArg) (mode : Option EcMode) :
    SlotsKept s (s.setAccepted port p a mode) := by
  have record := s.setPos_slotsKept p ((s.pos p).adjusted a mode) rfl
  exact (record.trans (.of_touches (State.setSuppressor_touches _ p _) (by decide))).answered port _ _

theorem State.tailAccepted_slotsKept (s : State) (port : Port) (p : Fin 64) (tail : Nat) :
    SlotsKept s (s.tailAccepted port p tail) := by
  have segments : Touches [.echo] s (if (s.pos p).tail < tail then s.allocate p (tail - (s.pos p).tail)
      else if tail < (s.pos p).tail then s.keepSegments p tail else s) :=
    Touches.ite _ (s.allocate_touches p _) (Touches.ite _ (s.keepSegments_touches p tail) (Touches.refl _ s))
  have kept := SlotsKept.of_touches segments (by decide)
  exact (kept.trans (State.setPos_slotsKept _ p { s.pos p with tail := tail } (kept p).symm)).answered port _ _

theorem State.passTo_slotsKept (s : State) (p : Fin 64) (port : Port) : SlotsKept s (s.passTo p port) :=
  (s.setPos_slotsKept p { s.pos p with owner := some port, offer := false } rfl).trans
    (.of_touches (State.setQueue_touches _ p _) (by decide))

theorem State.offer_slotsKept (s : State) (port q : Port) (p : Fin 64) (offer : Bool) (k : EventKind) (o d : Nat) :
    SlotsKept s (((s.setPos p { s.pos p with offer := offer }).file q k o d).answer port .ok []) :=
  ((s.setPos_slotsKept p { s.pos p with offer := offer } rfl).trans
    (.of_touches (State.file_touches _ q k o d) (by decide))).answered port _ _

theorem State.statsAccepted_slotsKept (s : State) (port : Port) (p : Fin 64) (clear : Bool) :
    SlotsKept s (s.statsAccepted port p clear) := by
  have record := s.setPos_slotsKept p { s.pos p with stats := Stats.zero } rfl
  have cleared : SlotsKept s (if clear then s.setPos p { s.pos p with stats := Stats.zero } else s) := by
    split
    · exact record
    · exact .refl s
  exact cleared.answered port _ _

theorem State.cancelAccepted_slotsKept (s : State) (port : Port) (p : Fin 64) :
    SlotsKept s (s.cancelAccepted port p) :=
  ((s.flush_slotsKept p .cancel _).trans (State.assignPlayers_slotsKept _)).answered port _ _

theorem State.inherit_slotsKept (s : State) (port : Port) (p : Fin 64) : SlotsKept s (s.inherit port p) :=
  (s.passTo_slotsKept p port.other).trans (.of_touches (State.file_touches _ _ _ _ _) (by decide))

theorem State.clearOffersTo_slotsKept (s : State) (port : Port) : SlotsKept s (s.clearOffersTo port) := fun p => by
  unfold State.clearOffersTo
  simp only [State.pos, Table.cell_map]
  split
  · rfl
  · rfl

theorem State.loseStream_slotsKept (s : State) (k : Fin 16) (p : Fin 64) : SlotsKept s (s.loseStream k p) := by
  unfold State.loseStream
  dsimp only
  split
  · exact (s.setPos_slotsKept p { s.pos p with stream := none } rfl).trans
      (.of_touches (State.fileOwner_touches _ _ _ _ _) (by decide))
  · exact .refl s

theorem State.resetStream_slotsKept (s : State) (k : Fin 16) : SlotsKept s (s.resetStream k) := by
  have unnamed := SlotsKept.foldl (fun t p => t.loseStream_slotsKept k p) (List.finRange 64) s
  unfold State.resetStream
  generalize (List.finRange 64).foldl (fun t p => t.loseStream k p) s = u at unnamed ⊢
  exact (unnamed.trans (.of_touches (u.setStream_touches k _) (by decide))).trans
    (.of_touches (State.stopStream_touches _ k) (by decide))

theorem State.resetStreams_slotsKept (s : State) (port : Port) : SlotsKept s (s.resetStreams port) :=
  .foldl State.resetStream_slotsKept _ s

theorem State.resetWhispers_slotsKept (s : State) (port : Port) : SlotsKept s (s.resetWhispers port) :=
  (SlotsKept.foldl (fun t p => t.flush_slotsKept p .portReset _) (List.finRange 64) s).trans
    (State.assignPlayers_slotsKept _)

/-! ## The invariant where the timeslots are kept -/

theorem State.bindingsAgree_of_kept {s t : State} (agree : s.bindingsAgree)
    (agent : ∀ a, (t.highway.agent.cell a).map Line.position = (s.highway.agent.cell a).map Line.position)
    (trunk : ∀ u, (t.highway.trunk.cell u).map (fun x => x.line.position)
      = (s.highway.trunk.cell u).map fun x => x.line.position)
    (slots : SlotsKept s t) : t.bindingsAgree := by
  obtain ⟨agents, trunks, opened, calls⟩ := agree
  have parts := fun p => slots p
  simp only [Position.slots, Prod.mk.injEq] at parts
  refine ⟨fun a p => ?_, fun u p => ?_, fun p => ?_, fun p => ?_⟩
  · rw [agent, (parts p).1]; exact agents a p
  · rw [trunk, (parts p).2.1]; exact trunks u p
  · rw [(parts p).1, (parts p).2.2.1]; exact opened p
  · rw [(parts p).2.1, (parts p).2.2.2]; exact calls p

theorem State.timeslotsSound_of_kept {s t : State} (sound : s.timeslotsSound) (phase : t.phase = s.phase)
    (highway : t.highway = s.highway) (slots : SlotsKept s t) : t.timeslotsSound := by
  obtain ⟨agree, inStep, lost⟩ := sound
  refine ⟨State.bindingsAgree_of_kept agree (fun _ => by rw [highway]) (fun _ => by rw [highway]) slots, ?_, ?_⟩
  · rw [highway]; exact inStep
  · rw [phase, highway]; exact lost

theorem State.timeslotsSound_of_touches {parts : List Part} {s t : State} (sound : s.timeslotsSound)
    (h : Touches parts s t) (apart : .phase ∉ parts ∧ .highway ∉ parts ∧ .positions ∉ parts) : t.timeslotsSound :=
  State.timeslotsSound_of_kept sound (h .phase apart.1) (h .highway apart.2.1) (.of_touches h apart.2.2)

/-! ## Frames in progress (R3, R5, R6, R9) -/

/-- Frames that have just begun are in step with a counter at cycle 0. -/
theorem Highway.inStep_of_begun {h : Highway} (start : Nat) (sync : h.sync = .locked start 0) (due : h.frameDue = false)
    (agent : ∀ a x, h.agent.cell a = some x → x.received = some [])
    (trunk : ∀ u x, h.trunk.cell u = some x → x.line.received = some [] ∧ x.sent = []) : h.inStep := by
  have gathered : h.gathered = some 0 := by simp [Highway.gathered, sync, due]
  refine ⟨fun a x l hx hl => ?_, fun u x l hx hl => ?_, fun k => absurd k (by simp [due])⟩
  · rw [agent a x hx, Option.some.injEq] at hl
    rw [gathered, ← hl]; rfl
  · obtain ⟨received, sent⟩ := trunk u x hx
    rw [received, Option.some.injEq] at hl
    rw [gathered, sent, ← hl]
    exact ⟨rfl, rfl⟩

/-- Where no timeslot assembles a frame and no completion is due, there is nothing to be in step. -/
theorem Highway.inStep_of_silenced {h : Highway} (due : h.frameDue = false)
    (agent : ∀ a x, h.agent.cell a = some x → x.received = none)
    (trunk : ∀ u x, h.trunk.cell u = some x → x.line.received = none) : h.inStep :=
  ⟨fun a x _ hx hl => absurd hl (by simp [agent a x hx]), fun u x _ hx hl => absurd hl (by simp [trunk u x hx]),
    fun k => absurd k (by simp [due])⟩

theorem Highway.inStep_put_agent {h : Highway} (inStep : h.inStep) (a : Fin 64) (y : Option Line)
    (idle : ∀ x, y = some x → x.received = none) : { h with agent := h.agent.put a y }.inStep := by
  obtain ⟨agent, trunk, due⟩ := inStep
  refine ⟨fun b x l hx hl => ?_, trunk, due⟩
  replace hx : (h.agent.put a y).cell b = some x := hx
  rw [Table.cell_put] at hx
  split at hx
  · exact absurd hl (by simp [idle x hx])
  · exact agent b x l hx hl

theorem Highway.inStep_put_trunk {h : Highway} (inStep : h.inStep) (u : Fin 64) (y : Option TrunkLine)
    (idle : ∀ x, y = some x → x.line.received = none) : { h with trunk := h.trunk.put u y }.inStep := by
  obtain ⟨agent, trunk, due⟩ := inStep
  refine ⟨agent, fun v x l hx hl => ?_, due⟩
  replace hx : (h.trunk.put u y).cell v = some x := hx
  rw [Table.cell_put] at hx
  split at hx
  · exact absurd hl (by simp [idle x hx])
  · exact trunk v x l hx hl

/-! ## What is due (R4, R18) -/

theorem State.timeslotsSound_of_debounced {s t : State} (sound : s.timeslotsSound) (h : Touches [.highway, .events] s t)
    {d : Table 64 Debounce} (highway : t.highway = { s.highway with debounce := d }) : t.timeslotsSound := by
  obtain ⟨agree, inStep, lost⟩ := sound
  refine ⟨State.bindingsAgree_of_kept agree (fun _ => by rw [highway]) (fun _ => by rw [highway])
    (.of_touches h (by decide)), ?_, ?_⟩
  · rw [highway]; exact inStep
  · rw [h .phase (by decide), highway]; exact lost

theorem State.expireSlot_sound {s : State} (sound : s.timeslotsSound) (a : Fin 64) : (s.expireSlot a).timeslotsSound :=
  State.timeslotsSound_of_debounced sound (s.expireSlot_touches a) (s.expireSlot_highway a)

theorem State.settleDebounce_sound {s : State} (sound : s.timeslotsSound) : s.settleDebounce.timeslotsSound :=
  State.timeslotsSound_of_debounced sound s.settleDebounce_touches s.settleDebounce_highway

/-- A frame completion that is due comes at cycle 0, where every bound timeslot begins a frame. -/
theorem State.completeFrame_sound {s : State} (sound : s.timeslotsSound) (due : s.highway.frameDue = true) :
    s.completeFrame.timeslotsSound := by
  obtain ⟨agree, ⟨-, -, atStart⟩, lost⟩ := sound
  obtain ⟨start, locked⟩ := atStart due
  obtain ⟨taken, -, -, sync, -, -, agent, trunk⟩ := s.completeFrame_highway
  have phase : s.completeFrame.phase = s.phase := s.completeFrame_touches .phase (by decide)
  refine ⟨State.bindingsAgree_of_kept agree (fun a => ?_) (fun u => ?_) s.completeFrame_slotsKept,
    Highway.inStep_of_begun start (sync.trans locked) taken (fun a x hx => ?_) (fun u x hx => ?_), ?_⟩
  · simpa [Function.comp_def] using congrArg (Option.map Prod.fst) (agent a)
  · simpa [Function.comp_def] using congrArg (Option.map Prod.fst) (trunk u)
  · have here := agent a
    rw [hx] at here
    obtain ⟨y, -, e⟩ := Option.map_eq_some_iff.mp here.symm
    exact (congrArg Prod.snd e).symm
  · have here := trunk u
    rw [hx] at here
    obtain ⟨y, -, e⟩ := Option.map_eq_some_iff.mp here.symm
    exact ⟨(congrArg (fun z => z.2.1) e).symm, (congrArg (fun z => z.2.2) e).symm⟩
  · rw [phase, sync]; exact lost

theorem State.settle_sound {s : State} (sound : s.timeslotsSound) : s.settle.timeslotsSound := by
  have settled := State.settleDebounce_sound sound
  unfold State.settle State.settleFrame
  split
  · next due => exact State.completeFrame_sound settled due
  · exact settled

theorem State.settle_notDue (s : State) : s.settle.highway.frameDue = false := by
  unfold State.settle State.settleFrame
  split
  · exact s.settleDebounce.completeFrame_highway.1
  · next due => exact Bool.eq_false_iff.mpr due

/-! ## Cycles and sync (R3, R9, R11) -/

/-- Each cycle adds a code to every frame in progress, and one to the counter. -/
theorem State.lockedCycle_inStep {s : State} {start : Nat} {cycle : Fin 32} (inStep : s.highway.inStep)
    (due : s.highway.frameDue = false) (locked : s.highway.sync = .locked start cycle) (trunkRx agentRx agentSig : LineBits) :
    (s.lockedCycle start cycle trunkRx agentRx agentSig).highway.inStep := by
  have before : s.highway.gathered = some cycle.val := by simp [Highway.gathered, locked, due]
  have after : (s.lockedCycle start cycle trunkRx agentRx agentSig).highway.gathered = some (cycle.val + 1) := by
    simp only [State.lockedCycle, Highway.gathered, nextCycle, decide_eq_true_eq]
    split
    · next last => rw [last]
    · rw [dif_pos (by omega)]
  obtain ⟨agent, trunk, -⟩ := inStep
  refine ⟨fun a x l hx hl => ?_, fun u x l hx hl => ?_, fun last => ⟨start + 512, ?_⟩⟩
  · rw [after]
    simp only [State.lockedCycle, Table.cell_build] at hx
    obtain ⟨y, hy, rfl⟩ := Option.map_eq_some_iff.mp hx
    obtain ⟨m, hm, rfl⟩ := Option.map_eq_some_iff.mp hl
    have gathered := (agent a y m hy hm).trans before
    simpa using gathered
  · rw [after]
    simp only [State.lockedCycle, Table.cell_build] at hx
    obtain ⟨y, hy, rfl⟩ := Option.map_eq_some_iff.mp hx
    obtain ⟨m, hm, rfl⟩ := Option.map_eq_some_iff.mp hl
    obtain ⟨received, sent⟩ := trunk u y m hy hm
    have gathered := received.trans before
    simp only [TrunkLine.exchange, List.length_append, List.length_singleton, sent]
    exact ⟨by simpa using gathered, trivial⟩
  · simp only [State.lockedCycle, decide_eq_true_eq] at last
    simp [State.lockedCycle, nextCycle, last]

theorem State.cycled_sound {s : State} (sound : s.timeslotsSound) (running : s.phase = .running)
    (due : s.highway.frameDue = false) (trunkRx agentRx agentSig : LineBits) :
    (s.cycled trunkRx agentRx agentSig).timeslotsSound := by
  have phase : (s.cycled trunkRx agentRx agentSig).phase = .running :=
    (s.cycled_touches trunkRx agentRx agentSig .phase (by decide)).trans running
  have slots : SlotsKept s (s.cycled trunkRx agentRx agentSig) := .of_touches (s.cycled_touches _ _ _) (by decide)
  obtain ⟨agree, inStep, -⟩ := sound
  refine ⟨?_, ?_, fun k => absurd phase k⟩
  · refine State.bindingsAgree_of_kept agree (fun a => ?_) (fun u => ?_) slots
    all_goals unfold State.cycled; split
    · simp only [State.lockedCycle, Table.cell_build, Option.map_map]; rfl
    · rfl
    · simp only [State.lockedCycle, Table.cell_build, Option.map_map]; rfl
    · rfl
  · unfold State.cycled
    split
    · next locked => exact State.lockedCycle_inStep inStep due locked trunkRx agentRx agentSig
    · exact inStep

theorem State.silencedLines_agent (s : State) (a : Fin 64) :
    s.silencedLines.highway.agent.cell a = (s.highway.agent.cell a).map (Line.silenced s.silence) :=
  Table.cell_map _ _ _

theorem State.silencedLines_trunk (s : State) (u : Fin 64) :
    s.silencedLines.highway.trunk.cell u = (s.highway.trunk.cell u).map (TrunkLine.silenced s.silence) :=
  Table.cell_map _ _ _

theorem State.beginFrame_agent (s : State) (a : Fin 64) :
    s.beginFrame.highway.agent.cell a = (s.highway.agent.cell a).map Line.beginFrame := Table.cell_map _ _ _

theorem State.beginFrame_trunk (s : State) (u : Fin 64) :
    s.beginFrame.highway.trunk.cell u = (s.highway.trunk.cell u).map TrunkLine.beginFrame := Table.cell_map _ _ _

theorem State.silencedLines_touches (s : State) : Touches [.highway] s s.silencedLines := Touches.of_highway s _

theorem State.setSync_touches (s : State) (x : Sync) : Touches [.highway] s (s.setSync x) := Touches.of_highway s _

theorem State.markFirstFrame_touches (s : State) : Touches [.highway] s s.markFirstFrame := Touches.of_highway s _

theorem State.loseSync_sound {s : State} (sound : s.timeslotsSound) (due : s.highway.frameDue = false)
    (held : Option Nat) (detail : Nat) : (s.loseSync held detail).timeslotsSound := by
  obtain ⟨agree, -, -⟩ := sound
  refine State.timeslotsSound_of_touches (s := (s.setSync (.lost held)).silencedLines) ?_ (State.fileBoth_touches _ _ _ _)
    (by decide)
  have slots : SlotsKept s (s.setSync (.lost held)).silencedLines :=
    .of_touches ((s.setSync_touches _).trans (State.silencedLines_touches _)) (by decide)
  refine ⟨State.bindingsAgree_of_kept agree (fun a => ?_) (fun u => ?_) slots,
    Highway.inStep_of_silenced due (fun a x hx => ?_) (fun u x hx => ?_), fun _ => ⟨held, rfl⟩⟩
  · rw [State.silencedLines_agent, Option.map_map]; rfl
  · rw [State.silencedLines_trunk, Option.map_map]; rfl
  · rw [State.silencedLines_agent] at hx
    obtain ⟨y, -, rfl⟩ := Option.map_eq_some_iff.mp hx
    rfl
  · rw [State.silencedLines_trunk] at hx
    obtain ⟨y, -, rfl⟩ := Option.map_eq_some_iff.mp hx
    rfl

/-- The lines at an entry to LOCKED: silenced, and at the beginning of a frame (R11). -/
def State.relocked (s : State) (bit : Nat) : State :=
  ((s.setSync (.locked bit 0)).silencedLines).beginFrame.markFirstFrame

theorem State.relocked_touches (s : State) (bit : Nat) : Touches [.highway] s (s.relocked bit) :=
  (((s.setSync_touches _).trans (State.silencedLines_touches _)).trans (State.beginFrame_touches _)).trans
    (State.markFirstFrame_touches _)

theorem State.restoreSync_sound {s : State} (sound : s.timeslotsSound) (running : s.phase = .running)
    (due : s.highway.frameDue = false) (bit : Nat) : (s.restoreSync bit).timeslotsSound := by
  obtain ⟨agree, -, -⟩ := sound
  refine State.timeslotsSound_of_touches (s := s.relocked bit) ?_
    (((State.setFirstFrames_touches _).mono (by decide)).trans
      ((State.fileBoth_touches _ _ _ _).mono (b := [.suppress, .events]) (by decide))) (by decide)
  have slots : SlotsKept s (s.relocked bit) := .of_touches (s.relocked_touches bit) (by decide)
  have agent : ∀ a, (s.relocked bit).highway.agent.cell a
      = ((s.highway.agent.cell a).map (Line.silenced s.silence)).map Line.beginFrame := fun a =>
    (State.beginFrame_agent _ a).trans (congrArg _ (State.silencedLines_agent _ a))
  have trunk : ∀ u, (s.relocked bit).highway.trunk.cell u
      = ((s.highway.trunk.cell u).map (TrunkLine.silenced s.silence)).map TrunkLine.beginFrame := fun u =>
    (State.beginFrame_trunk _ u).trans (congrArg _ (State.silencedLines_trunk _ u))
  refine ⟨State.bindingsAgree_of_kept agree (fun a => ?_) (fun u => ?_) slots,
    Highway.inStep_of_begun bit rfl due (fun a x hx => ?_) (fun u x hx => ?_), fun k => absurd running k⟩
  · rw [agent, Option.map_map, Option.map_map]; rfl
  · rw [trunk, Option.map_map, Option.map_map]; rfl
  · rw [agent] at hx
    obtain ⟨y, -, rfl⟩ := Option.map_eq_some_iff.mp hx
    rfl
  · rw [trunk] at hx
    obtain ⟨y, -, rfl⟩ := Option.map_eq_some_iff.mp hx
    exact ⟨rfl, rfl⟩

theorem State.pulsed_sound {s : State} (sound : s.timeslotsSound) (running : s.phase = .running)
    (due : s.highway.frameDue = false) (bit : Nat) : (s.pulsed bit).timeslotsSound := by
  unfold State.pulsed
  split
  · split
    · exact sound
    · exact State.loseSync_sound sound due _ _
  · next held lost =>
    split
    · exact State.restoreSync_sound sound running due bit
    · obtain ⟨agree, ⟨agent, trunk, -⟩, -⟩ := sound
      have gathered : s.highway.gathered = (s.setSync (.lost (some bit))).highway.gathered := by
        simp [Highway.gathered, lost]
      rw [gathered] at agent trunk
      exact ⟨agree, ⟨agent, trunk, fun k => absurd (due.symm.trans k) (by decide)⟩, fun _ => ⟨some bit, rfl⟩⟩

/-! ## Binding and unbinding a timeslot (R7, R8, R24, R25, R27, R30) -/

/-- Lines and records agree on which position each timeslot is bound to. -/
def Bound (line slot : Fin 64 → Option (Fin 64)) : Prop := ∀ a p, line a = some p ↔ slot p = some a

theorem Bound.bind {line slot line' slot' : Fin 64 → Option (Fin 64)} (h : Bound line slot) {a p : Fin 64}
    (free : line a = none) (unslotted : slot p = none) (hline : ∀ b, line' b = if a = b then some p else line b)
    (hslot : ∀ q, slot' q = if p = q then some a else slot q) : Bound line' slot' := by
  intro b q
  rw [hline, hslot]
  have here := h b q
  by_cases hb : a = b <;> by_cases hq : p = q <;> simp_all

theorem Bound.unbind {line slot line' slot' : Fin 64 → Option (Fin 64)} (h : Bound line slot) {a p : Fin 64}
    (bound : slot p = some a) (hline : ∀ b, line' b = if a = b then none else line b)
    (hslot : ∀ q, slot' q = if p = q then none else slot q) : Bound line' slot' := by
  intro b q
  rw [hline, hslot]
  have here := h b q
  have there := h a q
  have taken := (h a p).mpr bound
  by_cases hb : a = b <;> by_cases hq : p = q <;> simp_all

theorem State.setAgentLine_agent (s : State) (a b : Fin 64) (x : Option Line) :
    (s.setAgentLine a x).highway.agent.cell b = if a = b then x else s.highway.agent.cell b := Table.cell_put _ _ _ _

theorem State.setTrunkLine_trunk (s : State) (t u : Fin 64) (x : Option TrunkLine) :
    (s.setTrunkLine t x).highway.trunk.cell u = if t = u then x else s.highway.trunk.cell u := Table.cell_put _ _ _ _

/-- A CLOSED position opens on a timeslot that is bound to none (R24). -/
theorem State.opened_sound {s : State} (sound : s.timeslotsSound) {p a : Fin 64} {x : Position} {y : Line}
    (closed : (s.pos p).state = .closed) (free : s.highway.agent.cell a = none)
    (agentSlot : x.agentSlot = some a) (trunkSlot : x.trunkSlot = none) (idle : x.state = .idle)
    (position : y.position = p) (received : y.received = none) :
    ((s.setPos p x).setAgentLine a (some y)).timeslotsSound := by
  obtain ⟨⟨agents, trunks, opened, calls⟩, inStep, lost⟩ := sound
  have noAgent : (s.pos p).agentSlot = none := by simpa [closed] using opened p
  have noTrunk : (s.pos p).trunkSlot = none := by simpa [closed, PositionState.inCall] using calls p
  have record : ∀ q, ((s.setPos p x).setAgentLine a (some y)).pos q = if p = q then x else s.pos q :=
    fun q => s.setPos_pos p q x
  refine ⟨⟨?_, fun u q => ?_, fun q => ?_, fun q => ?_⟩,
    Highway.inStep_put_agent inStep a _ (by rintro _ ⟨⟩; exact received), lost⟩
  · refine Bound.bind agents (a := a) (p := p) (by rw [free]; rfl) noAgent (fun b => ?_) (fun q => ?_)
    · rw [State.setAgentLine_agent, ← position]; split <;> rfl
    · rw [record, ← agentSlot]; split <;> rfl
  · refine (trunks u q).trans ?_
    rw [record]
    split
    · next e => rw [← e, trunkSlot, noTrunk]
    · rfl
  · rw [record]
    split
    · rw [agentSlot, idle]; rfl
    · exact opened q
  · rw [record]
    split
    · rw [trunkSlot, idle]; rfl
    · exact calls q

/-- An IDLE position enters a call on a trunk timeslot that is bound to none (R27). -/
theorem State.called_sound {s : State} (sound : s.timeslotsSound) {p u : Fin 64} {x : Position} {y : TrunkLine}
    (idle : (s.pos p).state = .idle) (free : s.highway.trunk.cell u = none)
    (agentSlot : x.agentSlot = (s.pos p).agentSlot) (trunkSlot : x.trunkSlot = some u) (inCall : x.state.inCall = true)
    (position : y.line.position = p) (received : y.line.received = none) :
    ((s.setPos p x).setTrunkLine u (some y)).timeslotsSound := by
  obtain ⟨⟨agents, trunks, opened, calls⟩, inStep, lost⟩ := sound
  have noTrunk : (s.pos p).trunkSlot = none := by simpa [idle, PositionState.inCall] using calls p
  have agent : (s.pos p).agentSlot.isSome = true := by simpa [idle] using opened p
  have notClosed : x.state ≠ .closed := fun e => by rw [e] at inCall; cases inCall
  have record : ∀ q, ((s.setPos p x).setTrunkLine u (some y)).pos q = if p = q then x else s.pos q :=
    fun q => s.setPos_pos p q x
  refine ⟨⟨fun a q => ?_, ?_, fun q => ?_, fun q => ?_⟩,
    Highway.inStep_put_trunk inStep u _ (by rintro _ ⟨⟩; exact received), lost⟩
  · refine (agents a q).trans ?_
    rw [record]
    split
    · next e => rw [← e, agentSlot]
    · rfl
  · refine Bound.bind trunks (a := u) (p := p) (by rw [free]; rfl) noTrunk (fun b => ?_) (fun q => ?_)
    · rw [State.setTrunkLine_trunk, ← position]; split <;> rfl
    · rw [record, ← trunkSlot]; split <;> rfl
  · rw [record]
    split
    · rw [agentSlot, agent]; simpa using notClosed
    · exact opened q
  · rw [record]
    split
    · rw [trunkSlot, inCall]; rfl
    · exact calls q

/-- A position in no call closes, and its agent timeslot with it (R25). -/
theorem State.closed_sound {s : State} (sound : s.timeslotsSound) {p : Fin 64}
    (notInCall : (s.pos p).state.inCall = false) :
    ((s.unbindAgent (s.pos p).agentSlot).setPos p Position.closedContents).timeslotsSound := by
  obtain ⟨⟨agents, trunks, opened, calls⟩, inStep, lost⟩ := id sound
  have noTrunk : (s.pos p).trunkSlot = none := by simpa [notInCall] using calls p
  cases slot : (s.pos p).agentSlot with
  | none =>
    have closed : (s.pos p).state = .closed := by simpa [slot] using (opened p).symm
    refine State.timeslotsSound_of_kept sound rfl rfl (s.setPos_slotsKept p _ ?_)
    simp [Position.slots, Position.closedContents, PositionState.inCall, slot, noTrunk, closed]
  | some a =>
    have record : ∀ q, ((s.setAgentLine a none).setPos p Position.closedContents).pos q
        = if p = q then Position.closedContents else s.pos q := fun q => s.setPos_pos p q _
    show ((s.setAgentLine a none).setPos p Position.closedContents).timeslotsSound
    refine ⟨⟨?_, fun u q => ?_, fun q => ?_, fun q => ?_⟩,
      Highway.inStep_put_agent inStep a none (fun _ h => nomatch h), lost⟩
    · refine Bound.unbind agents slot (fun b => ?_) (fun q => ?_)
      · show ((s.setAgentLine a none).highway.agent.cell b).map Line.position = _
        rw [State.setAgentLine_agent]; split <;> rfl
      · rw [record]; split <;> rfl
    · refine (trunks u q).trans ?_
      rw [record]
      split
      · next e => rw [← e, noTrunk]; exact Iff.rfl
      · rfl
    · rw [record]
      split
      · rfl
      · exact opened q
    · rw [record]
      split
      · rfl
      · exact calls q

/-- An open position leaves its call, if any, and its trunk timeslot with it (R30). -/
theorem State.released_sound {s : State} (sound : s.timeslotsSound) {p : Fin 64} {x : Position}
    (notClosed : (s.pos p).state ≠ .closed) (agentSlot : x.agentSlot = (s.pos p).agentSlot) (trunkSlot : x.trunkSlot = none)
    (idle : x.state = .idle) : ((s.unbindTrunk (s.pos p).trunkSlot).setPos p x).timeslotsSound := by
  obtain ⟨⟨agents, trunks, opened, calls⟩, inStep, lost⟩ := id sound
  have agent : (s.pos p).agentSlot.isSome = true := by simpa [notClosed] using opened p
  cases slot : (s.pos p).trunkSlot with
  | none =>
    have notInCall : (s.pos p).state.inCall = false := by simpa [slot] using (calls p).symm
    refine State.timeslotsSound_of_kept sound rfl rfl (s.setPos_slotsKept p _ ?_)
    have idleCall : PositionState.inCall .idle = false := rfl
    simp [Position.slots, agentSlot, trunkSlot, idle, slot, notClosed, notInCall, idleCall]
  | some u =>
    have record : ∀ q, ((s.setTrunkLine u none).setPos p x).pos q = if p = q then x else s.pos q :=
      fun q => s.setPos_pos p q x
    show ((s.setTrunkLine u none).setPos p x).timeslotsSound
    refine ⟨⟨fun a q => ?_, ?_, fun q => ?_, fun q => ?_⟩,
      Highway.inStep_put_trunk inStep u none (fun _ h => nomatch h), lost⟩
    · refine (agents a q).trans ?_
      rw [record]
      split
      · next e => rw [← e, agentSlot]
      · rfl
    · refine Bound.unbind trunks slot (fun b => ?_) (fun q => ?_)
      · show ((s.setTrunkLine u none).highway.trunk.cell b).map (fun x => x.line.position) = _
        rw [State.setTrunkLine_trunk]; split <;> rfl
      · rw [record, ← trunkSlot]; split <;> rfl
    · rw [record]
      split
      · rw [agentSlot, agent, idle]; rfl
      · exact opened q
    · rw [record]
      split
      · rw [trunkSlot, idle]; rfl
      · exact calls q

/-! ## The requests that bind and unbind (R24, R25, R27, R30) -/

theorem State.openAccepted_sound {s : State} (sound : s.timeslotsSound) (port : Port) {p slot : Fin 64} (tail : Nat)
    (profile : Fin 4) (closed : (s.pos p).state = .closed) (free : s.highway.agent.cell slot = none) :
    (s.openAccepted port p slot tail profile).timeslotsSound :=
  State.timeslotsSound_of_kept
    (State.opened_sound sound (x := Position.opened port slot tail profile) (y := freshLine s.silence p) closed free rfl rfl
      rfl rfl rfl) rfl rfl fun _ => rfl

theorem State.connecting_sound {s : State} (sound : s.timeslotsSound) {p t : Fin 64} {state : PositionState}
    (stream : Option (Fin 16)) (idle : (s.pos p).state = .idle) (free : s.highway.trunk.cell t = none)
    (inCall : state.inCall = true) : (s.connecting p t state stream).timeslotsSound := by
  let record : Position := { s.pos p with state := state, trunkSlot := some t, stream := stream }
  have bound : ((s.setPos p record).bindTrunk t p).timeslotsSound :=
    State.called_sound sound (x := record) (y := ⟨freshLine s.silence p, []⟩) idle free rfl rfl inCall rfl rfl
  have cleared := (State.clearCanceller_touches ((s.setPos p record).bindTrunk t p) p).mono
    (b := [.echo, .mixer, .events, .suppress, .streams]) (by decide)
  have untapped := cleared.trans ((State.dropListenerTaps_touches _ p).mono (by decide))
  have marked := untapped.trans ((State.setFirstFrame_touches _ p).mono (by decide))
  exact State.timeslotsSound_of_touches bound (marked.trans ((State.addListener_touches _ stream).mono (by decide)))
    (by decide)

theorem State.connect_sound {s : State} (sound : s.timeslotsSound) (port : Port) {p t : Fin 64}
    (prompt : Option PromptArg) (stream : Option (Fin 16)) (idle : (s.pos p).state = .idle)
    (free : s.highway.trunk.cell t = none) : (s.connect port p t prompt stream).timeslotsSound := by
  have answered := fun (u : State) (h : u.timeslotsSound) (status : Status) (payload : List Byte) =>
    State.timeslotsSound_of_touches h (u.answer_touches port status payload) (by decide)
  cases prompt with
  | none => exact answered _ (State.connecting_sound sound none idle free rfl) _ _
  | some x =>
    simp only [State.connect, State.checkEntry, State.checkItems]
    split
    · exact answered _ sound _ _
    · split
      · exact State.timeslotsSound_of_touches sound (s.refuseFault_touches port _ _ _ _) (by decide)
      · split
        · exact answered _ sound _ _
        · have connecting := State.connecting_sound sound (state := .announce) stream idle free rfl
          exact answered _ (State.timeslotsSound_of_touches connecting (State.queueEntry_touches _ p port _ _) (by decide)) _ _

theorem State.flush_sound {s : State} (sound : s.timeslotsSound) (p : Fin 64) (cause : FlushCause)
    (chosen : Entry → Bool) : (s.flush p cause chosen).timeslotsSound := by
  have touched := s.flush_touches p cause chosen
  exact State.timeslotsSound_of_kept sound (touched .phase (by decide)) (touched .highway (by decide))
    (s.flush_slotsKept p cause chosen)

theorem State.closing_sound {s : State} (sound : s.timeslotsSound) {p : Fin 64} (cause : FlushCause)
    (notInCall : (s.pos p).state.inCall = false) : (s.closing p cause).timeslotsSound := by
  let returned := ((s.flush p cause fun _ => true).dropTapsOf p).keepSegments p 0
  have rest : Touches [.mixer, .events, .echo] (s.flush p cause fun _ => true) returned :=
    ((State.dropTapsOf_touches _ p).mono (by decide)).trans ((State.keepSegments_touches _ p 0).mono (by decide))
  have sound' : returned.timeslotsSound :=
    State.timeslotsSound_of_touches (State.flush_sound sound p cause _) rest (by decide)
  have slots : SlotsKept s returned := (s.flush_slotsKept p cause _).trans (.of_touches rest (by decide))
  have notInCall' : (returned.pos p).state.inCall = false := (slots.inCall p).trans notInCall
  have closed := State.closed_sound sound' notInCall'
  have recorded : ((returned.unbindAgent (returned.pos p).agentSlot).closeRecord p).timeslotsSound := by
    unfold State.closeRecord
    dsimp only
    split
    · exact State.timeslotsSound_of_touches closed (State.fileOwner_touches _ _ _ _ _) (by decide)
    · exact closed
  exact State.timeslotsSound_of_touches recorded (State.closeBlocks_touches _ p) (by decide)

theorem State.releasing_sound {s : State} (sound : s.timeslotsSound) {p : Fin 64} (cause : FlushCause)
    (notClosed : (s.pos p).state ≠ .closed) : (s.releasing p cause).timeslotsSound := by
  have flushed := State.flush_sound sound p cause fun _ => true
  have slots := s.flush_slotsKept p cause fun _ => true
  unfold State.releasing
  dsimp only
  generalize s.flush p cause (fun _ => true) = u at flushed slots ⊢
  have notClosed' : (u.pos p).state ≠ .closed := (slots.closed_iff p).not.mpr notClosed
  have rest : Touches [.events, .streams] u
      ((if s.announceQueued p then u.fileOwner (u.pos p).owner .announceDone p.val 1 else u).dropListener (u.pos p).stream) :=
    (Touches.ite _ ((u.fileOwner_touches _ _ _ _).mono (by decide)) (Touches.refl _ u)).trans
      ((State.dropListener_touches _ _).mono (by decide))
  generalize State.dropListener _ _ = v at rest ⊢
  have record : v.pos p = u.pos p := congrArg (·.cell p) (rest .positions (by decide))
  rw [← record]
  exact State.released_sound (State.timeslotsSound_of_touches flushed rest (by decide)) (record ▸ notClosed') rfl rfl rfl

theorem State.releasing_state (s : State) (p : Fin 64) (cause : FlushCause) :
    ((s.releasing p cause).pos p).state = .idle := by
  unfold State.releasing
  dsimp only
  rw [State.setPos_pos, if_pos rfl]

theorem State.tearDown_sound {s : State} (sound : s.timeslotsSound) (p : Fin 64) : (s.tearDown p).timeslotsSound := by
  unfold State.tearDown
  split
  · next inCall =>
    have notClosed : (s.pos p).state ≠ .closed := fun e => by rw [e] at inCall; cases inCall
    exact State.closing_sound (State.releasing_sound sound .portReset notClosed) .portReset
      (by rw [State.releasing_state]; rfl)
  · next notInCall => exact State.closing_sound sound .portReset (Bool.eq_false_iff.mpr notInCall)

theorem State.resetTeardown_sound {s : State} (sound : s.timeslotsSound) (port : Port) :
    (s.resetTeardown port).timeslotsSound := by
  have handed : ((s.offeredBy port).foldl (fun s p => s.inherit port p) s).timeslotsSound := by
    have touched := Touches.foldl (fun t p => t.inherit_touches port p) (s.offeredBy port) s
    exact State.timeslotsSound_of_kept sound (touched .phase (by decide)) (touched .highway (by decide))
      (.foldl (fun t p => t.inherit_slotsKept port p) _ s)
  have cleared := State.timeslotsSound_of_kept (t := State.clearOffersTo _ port) handed rfl rfl
    (State.clearOffersTo_slotsKept _ port)
  have positions : (s.resetPositions port).timeslotsSound :=
    foldl_keeps (P := State.timeslotsSound) (fun _ p h => State.tearDown_sound h p) _ _ cleared
  have kept := fun (t u : State) (h : t.timeslotsSound) (touched : Touches (.positions :: grantParts) t u) =>
    State.timeslotsSound_of_kept h (touched .phase (by decide)) (touched .highway (by decide))
  have streams := kept _ _ positions (State.resetStreams_touches _ port) (State.resetStreams_slotsKept _ port)
  have whispers := kept _ _ streams (State.resetWhispers_touches _ port) (State.resetWhispers_slotsKept _ port)
  have taps := (State.removeTapsOwned_touches (((s.resetPositions port).resetStreams port).resetWhispers port) port).mono
    (b := [.mixer, .clipStore, .events, .ports]) (by decide)
  have own := taps.trans ((State.resetLocal_touches _ port).mono (by decide))
  exact State.timeslotsSound_of_touches whispers (own.trans ((State.file_touches _ _ _ _ _).mono (by decide))) (by decide)

/-! ## Every command -/

theorem firstRefusal_eq_none {checks : List (Bool × Status)} :
    firstRefusal checks = none ↔ ∀ c ∈ checks, c.1 = false := by
  rw [firstRefusal_eq, Option.map_eq_none_iff, List.find?_eq_none]
  simp

theorem SlotsKept.of_request {s t : State} {p : Port} {code : Byte} {body : State → State}
    (h : (Host.Outcome.next (s.request p code body) : Host.Outcome State Fault Refusal) = .next t)
    (kept : ∀ u, SlotsKept u (body u)) : SlotsKept s t := by
  cases h
  exact State.request_keeps (P := SlotsKept s) (.refl s) (fun _ => .refl s) fun _ => kept (s.taken p code)

theorem State.refuse_slotsKept (s : State) (p : Port) (status : Status) : SlotsKept s (s.refuse p status) :=
  .of_touches (s.answer_touches p status []) (by decide)

theorem State.checked_slotsKept {s : State} {p : Port} {checks : List (Bool × Status)} {effect : State → State}
    (passed : (∀ c ∈ checks, c.1 = false) → SlotsKept s (effect s)) : SlotsKept s (s.checked p checks effect) :=
  State.checked_keeps (s.refuse_slotsKept p) fun h => passed (firstRefusal_eq_none.mp h)

theorem State.withNumber_slotsKept {n : Nat} {s : State} {p : Port} {b : Byte} {body : Fin n → State → State}
    (found : ∀ i, SlotsKept s (body i s)) : SlotsKept s (s.withNumber p b body) :=
  State.withNumber_keeps (s.refuse_slotsKept p) found

/-- The commands that change records of positions but bind and unbind no timeslot. -/
theorem exec_slotsKept {c : Instr} {s t : State} (h : exec c s = .next t) (highway : .highway ∉ commandParts c)
    (phase : .phase ∉ commandParts c) : SlotsKept s t := by
  by_cases untouched : .positions ∉ commandParts c
  · exact .of_touches (exec_touches h) untouched
  cases c with
  | hold port position stream =>
    refine SlotsKept.of_request h fun u => ?_
    split
    · refine State.checked_slotsKept fun passed => u.holdAccepted_slotsKept port _ _ ?_
      simp only [List.forall_mem_cons, Bool.or_eq_false_iff, decide_eq_false_iff_not] at passed
      obtain ⟨closed, -, ⟨idle, -⟩, -⟩ := passed
      cases e : (u.pos _).state <;> simp_all [PositionState.inCall]
    · exact u.refuse_slotsKept port _
  | retrieve port position =>
    refine SlotsKept.of_request h fun u => State.withNumber_slotsKept fun p => State.checked_slotsKept fun passed =>
      u.retrieveAccepted_slotsKept port p ?_
    simp only [List.forall_mem_cons, decide_eq_false_iff_not] at passed
    obtain ⟨-, -, held, -⟩ := passed
    simpa using held
  | setPosition port position params =>
    refine SlotsKept.of_request h fun u => ?_
    split
    · exact State.checked_slotsKept fun _ => u.setAccepted_slotsKept port _ _ _
    · exact u.refuse_slotsKept port _
  | setTail port position tail =>
    exact SlotsKept.of_request h fun u => State.withNumber_slotsKept fun p => State.checked_slotsKept fun _ =>
      State.checked_slotsKept fun _ => u.tailAccepted_slotsKept port p _
  | offerPositionOffer port position choice =>
    exact SlotsKept.of_request h fun u => State.withNumber_slotsKept fun p => State.checked_slotsKept fun _ =>
      State.checked_slotsKept fun _ => u.offer_slotsKept port _ p true _ _ _
  | offerPositionWithdraw port position =>
    exact SlotsKept.of_request h fun u => State.withNumber_slotsKept fun p => State.checked_slotsKept fun _ =>
      u.offer_slotsKept port _ p false _ _ _
  | acceptPosition port position =>
    exact SlotsKept.of_request h fun u => State.withNumber_slotsKept fun p => State.checked_slotsKept fun _ =>
      ((u.passTo_slotsKept p port).trans (.of_touches (State.fileOwner_touches _ _ _ _ _) (by decide))).answered port _ _
  | positionStats port position clear =>
    exact SlotsKept.of_request h fun u => State.withNumber_slotsKept fun p => State.checked_slotsKept fun _ =>
      u.statsAccepted_slotsKept port p clear
  | cancelWhisper port position =>
    exact SlotsKept.of_request h fun u => State.withNumber_slotsKept fun p => State.checked_slotsKept fun _ =>
      u.cancelAccepted_slotsKept port p
  | cycle | frameCompletion | syncLossMissingPulse | fsPulse | openPosition | closePosition | connect | release | resetPort =>
    exact absurd (by simp [commandParts, frameParts, closeParts]) highway
  | pinReset => exact absurd (by simp [commandParts]) phase
  | _ => exact absurd (by simp [commandParts, grantParts]) untouched

theorem timeslotsSound_of_request {s t : State} {p : Port} {code : Byte} {body : State → State}
    (h : (Host.Outcome.next (s.request p code body) : Host.Outcome State Fault Refusal) = .next t)
    (sound : s.timeslotsSound) (kept : ∀ u, u.timeslotsSound → (body u).timeslotsSound) : t.timeslotsSound := by
  cases h
  exact State.request_keeps (P := State.timeslotsSound) sound (fun _ => sound) fun _ => kept (s.taken p code) sound

theorem State.answer_sound {s : State} (sound : s.timeslotsSound) (p : Port) (status : Status) (payload : List Byte) :
    (s.answer p status payload).timeslotsSound :=
  State.timeslotsSound_of_touches sound (s.answer_touches p status payload) (by decide)

theorem State.checked_sound {s : State} (sound : s.timeslotsSound) {p : Port} {checks : List (Bool × Status)}
    {effect : State → State} (passed : (∀ c ∈ checks, c.1 = false) → (effect s).timeslotsSound) :
    (s.checked p checks effect).timeslotsSound :=
  State.checked_keeps (fun status => State.answer_sound sound p status []) fun h => passed (firstRefusal_eq_none.mp h)

theorem State.assignPlayers_sound {s : State} (sound : s.timeslotsSound) : s.assignPlayers.timeslotsSound :=
  State.timeslotsSound_of_touches sound s.assignPlayers_touches (by decide)

theorem reset_timeslotsSound (queue : List Instr) (drawn : Nat) :
    { State.reset with pending := queue, freeCount := drawn }.timeslotsSound := by
  have agent : ∀ a, State.reset.highway.agent.cell a = none := fun a => Table.cell_fill none a
  have trunk : ∀ u, State.reset.highway.trunk.cell u = none := fun u => Table.cell_fill none u
  have closed : ∀ p, State.reset.pos p = Position.closedContents := fun p => Table.cell_fill _ p
  have agree : State.reset.bindingsAgree := by
    refine ⟨fun a p => ?_, fun u p => ?_, fun p => ?_, fun p => ?_⟩
    · rw [agent, closed]; simp [Position.closedContents]
    · rw [trunk, closed]; simp [Position.closedContents]
    · rw [closed]; rfl
    · rw [closed]; rfl
  have silent : State.reset.highway.inStep :=
    Highway.inStep_of_silenced rfl (fun a x hx => absurd hx (by simp [agent a])) (fun u x hx => absurd hx (by simp [trunk u]))
  exact ⟨agree, silent, fun _ => ⟨none, rfl⟩⟩

/-- The monitor of a part that has not run is LOST, and is LOST when it begins (R12). -/
theorem Highway.begun_inStep {h : Highway} (inStep : h.inStep) (lost : ∃ held, h.sync = .lost held) : h.begun.inStep := by
  obtain ⟨held, lost⟩ := lost
  obtain ⟨agent, trunk, due⟩ := inStep
  have gathered : h.gathered = h.begun.gathered := by simp [Highway.gathered, Highway.begun, lost]
  rw [gathered] at agent trunk
  refine ⟨agent, trunk, fun k => ?_⟩
  obtain ⟨start, locked⟩ := due k
  rw [lost] at locked
  cases locked

theorem exec_timeslotsSound {c : Instr} {s t : State} (sound : s.timeslotsSound) (h : exec c s = .next t) :
    t.timeslotsSound := by
  by_cases apart : .phase ∉ commandParts c ∧ .highway ∉ commandParts c
  · have touched := exec_touches h
    exact State.timeslotsSound_of_kept sound (touched .phase apart.1) (touched .highway apart.2)
      (exec_slotsKept h apart.2 apart.1)
  cases c with
  | pinReset =>
    cases h
    exact reset_timeslotsSound s.pending s.freeCount
  | startUpWordShifted word =>
    obtain rfl | ⟨shifting, rfl⟩ := startUpWordShifted_next h
    · exact sound
    · obtain ⟨agree, inStep, lost⟩ := sound
      exact ⟨agree, inStep, fun _ => lost (by simp [shifting])⟩
  | startUpMemoryPreparationComplete =>
    obtain rfl | ⟨preparing, rfl⟩ := startUpMemoryPreparationComplete_next h
    · exact sound
    · obtain ⟨agree, inStep, lost⟩ := sound
      exact ⟨agree, Highway.begun_inStep inStep (lost (by simp [preparing])), fun running => absurd rfl running⟩
  | cycle trunkRx agentRx agentSig =>
    obtain e | ⟨running, e⟩ := cycle_next h <;> rw [e]
    · exact sound
    · exact State.cycled_sound (State.settle_sound sound) ((s.settle_touches .phase (by decide)).trans running)
        s.settle_notDue trunkRx agentRx agentSig
  | debounceCountExpiry slot =>
    cases h
    exact State.expireSlot_sound sound slot
  | frameCompletion =>
    cases h
    split
    · exact State.settle_sound sound
    · exact sound
  | syncLossMissingPulse =>
    obtain e | e := syncLossMissingPulse_next h <;> rw [e]
    · exact sound
    · exact State.loseSync_sound (State.settle_sound sound) s.settle_notDue none 1
  | fsPulse bit =>
    obtain e | ⟨running, e⟩ := fsPulse_next h <;> rw [e]
    · exact sound
    · exact State.pulsed_sound (State.settle_sound sound) ((s.settle_touches .phase (by decide)).trans running)
        s.settle_notDue bit
  | resetPort port =>
    exact timeslotsSound_of_request h sound fun u hu => State.answer_sound (State.resetTeardown_sound hu port) port _ _
  | openPosition port position slot tail profile =>
    refine timeslotsSound_of_request h sound fun u hu => ?_
    split
    · refine State.checked_sound hu fun passed => ?_
      simp only [List.forall_mem_cons, decide_eq_false_iff_not] at passed
      obtain ⟨-, -, closed, free, -⟩ := passed
      exact State.openAccepted_sound hu port _ _ (by simpa using closed) (by simpa using free)
    · exact State.answer_sound hu port _ _
  | closePosition port position =>
    refine timeslotsSound_of_request h sound fun u hu => State.withNumber_keeps (State.answer_sound hu port · [])
      fun p => State.checked_sound hu fun passed => ?_
    simp only [List.forall_mem_cons, decide_eq_false_iff_not] at passed
    obtain ⟨-, -, notInCall, -⟩ := passed
    exact State.answer_sound (State.assignPlayers_sound (State.closing_sound hu .close notInCall)) port _ _
  | connect port position trunk prompt stream =>
    refine timeslotsSound_of_request h sound fun u hu => ?_
    split
    · refine State.checked_sound hu fun passed => ?_
      simp only [List.forall_mem_cons, decide_eq_false_iff_not] at passed
      obtain ⟨-, -, idle, free, -⟩ := passed
      exact State.connect_sound hu port _ _ (by simpa using idle) (by simpa using free)
    · exact State.answer_sound hu port _ _
  | release port position =>
    refine timeslotsSound_of_request h sound fun u hu => State.withNumber_keeps (State.answer_sound hu port · [])
      fun p => State.checked_sound hu fun passed => ?_
    simp only [List.forall_mem_cons, decide_eq_false_iff_not] at passed
    obtain ⟨notClosed, -⟩ := passed
    exact State.answer_sound (State.assignPlayers_sound (State.releasing_sound hu .release notClosed)) port _ _
  | _ => exact absurd (by simp [commandParts, grantParts]) apart

/-- Settles O58: every command keeps the invariant, and the queue is no part of it. -/
theorem timeslotsStaySound : Obligations.TimeslotsStaySound := by
  intro s t sound h
  unfold step at h
  split at h
  · cases h; exact sound
  · next c rest _ => exact exec_timeslotsSound (s := { s with pending := rest }) sound h

end Sys2Proof.Machine
end

section
/-! PROOFS. The two companding laws (R14 to R17): what compression takes of a sample, and expansion of a code. -/

namespace Sys2Proof.Machine

/-! ## The fields of a code (R15, R17) -/

/-- The four lowest bits of a code. -/
theorem code_low (c : Byte) : (c.extractLsb' 0 4).toNat = c.toNat % 16 := by
  rw [BitVec.extractLsb'_toNat, Nat.shiftRight_zero]

/-- The three bits below the highest one. -/
theorem code_middle (c : Byte) : (c.extractLsb' 4 3).toNat = c.toNat / 16 % 8 := by
  rw [BitVec.extractLsb'_toNat, Nat.shiftRight_eq_div_pow]

/-- The highest bit. -/
theorem code_high (c : Byte) : c.getLsbD 7 = true ↔ c.toNat / 128 = 1 := by
  have bound := c.isLt
  rw [← BitVec.testBit_toNat, Nat.testBit_eq_decide_div_mod_eq, decide_eq_true_eq]
  omega

/-! ## μ-law (R14, R15) -/

/-- The exponent of a magnitude is the one whose range holds it. -/
theorem muExponent_spec {m : Nat} (low : 132 ≤ m) (high : m ≤ 32767) :
    2 ^ (Nat.log2 m - 7 + 7) ≤ m ∧ m < 2 ^ (Nat.log2 m - 7 + 8) ∧ Nat.log2 m - 7 ≤ 7 := by
  have nonzero : m ≠ 0 := by omega
  have least : 7 ≤ Nat.log2 m := (Nat.le_log2 nonzero).mpr (by omega)
  have most : Nat.log2 m < 15 := (Nat.log2_lt nonzero).mpr (by omega)
  rw [show Nat.log2 m - 7 + 7 = Nat.log2 m by omega, show Nat.log2 m - 7 + 8 = Nat.log2 m + 1 by omega]
  exact ⟨Nat.log2_self_le nonzero, Nat.lt_log2_self, by omega⟩

theorem muCompress_highest {x : Int} (h : 32635 ≤ x) : muCompress x = 0x80 := by
  have sign : ¬ x < 0 := by omega
  have clipped : min x.natAbs 32635 = 32635 := by omega
  simp only [muCompress, sign, clipped, if_false]
  decide

theorem muCompress_lowest {x : Int} (h : x ≤ -32635) : muCompress x = 0x00 := by
  have sign : x < 0 := by omega
  have clipped : min x.natAbs 32635 = 32635 := by omega
  simp only [muCompress, sign, clipped, if_true]
  decide

/-- The magnitude of an expanded μ-law code, by its exponent and mantissa. -/
def muMagnitude (mantissa exponent : Nat) : Int := ((mantissa : Int) * 8 + 132) * 2 ^ exponent - 132

theorem muMagnitude_range {mantissa exponent : Nat} (hm : mantissa < 16) (he : exponent < 8) :
    0 ≤ muMagnitude mantissa exponent ∧ muMagnitude mantissa exponent ≤ 32124 := by
  have least : (1 : Int) ≤ 2 ^ exponent := one_le_pow₀ (by norm_num)
  have most : (2 : Int) ^ exponent ≤ 2 ^ 7 := pow_le_pow_right₀ (by norm_num) (by omega)
  unfold muMagnitude
  constructor
  · nlinarith
  · nlinarith

theorem muExpand_eq (code : Byte) :
    muExpand code = (if (~~~ code).getLsbD 7
      then -muMagnitude ((~~~ code).extractLsb' 0 4).toNat ((~~~ code).extractLsb' 4 3).toNat
      else muMagnitude ((~~~ code).extractLsb' 0 4).toNat ((~~~ code).extractLsb' 4 3).toNat) := by
  simp only [muExpand, muMagnitude, code_low, code_middle, code_high, Nat.shiftLeft_eq]
  push_cast
  rfl

theorem muExpand_range (code : Byte) : -32124 ≤ muExpand code ∧ muExpand code ≤ 32124 := by
  have range := muMagnitude_range ((~~~ code).extractLsb' 0 4).isLt ((~~~ code).extractLsb' 4 3).isLt
  rw [muExpand_eq]
  split <;> omega

/-- Settles O15: the exponent's range and the expansion's bounds are the two facts behind the formulas. -/
theorem muLaw : Obligations.MuLaw := by
  refine ⟨fun x low high => ?_, fun x h _ => muCompress_highest h, fun x _ h => muCompress_lowest h,
    fun code => ⟨muExpand_eq code, muExpand_range code⟩⟩
  have least : 132 ≤ min x.natAbs 32635 + 132 := by omega
  have most : min x.natAbs 32635 + 132 ≤ 32767 := by omega
  obtain ⟨above, below, exponent⟩ := muExponent_spec least most
  exact ⟨_, _, Nat.log2 (min x.natAbs 32635 + 132) - 7, _, rfl, rfl, least, most, above, below, exponent,
    by rw [Nat.shiftRight_eq_div_pow], rfl⟩

/-! ## A-law (R16, R17) -/

/-- Above the bound of segment `n` lies above the bounds of all segments up to it. -/
theorem above_bounds {n p : Nat} (h : ¬ p ≤ 32 * 2 ^ n - 1) : ∀ k < n + 1, 32 * 2 ^ k - 1 < p := fun _ hk =>
  lt_of_le_of_lt (Nat.sub_le_sub_right (Nat.mul_le_mul_left 32 (Nat.pow_le_pow_right (by decide) (Nat.le_of_lt_succ hk))) 1)
    (Nat.lt_of_not_le h)

/-- The segment of `p` is the smallest whose bound is at least `p` (R16). -/
theorem aSegment_spec {p : Nat} (h : p ≤ 4095) :
    aSegment p ≤ 7 ∧ p ≤ 32 * 2 ^ aSegment p - 1 ∧ ∀ k < aSegment p, 32 * 2 ^ k - 1 < p := by
  unfold aSegment
  split_ifs with h0 h1 h2 h3 h4 h5 h6
  · exact ⟨by decide, h0, fun k hk => absurd hk (Nat.not_lt_zero k)⟩
  · exact ⟨by decide, h1, above_bounds (n := 0) h0⟩
  · exact ⟨by decide, h2, above_bounds (n := 1) h1⟩
  · exact ⟨by decide, h3, above_bounds (n := 2) h2⟩
  · exact ⟨by decide, h4, above_bounds (n := 3) h3⟩
  · exact ⟨by decide, h5, above_bounds (n := 4) h4⟩
  · exact ⟨by decide, h6, above_bounds (n := 5) h5⟩
  · exact ⟨by decide, h, above_bounds (n := 6) h6⟩

/-- The thirteen-bit value of a sample, without its sign (R16). -/
def aMagnitude (x : Int) : Nat := if x / 8 < 0 then (-(x / 8) - 1).toNat else (x / 8).toNat

theorem aMagnitude_eq (x : Int) : (aMagnitude x : Int) = if x / 8 < 0 then -(x / 8) - 1 else x / 8 := by
  unfold aMagnitude
  split <;> omega

theorem aMagnitude_le {x : Int} (low : -32768 ≤ x) (high : x ≤ 32767) : aMagnitude x ≤ 4095 := by
  unfold aMagnitude
  split <;> omega

theorem aCompress_eq {x : Int} (low : -32768 ≤ x) (high : x ≤ 32767) :
    aCompress x = BitVec.ofNat 8 (aSegment (aMagnitude x) * 16 + (if aSegment (aMagnitude x) ≤ 1 then aMagnitude x / 2 % 16
      else aMagnitude x / 2 ^ aSegment (aMagnitude x) % 16)) ^^^ (if x / 8 < 0 then 0x55 else 0xD5) := by
  have inside : aSegment (aMagnitude x) ≠ 8 := by
    have := (aSegment_spec (aMagnitude_le low high)).1
    omega
  have eighth : shiftRight x 3 = x / 8 := shiftRight_eq_div x 3
  have magnitude : (if x / 8 < 0 then (-(x / 8) - 1).toNat else (x / 8).toNat) = aMagnitude x := rfl
  simp only [aCompress, eighth, magnitude, inside, if_false, Nat.shiftRight_eq_div_pow, pow_one]
  split <;> rfl

/-- The magnitude of an expanded A-law code, by its mantissa and segment (R17). -/
def aExpanded (mantissa segment : Nat) : Int :=
  if segment = 0 then ((mantissa * 16 : Nat) : Int) + 8 else (((mantissa * 16 : Nat) : Int) + 264) * 2 ^ (segment - 1)

theorem aExpanded_range {mantissa segment : Nat} (hm : mantissa < 16) (hs : segment < 8) :
    8 ≤ aExpanded mantissa segment ∧ aExpanded mantissa segment ≤ 32256 := by
  have least : (1 : Int) ≤ 2 ^ (segment - 1) := one_le_pow₀ (by norm_num)
  have most : (2 : Int) ^ (segment - 1) ≤ 2 ^ 6 := pow_le_pow_right₀ (by norm_num) (by omega)
  unfold aExpanded
  split
  · omega
  · constructor
    · nlinarith
    · push_cast; nlinarith

theorem aExpand_eq (code : Byte) :
    aExpand code = (if (code ^^^ 0x55).getLsbD 7
      then aExpanded ((code ^^^ 0x55).extractLsb' 0 4).toNat ((code ^^^ 0x55).extractLsb' 4 3).toNat
      else -aExpanded ((code ^^^ 0x55).extractLsb' 0 4).toNat ((code ^^^ 0x55).extractLsb' 4 3).toNat) := by
  simp only [aExpand, aExpanded, code_low, code_middle, code_high, Nat.shiftLeft_eq]
  push_cast
  rfl

theorem aExpand_range (code : Byte) : -32256 ≤ aExpand code ∧ aExpand code ≤ 32256 ∧ aExpand code ≠ 0 := by
  have range := aExpanded_range ((code ^^^ 0x55).extractLsb' 0 4).isLt ((code ^^^ 0x55).extractLsb' 4 3).isLt
  rw [aExpand_eq]
  split <;> omega

/-- Settles O16: the segment is the smallest one by `aSegment_spec`, and the rest are the formulas. -/
theorem aLaw : Obligations.ALaw := by
  refine ⟨fun x low high => ?_, fun code => ⟨aExpand_eq code, aExpand_range code⟩⟩
  have bound := aMagnitude_le low high
  obtain ⟨last, within, smallest⟩ := aSegment_spec bound
  exact ⟨aMagnitude x, aSegment (aMagnitude x), _, aMagnitude_eq x, bound, last, within, smallest, rfl,
    aCompress_eq low high⟩

end Sys2Proof.Machine
end

section
/-! PROOFS. The values of the records after pin reset (R18, R21, R46, R57, R62, R63, R66, R93, R96, R104, R121, R140, R157, R162,
R169, R172, R185). -/

namespace Sys2Proof.Machine

/-- The profiles of R57: their floors' minimum, thresholds and gains. -/
theorem profile_atReset (n : Fin 4) : (State.reset.profile n).nmin = 512
    ∧ (State.reset.profile n).threshold = [4, 3, 4, 5].getD n.val 0
    ∧ (State.reset.profile n).gains.toList = (match n with
      | 0 => List.replicate 16 32768
      | 1 => [16384, 16384, 20643, 26008] ++ List.replicate 12 32768
      | 2 => [8192, 8192, 11585, 16384, 23170] ++ List.replicate 11 32768
      | 3 => [3277, 4096, 6500, 10362, 16384, 26008] ++ List.replicate 10 32768) := by
  fin_cases n <;> exact ⟨rfl, rfl, rfl⟩

/-- Each control port at reset, with its fault record and its event state (R121, R169, R172, R185). -/
theorem port_atReset (port : Port) : State.reset.fault port = ⟨none, 0⟩ ∧ State.reset.port port = ⟨false, none, none, 0⟩
    ∧ State.reset.eventsOf port = EventState.atReset := by
  cases port <;> exact ⟨rfl, rfl, rfl⟩

/-- Settles O8: every table of the reset state holds one value throughout, but for the profiles. -/
theorem stateAfterPinReset : Obligations.StateAfterPinReset := by
  refine ⟨fun p => Table.cell_fill _ p,
    fun a => ⟨Table.cell_fill _ a, Table.cell_fill _ a, Table.cell_fill _ a⟩,
    fun p => Table.cell_fill _ p, profile_atReset,
    fun p => Table.cell_fill _ p, rfl,
    fun g i => ?_,
    fun t => Table.cell_fill _ t, fun p => Table.cell_fill _ p, fun c => Table.cell_fill _ c, fun k => Table.cell_fill _ k,
    fun p => Table.cell_fill _ p, rfl, fun w => Table.cell_fill _ w, fun port => ?_⟩
  · show ((Table.fill 128 (Table.fill 128 (0 : Int))).cell g).cell i = 0
    rw [Table.cell_fill, Table.cell_fill]
  · obtain ⟨fault, port, events⟩ := port_atReset port
    rw [events]
    exact ⟨fault, port, rfl, rfl, rfl, rfl⟩

end Sys2Proof.Machine
end

section
/-! PROOFS. The highway interface: what is due and what settles it, debounce expiries, cycles, and the sync monitor (R3, R5 to
R7, R9 to R12, R18, R19). -/

namespace Sys2Proof.Machine

/-! ## What is due (log entry 7) -/

theorem State.settle_phase (s : State) : s.settle.phase = s.phase := s.settle_touches .phase (by decide)

theorem State.settle_notRunning (s : State) (h : s.phase ≠ .running) : s.settle.phase ≠ .running := by
  rw [s.settle_phase]
  exact h

/-- The expiries change nothing of the interface but the debounce states. -/
theorem State.settleDebounce_only (s : State) :
    ∃ d, s.settleDebounce.highway = { s.highway with debounce := d } := ⟨_, s.settleDebounce_highway⟩

theorem State.settleDebounce_frameDue (s : State) : s.settleDebounce.highway.frameDue = s.highway.frameDue := by
  obtain ⟨d, highway⟩ := s.settleDebounce_only
  rw [highway]

theorem State.settleDebounce_sync (s : State) : s.settleDebounce.highway.sync = s.highway.sync := by
  obtain ⟨d, highway⟩ := s.settleDebounce_only
  rw [highway]

theorem State.settleDebounce_settleDebounce (s : State) : s.settleDebounce.settleDebounce = s.settleDebounce :=
  State.settleDebounce_of_none_due s.settleDebounce_none_due

theorem State.settle_of_frameDue {s : State} (due : s.highway.frameDue = true) :
    s.settle = s.settleDebounce.completeFrame := by
  unfold State.settle State.settleFrame
  rw [s.settleDebounce_frameDue, if_pos due]

theorem State.settle_of_not_frameDue {s : State} (due : s.highway.frameDue = false) : s.settle = s.settleDebounce := by
  unfold State.settle State.settleFrame
  rw [s.settleDebounce_frameDue, due]
  rfl

theorem State.settle_settleDebounce (s : State) : s.settleDebounce.settle = s.settle := by
  unfold State.settle
  rw [s.settleDebounce_settleDebounce]

theorem State.completeFrame_sync (s : State) : s.completeFrame.highway.sync = s.highway.sync := by
  obtain ⟨-, -, -, sync, -⟩ := s.completeFrame_highway
  exact sync

theorem State.completeFrame_debounce (s : State) : s.completeFrame.highway.debounce = s.highway.debounce := by
  obtain ⟨-, -, -, -, debounce, -⟩ := s.completeFrame_highway
  exact debounce

theorem State.settle_debounce (s : State) : s.settle.highway.debounce = s.settleDebounce.highway.debounce := by
  cases due : s.highway.frameDue with
  | true => rw [State.settle_of_frameDue due, State.completeFrame_debounce]
  | false => rw [State.settle_of_not_frameDue due]

theorem State.settle_sync (s : State) : s.settle.highway.sync = s.highway.sync := by
  cases due : s.highway.frameDue with
  | true => rw [State.settle_of_frameDue due, State.completeFrame_sync, s.settleDebounce_sync]
  | false => rw [State.settle_of_not_frameDue due, s.settleDebounce_sync]

/-- Settling leaves nothing due. -/
theorem State.settle_quiet (s : State) : s.settle.quiet := by
  refine ⟨s.settle_notDue, fun a => ?_⟩
  unfold State.debounced
  rw [s.settle_debounce]
  exact s.settleDebounce_none_due a

theorem State.settle_of_quiet {s : State} (quiet : s.quiet) : s.settle = s := by
  obtain ⟨due, expiries⟩ := quiet
  rw [State.settle_of_not_frameDue due, State.settleDebounce_of_none_due expiries]

theorem State.settle_settle (s : State) : s.settle.settle = s.settle := State.settle_of_quiet s.settle_quiet

/-! ## The events, by the part's phase and the sync monitor -/

theorem exec_cycle {s : State} (running : s.phase = .running) (trunkRx agentRx agentSig : LineBits) :
    exec (.cycle trunkRx agentRx agentSig) s = .next (s.settle.cycled trunkRx agentRx agentSig) := by
  show execCycle trunkRx agentRx agentSig s = _
  unfold execCycle
  rw [running]

theorem exec_cycle_before {s : State} (notRunning : s.phase ≠ .running) (trunkRx agentRx agentSig : LineBits) :
    exec (.cycle trunkRx agentRx agentSig) s = .next s := by
  show execCycle trunkRx agentRx agentSig s = _
  unfold execCycle
  split
  · next running => exact absurd running notRunning
  · rfl
  · rfl

theorem exec_fsPulse {s : State} (running : s.phase = .running) (bit : Nat) :
    exec (.fsPulse bit) s = .next (s.settle.pulsed bit) := by
  show execFsPulse bit s = _
  unfold execFsPulse
  rw [running]

theorem exec_fsPulse_before {s : State} (notRunning : s.phase ≠ .running) (bit : Nat) :
    exec (.fsPulse bit) s = .next s := by
  show execFsPulse bit s = _
  unfold execFsPulse
  split
  · next running => exact absurd running notRunning
  · rfl
  · rfl

theorem exec_syncLossMissingPulse {s : State} {start : Nat} {cycle : Fin 32} (running : s.phase = .running)
    (locked : s.highway.sync = .locked start cycle) :
    exec .syncLossMissingPulse s = .next (s.settle.loseSync none 1) := by
  show execSyncLossMissingPulse s = _
  unfold execSyncLossMissingPulse
  rw [running, locked]

/-- A missing pulse is looked for only while LOCKED, in a part that runs (log entry 3). -/
theorem exec_syncLossMissingPulse_ignored {s : State}
    (h : s.phase ≠ .running ∨ ∃ held, s.highway.sync = .lost held) : exec .syncLossMissingPulse s = .next s := by
  show execSyncLossMissingPulse s = _
  unfold execSyncLossMissingPulse
  split
  · next running locked =>
    obtain notRunning | ⟨held, lost⟩ := h
    · exact absurd running notRunning
    · rw [locked] at lost
      cases lost
  · rfl
  · rfl
  · rfl

/-- Settles O10: settling leaves the part quiet, and a quiet part is settled. -/
theorem dueEffectsAreTakenFirst : Obligations.DueEffectsAreTakenFirst := by
  refine ⟨fun s trunkRx agentRx agentSig => ?_, fun s bit => ?_, fun s start cycle locked => ?_,
    fun s h => exec_syncLossMissingPulse_ignored h, State.settle_quiet, fun s quiet => State.settle_of_quiet quiet, fun s => ?_⟩
  · split
    · next running => rw [exec_cycle running, exec_cycle (s.settle_phase.trans running), s.settle_settle]
    · next notRunning => exact exec_cycle_before (s.settle_notRunning notRunning) _ _ _
  · split
    · next running => rw [exec_fsPulse running, exec_fsPulse (s.settle_phase.trans running), s.settle_settle]
    · next notRunning => exact exec_fsPulse_before (s.settle_notRunning notRunning) bit
  · split
    · next running =>
      rw [exec_syncLossMissingPulse running locked,
        exec_syncLossMissingPulse (s.settle_phase.trans running) (s.settle_sync.trans locked), s.settle_settle]
    · next notRunning => exact exec_syncLossMissingPulse_ignored (.inl (s.settle_notRunning notRunning))
  · obtain ⟨u, start, done, next⟩ := foldl_finRange_states State.expireSlot s
    have settled : u 64 = s.settleDebounce := done.symm
    refine ⟨u, start, fun a => congrArg Host.Outcome.next (next a).symm, fun due => ?_, fun due => ⟨?_, ?_⟩⟩
    · rw [settled, State.settle_of_not_frameDue due]
    · exact congrArg Host.Outcome.next (if_pos due)
    · rw [settled, ← s.settle_settleDebounce]
      exact congrArg Host.Outcome.next (if_pos (s.settleDebounce_frameDue.trans due))

/-! ## Debounce expiries (R18, R19) -/

theorem State.expireSlot_of_due {s : State} {a : Fin 64}
    (due : (s.debounced a).presentCount = 24 ∨ (s.debounced a).muteCount = 24) :
    s.expireSlot a = (s.setDebounced a (s.debounced a).expired).headsetChange a (s.debounced a).changeDetail := by
  unfold State.expireSlot
  exact if_pos (by simpa [Debounce.presentDue, Debounce.muteDue] using due)

/-- Settles O11: an expiry is the new debounce state and HEADSET_CHANGE, which goes to the owner of the bound position. -/
theorem debounceExpiry : Obligations.DebounceExpiry := by
  intro s a due
  refine ⟨_, (s.debounced a).expired, (s.debounced a).changeDetail, congrArg Host.Outcome.next (State.expireSlot_of_due due),
    ?_, ?_, ?_, ?_, rfl, fun l bound => ?_, fun unbound => ?_⟩
  · simp [Debounce.expired, Debounce.presentDue]
  · simp [Debounce.expired, Debounce.muteDue]
  · simp [Debounce.expired, Debounce.presentDue]
  · simp [Debounce.expired, Debounce.muteDue]
  · unfold State.headsetChange
    rw [show (s.setDebounced a _).highway.agent.cell a = some l from bound]
    rfl
  · unfold State.headsetChange
    rw [show (s.setDebounced a _).highway.agent.cell a = none from unbound]

/-! ## Cycles (R3, R5 to R7, R9, R10, R18) -/

theorem nextCycle_eq (start : Nat) (cycle : Fin 32) :
    nextCycle start cycle = .locked (start + 512) (if cycle = 31 then 0 else cycle + 1) := by
  unfold nextCycle
  congr 1
  split
  · next within =>
    have : cycle ≠ 31 := fun e => by rw [e] at within; exact absurd within (by decide)
    rw [if_neg this]
    exact Fin.ext (Fin.val_add_one_of_lt (Fin.lt_last_iff_ne_last.mpr this)).symm
  · next beyond =>
    have : cycle = 31 := Fin.ext (by omega)
    rw [if_pos this]

/-- Settles O9: the fields of a locked cycle one by one, the two other kinds of cycle, and the levels of the transmit lines. -/
theorem cycles : Obligations.Cycles := by
  refine ⟨fun s start cycle trunkRx agentRx agentSig running quiet locked => ?_,
    fun s held trunkRx agentRx agentSig running quiet lost => ?_,
    fun s trunkRx agentRx agentSig notRunning => exec_cycle_before notRunning _ _ _, fun s period n i place => ?_⟩
  · have cycled : s.cycled trunkRx agentRx agentSig = s.lockedCycle start cycle trunkRx agentRx agentSig := by
      unfold State.cycled
      rw [locked]
    refine ⟨s.lockedCycle start cycle trunkRx agentRx agentSig, ?_, Touches.of_highway s _, nextCycle_eq start cycle, ?_, rfl, rfl,
      rfl, fun a => ⟨Table.cell_map _ _ _, slotCode agentRx a, slotCode_getMsbD agentRx a, Table.cell_build _ _⟩,
      fun u => ⟨Table.cell_map _ _ _, slotCode trunkRx u, slotCode_getMsbD trunkRx u, Table.cell_build _ _⟩, fun a => ?_⟩
    · rw [exec_cycle running, State.settle_of_quiet quiet, cycled]
    · exact decide_eq_true_iff.trans (Fin.ext_iff (b := 31)).symm
    · have sampled : (s.lockedCycle start cycle trunkRx agentRx agentSig).debounced a
          = (s.debounced a).sampled (slotSig agentSig a) := Table.cell_build _ a
      rw [sampled, ← slotSig_present, ← slotSig_mute]
      exact ⟨rfl, rfl, rfl, rfl⟩
  · rw [exec_cycle running, State.settle_of_quiet quiet]
    unfold State.cycled
    rw [lost]
    rfl
  · have here : period = slotPeriod n i := Fin.ext place
    rw [here]
    exact ⟨slotLevel_slotPeriod _ n i, slotLevel_slotPeriod _ n i⟩

/-! ## The sync monitor (R9, R11, R12, R48) -/

theorem State.setFirstFrames_suppressor (s : State) (p : Fin 64) : s.setFirstFrames.suppressor p
    = if (s.pos p).state = .closed then s.suppressor p else { s.suppressor p with firstFrame := true } :=
  Table.cell_build _ p

/-- The highway interface at an entry to LOCKED: every bound timeslot sends silence and begins a frame (R11). -/
theorem State.relocked_highway (s : State) (bit : Nat) : (s.relocked bit).highway = { s.highway with
    sync := .locked bit 0, firstFrame := true, lockedBefore := true
    agent := s.highway.agent.map fun (x : Option Line) => x.map fun (l : Line) => ⟨l.position, some [], Table.fill 32 s.silence⟩
    trunk := s.highway.trunk.map fun (x : Option TrunkLine) => x.map fun (l : TrunkLine) =>
      ⟨⟨l.line.position, some [], Table.fill 32 s.silence⟩, []⟩ } := by
  simp only [State.relocked, State.markFirstFrame, State.beginFrame, State.silencedLines, State.setSync, Vector.map_map]
  congr 2 <;> funext x <;> cases x <;> rfl

/-- Settles O13: the monitor's four cases, LOCKED or LOST and the pulse in its place or not. -/
theorem syncMonitor : Obligations.SyncMonitor := by
  refine ⟨fun s start cycle running quiet locked => ⟨?_, fun bit => ⟨fun away => ?_, fun inPlace => ?_⟩⟩,
    fun s held running quiet lost => ⟨exec_syncLossMissingPulse_ignored (.inr ⟨held, lost⟩), fun bit => ⟨fun other => ?_,
      fun restoring => ?_⟩⟩⟩
  · rw [exec_syncLossMissingPulse running locked, State.settle_of_quiet quiet]
    rfl
  · rw [exec_fsPulse running, State.settle_of_quiet quiet]
    unfold State.pulsed
    rw [locked]
    exact congrArg Host.Outcome.next (if_neg away)
  · rw [exec_fsPulse running, State.settle_of_quiet quiet]
    unfold State.pulsed
    rw [locked]
    exact congrArg Host.Outcome.next (if_pos inPlace)
  · rw [exec_fsPulse running, State.settle_of_quiet quiet]
    unfold State.pulsed
    rw [lost]
    exact congrArg Host.Outcome.next (if_neg other)
  · have restored : s.pulsed bit = s.restoreSync bit := by
      unfold State.pulsed
      rw [lost]
      exact if_pos restoring
    have marked : Touches [.highway, .suppress] s (s.relocked bit).setFirstFrames :=
      ((s.relocked_touches bit).mono (by decide)).trans ((State.setFirstFrames_touches _).mono (by decide))
    refine ⟨(s.relocked bit).setFirstFrames, ?_, marked, rfl, s.relocked_highway bit, State.setFirstFrames_suppressor _⟩
    rw [exec_fsPulse running, State.settle_of_quiet quiet, restored]
    cases before : s.highway.lockedBefore <;> simp [State.restoreSync, State.relocked, before]

end Sys2Proof.Machine
end

section
/-! PROOFS. The completion of a frame: its stages, the transmit buffers it leaves, and the samples of streams and prompt players
(R4 to R6, R20, R47, R88, R147, R150, R151, R164 to R166). -/

namespace Sys2Proof.Machine

/-! ## Streams (R88, R147, R150, R151) -/

theorem State.streamFrame_of_not_running {s : State} {k : Fin 16} (h : (s.stream k).state ≠ .running) :
    s.streamFrame k = (Table.fill 32 0, s) := by
  unfold State.streamFrame
  split
  · next running => exact absurd running h
  · rfl
  · rfl

theorem State.streamFrame_of_running {s : State} {k : Fin 16} (h : (s.stream k).state = .running) :
    s.streamFrame k = (Table.ofList 32 0 (State.streamSamples k 32 s).1, (State.streamSamples k 32 s).2) := by
  unfold State.streamFrame
  rw [h]

theorem State.endIfDone_of_done {s : State} {k : Fin 16} (playing : (s.stream k).playing = none)
    (next : (s.stream k).next = .empty) (cursor : (s.stream k).cursor = .exhausted) :
    s.endIfDone k
      = (s.setStream k { s.stream k with state := .ended }).fileOwner (s.stream k).owner .streamEnded k.val 0 := by
  unfold State.endIfDone
  simp only [playing, next, cursor]

theorem State.endIfDone_of_not_done {s : State} {k : Fin 16}
    (h : ¬((s.stream k).playing = none ∧ (s.stream k).next = .empty ∧ (s.stream k).cursor = .exhausted)) :
    s.endIfDone k = s := by
  unfold State.endIfDone
  dsimp only
  split
  · next playing next cursor => exact absurd ⟨playing, next, cursor⟩ h
  · rfl

theorem State.streamSample_of_playing {s : State} {k : Fin 16} {y : StreamPlaying} (running : (s.stream k).state = .running)
    (playing : (s.stream k).playing = some y) : s.streamSample k = s.streamPlay k y := by
  unfold State.streamSample
  rw [running, playing]

theorem State.streamTake_stream (s : State) (k : Fin 16) (page : StreamPage) :
    ((s.streamTake k page).stream k).state = (s.stream k).state
      ∧ ((s.streamTake k page).stream k).playing = some ⟨page, 0⟩ := by
  have kept := State.streamRequest_stream (s.setStream k { s.stream k with
    playing := some ⟨page, 0⟩, next := .empty, priming := false, underrun := false }) k k
  rw [State.setStream_stream, if_pos rfl] at kept
  exact ⟨kept.state, kept.playing⟩

/-- A page that moves into the playing slot is played from there, whatever the request that follows brings. -/
theorem State.streamSample_of_filled {s : State} {k : Fin 16} {page : StreamPage} (running : (s.stream k).state = .running)
    (playing : (s.stream k).playing = none) (next : (s.stream k).next = .filled page) :
    s.streamSample k = (s.streamTake k page).streamSample k := by
  have taken : s.streamSample k = (s.streamTake k page).streamPlay k ⟨page, 0⟩ := by
    unfold State.streamSample
    rw [running, playing, next]
  obtain ⟨state, slot⟩ := s.streamTake_stream k page
  rw [taken, State.streamSample_of_playing (state.trans running) slot]

theorem State.streamSample_of_awaited {s : State} {k : Fin 16} {item : Nat} (running : (s.stream k).state = .running)
    (playing : (s.stream k).playing = none) (next : (s.stream k).next = .awaited item) :
    s.streamSample k = (0, s.streamStarve k item) := by
  unfold State.streamSample
  rw [running, playing, next]

theorem State.streamSample_of_empty {s : State} {k : Fin 16} (running : (s.stream k).state = .running)
    (playing : (s.stream k).playing = none) (next : (s.stream k).next = .empty) :
    s.streamSample k = (0, s.endIfDone k) := by
  unfold State.streamSample
  rw [running, playing, next]

/-! ## Prompt players (R164, R165) -/

theorem withHeadPhase_eq (phase : EntryPhase) (q : List Entry) :
    withHeadPhase phase q = q.modifyHead fun e => { e with phase := phase } := by
  cases q <;> rfl

theorem State.playerOf_some {s : State} {p : Fin 64} {w : Fin 16} (h : s.playerOf p = some w) :
    (s.player w).assigned = some p := by
  simpa using List.find?_some h

theorem State.playerOf_none {s : State} {p : Fin 64} (h : s.playerOf p = none) (w : Fin 16) :
    (s.player w).assigned ≠ some p := by
  simpa using List.find?_eq_none.mp h w (List.mem_finRange w)

theorem State.sounding_iff (s : State) (p : Fin 64) :
    s.sounding p = true ↔ (s.queue p).head?.map Entry.phase = some .sounding := by
  unfold State.sounding
  cases (s.queue p).head? <;> simp

/-- A head begins to sound when it is PRIMING and its player's next slot is filled (R164). -/
theorem State.primed_iff (s : State) (p : Fin 64) : s.primed p = true ↔ ∃ e w page, (s.queue p).head? = some e
    ∧ e.phase = .priming ∧ s.playerOf p = some w ∧ (s.player w).next = .filled page := by
  unfold State.primed
  constructor
  · intro h
    split at h
    · next e page head next =>
      obtain ⟨w, player, filled⟩ := Option.map_eq_some_iff.mp next
      exact ⟨e, w, page, head, by simpa using h, player, filled⟩
    · cases h
  · rintro ⟨e, w, page, head, priming, player, filled⟩
    simp [head, priming, player, filled]

/-- What the frame completion does at one position's head (R164). -/
def State.soundHead (s : State) (p : Fin 64) : State :=
  if s.primed p then s.setQueue p (withHeadPhase .sounding (s.queue p)) else s

theorem State.soundHead_whisper (s : State) (p : Fin 64) :
    (s.soundHead p).whisper = { s.whisper with queues := (s.soundHead p).whisper.queues } := by
  unfold State.soundHead
  split
  · rfl
  · rfl

theorem State.soundHead_queue (s : State) (p q : Fin 64) : (s.soundHead p).queue q
    = if p = q ∧ s.primed q = true then withHeadPhase .sounding (s.queue q) else s.queue q := by
  unfold State.soundHead State.queue
  by_cases same : p = q
  · subst same
    by_cases primed : s.primed p = true
    · simp [primed, State.setQueue]
    · simp [primed]
  · split
    · simp [same, State.setQueue, Table.cell_put]
    · simp [same]

theorem State.soundHead_primed (s : State) {p q : Fin 64} (apart : p ≠ q) : (s.soundHead p).primed q = s.primed q := by
  have players : (s.soundHead p).whisper.players = s.whisper.players := by rw [State.soundHead_whisper]
  have queue : (s.soundHead p).queue q = s.queue q := by rw [State.soundHead_queue, if_neg fun h => apart h.1]
  unfold State.primed State.playerOf State.player
  rw [queue, players]

theorem soundHead_fold_queue (l : List (Fin 64)) (distinct : l.Nodup) (s : State) (q : Fin 64) :
    (l.foldl State.soundHead s).queue q
      = if q ∈ l ∧ s.primed q = true then withHeadPhase .sounding (s.queue q) else s.queue q := by
  induction l generalizing s with
  | nil => simp
  | cons p l ih =>
    obtain ⟨fresh, distinct⟩ := List.nodup_cons.mp distinct
    rw [List.foldl_cons, ih distinct, State.soundHead_queue]
    by_cases same : p = q
    · subst same
      simp [fresh]
    · rw [State.soundHead_primed s same]
      simp [same, Ne.symm same]

theorem State.soundHeads_eq (s : State) : s.soundHeads = (List.finRange 64).foldl State.soundHead s := rfl

theorem State.soundHeads_queue (s : State) (q : Fin 64) :
    s.soundHeads.queue q = if s.primed q then withHeadPhase .sounding (s.queue q) else s.queue q := by
  rw [s.soundHeads_eq, soundHead_fold_queue _ (List.nodup_finRange 64)]
  simp

theorem State.soundHeads_whisper (s : State) :
    s.soundHeads.whisper = { s.whisper with queues := s.soundHeads.whisper.queues } := by
  rw [s.soundHeads_eq]
  generalize List.finRange 64 = l
  induction l generalizing s with
  | nil => rfl
  | cons p l ih => rw [List.foldl_cons, ih, State.soundHead_whisper]

theorem State.whisperFrame_of_silent {s : State} {p : Fin 64} (h : s.sounding p = false) :
    s.whisperFrame p = (Table.fill 32 0, s) := by
  unfold State.whisperFrame
  rw [h]
  rfl

theorem State.whisperFrame_of_sounding {s : State} {p : Fin 64} {w : Fin 16} (player : s.playerOf p = some w)
    (h : s.sounding p = true) : s.whisperFrame p
      = (Table.ofList 32 0 (State.whisperSamples p w 32 s).1, (State.whisperSamples p w 32 s).2) := by
  unfold State.whisperFrame
  rw [h, player]
  rfl

theorem State.whisperSample_of_playing {s : State} {p : Fin 64} {w : Fin 16} {y : PromptPlaying}
    (playing : (s.player w).playing = some y) : s.whisperSample p w = s.promptPlay w y := by
  unfold State.whisperSample
  rw [playing]

theorem State.promptTake_player (s : State) (w : Fin 16) (page : PromptPage) :
    ((s.promptTake w page).player w).playing = some ⟨page, 0⟩ := by
  have kept := State.promptRequest_player (s.setPlayer w { s.player w with playing := some ⟨page, 0⟩, next := .empty }) w w
  rw [State.setPlayer_player, if_pos rfl] at kept
  exact kept.playing

theorem State.whisperSample_of_filled {s : State} {p : Fin 64} {w : Fin 16} {page : PromptPage}
    (playing : (s.player w).playing = none) (next : (s.player w).next = .filled page) :
    s.whisperSample p w = (s.promptTake w page).whisperSample p w := by
  have taken : s.whisperSample p w = (s.promptTake w page).promptPlay w ⟨page, 0⟩ := by
    unfold State.whisperSample
    rw [playing, next]
  rw [taken, State.whisperSample_of_playing (s.promptTake_player w page)]

theorem State.whisperSample_of_awaited {s : State} {p : Fin 64} {w : Fin 16} (playing : (s.player w).playing = none)
    (next : (s.player w).next = .awaited) : s.whisperSample p w = (0, s.whisperStarve p) := by
  unfold State.whisperSample
  rw [playing, next]

theorem State.whisperSample_of_empty {s : State} {p : Fin 64} {w : Fin 16} (playing : (s.player w).playing = none)
    (next : (s.player w).next = .empty) : s.whisperSample p w = (0, s) := by
  unfold State.whisperSample
  rw [playing, next]

/-! ## Ended entries (R31, R166) -/

/-- The entry at a head has left its queue, its clip is given up, its player is free, and PROMPT_DONE is filed (R166). -/
def State.entryDone (s : State) (p : Fin 64) (w : Fin 16) (e : Entry) (rest : List Entry) : State :=
  (((s.setQueue p rest).setClip e.clip { s.clip e.clip with plays := (s.clip e.clip).plays - 1 }).setPlayer w
    ⟨none, (s.player w).generation, .absent, .empty, none⟩).file e.origin .promptDone p.val
      (e.clip.val + if e.kind = .announce then 256 else 0)

theorem Entry.detail_eq (e : Entry) : e.detail = e.clip.val + if e.kind = .announce then 256 else 0 := by
  unfold Entry.detail
  cases e.kind <;> rfl

theorem State.entryDone_pos (s : State) (p q : Fin 64) (w : Fin 16) (e : Entry) (rest : List Entry) :
    (s.entryDone p w e rest).pos q = s.pos q :=
  State.file_keeps (fun t => t.pos q) (fun _ _ => rfl) _ _ _ _ _

theorem State.completeEntry_eq {s : State} {p : Fin 64} {e : Entry} {rest : List Entry} (queue : s.queue p = e :: rest)
    (w : Fin 16) : s.completeEntry p w e = (if e.kind = .announce then (s.entryDone p w e rest).announceEnded p false
      else s.entryDone p w e rest).assignPlayers := by
  unfold State.completeEntry
  rw [Entry.detail_eq, queue]
  rfl

theorem PromptPlayer.finished_iff (x : PromptPlayer) :
    x.finished = true ↔ x.playing = none ∧ x.next = .empty ∧ x.cursor = .done := by
  unfold PromptPlayer.finished
  constructor
  · intro h
    split at h
    · next playing next cursor => exact ⟨playing, next, cursor⟩
    · cases h
  · rintro ⟨playing, next, cursor⟩
    simp [playing, next, cursor]

theorem State.completeHead_eq {s : State} {p : Fin 64} {w : Fin 16} {e : Entry} {rest : List Entry}
    (player : s.playerOf p = some w) (queue : s.queue p = e :: rest) :
    s.completeHead p = if e.phase = .sounding ∧ (s.player w).playing = none ∧ (s.player w).next = .empty
      ∧ (s.player w).cursor = .done then s.completeEntry p w e else s := by
  unfold State.completeHead
  simp only [player, queue, List.head?_cons, Bool.and_eq_true, decide_eq_true_eq, PromptPlayer.finished_iff]

theorem State.announceEnded_of_announce {s : State} {p : Fin 64} (state : (s.pos p).state = .announce) :
    s.announceEnded p false = ((s.setPos p { s.pos p with state := .connected, stream := none }).dropListener
      (s.pos p).stream).fileOwner (s.pos p).owner .announceDone p.val 0 := by
  unfold State.announceEnded
  simp only [state]
  rfl

theorem State.announceEnded_of_held {s : State} {p : Fin 64} (state : (s.pos p).state = .held) :
    s.announceEnded p false = (s.setPos p { s.pos p with announcePending := false }).fileOwner (s.pos p).owner .announceDone
      p.val 0 := by
  unfold State.announceEnded
  simp only [state]
  rfl

/-! ## The transmit buffers (R6, R86) -/

theorem coded_eq (l : Law) (f : Frame) : coded l f = Table.build fun i => compress l (saturate (f.cell i)) :=
  Table.ext_cell fun i => by rw [Table.cell_build]; exact Table.cell_map _ _ _

theorem State.preMix_highway (s : State) : s.preMix.highway = s.stamped.highway := by
  unfold State.preMix
  rw [State.whisperFrames_touches _ .highway (by decide), State.soundHeads_touches _ .highway (by decide),
    State.streamFrames_touches _ .highway (by decide), State.suppressFrames_touches _ .highway (by decide),
    State.echoFrames_touches _ .highway (by decide)]

theorem State.preMix_law (s : State) : s.preMix.law = s.law := by
  unfold State.preMix State.law
  rw [State.whisperFrames_touches _ .startUp (by decide), State.soundHeads_touches _ .startUp (by decide),
    State.streamFrames_touches _ .startUp (by decide), State.suppressFrames_touches _ .startUp (by decide),
    State.echoFrames_touches _ .startUp (by decide)]
  rfl

/-- What follows the mixer at a frame completion keeps its ear frames in the agent timeslots' transmit buffers. -/
theorem State.mixed_agent (s : State) (m : MixInputs) (a : Fin 64) :
    (s.mix m).beginFrame.pastFirstFrame.completeHeads.highway.agent.cell a = (s.highway.agent.cell a).map fun l =>
      ⟨l.position, some [], Table.build fun i => compress s.law (saturate (s.earSum m l.position i))⟩ := by
  rw [State.completeHeads_touches _ .highway (by decide)]
  simp only [State.pastFirstFrame, State.beginFrame, State.mix, State.earBuffers, Table.cell_map, coded_eq, Table.cell_build,
    State.earSums]
  cases s.highway.agent.cell a <;> rfl

theorem State.mixed_trunk (s : State) (m : MixInputs) (u : Fin 64) :
    (s.mix m).beginFrame.pastFirstFrame.completeHeads.highway.trunk.cell u = (s.highway.trunk.cell u).map fun l =>
      ⟨⟨l.line.position, some [], Table.build fun i => compress s.law (saturate ((s.trunkSend m l.line.position).cell i))⟩,
        []⟩ := by
  rw [State.completeHeads_touches _ .highway (by decide)]
  simp only [State.pastFirstFrame, State.beginFrame, State.mix, State.trunkBuffers, Table.cell_map, coded_eq]
  cases s.highway.trunk.cell u <;> rfl

/-! ## The blocks after a completion (R47, R93) -/

theorem State.completeFrame_suppressor (s : State) (p : Fin 64) : s.completeFrame.suppressor p = s.suppress1 p := by
  unfold State.suppressor
  rw [s.completeFrame_suppress]
  exact s.suppressFrames_suppressor p

theorem State.suppressFrames_profiles (s : State) : s.suppressFrames.suppress.profiles = s.suppress.profiles := rfl

theorem State.completeFrame_profiles (s : State) : s.completeFrame.suppress.profiles = s.suppress.profiles := by
  rw [s.completeFrame_suppress, State.suppressFrames_profiles, State.echoFrames_touches _ .suppress (by decide)]
  rfl

theorem State.updateCoachDuck_taps (s : State) : s.updateCoachDuck.mixer.taps = s.mixer.taps := rfl

theorem State.completeFrame_taps (s : State) : s.completeFrame.mixer.taps = s.mixer.taps := by
  rw [s.completeFrame_mixer, State.updateCoachDuck_taps, s.preMix_mixer]

theorem State.updateCoachDuck_coachDuck (s : State) (p : Fin 64) : s.updateCoachDuck.coachDuck p = s.coachDuckAfter p :=
  Table.cell_build _ p

/-- The hangovers follow the SPEECH flags that the suppressor leaves at this completion. -/
theorem State.completeFrame_coachDuck (s : State) (p : Fin 64) :
    s.completeFrame.coachDuck p = s.suppressFrames.coachDuckAfter p := by
  have updated : s.completeFrame.coachDuck p = s.preMix.coachDuckAfter p := by
    rw [← State.updateCoachDuck_coachDuck]
    unfold State.coachDuck
    rw [s.completeFrame_mixer]
  have speech : ∀ q, s.preMix.suppressor q = s.suppressFrames.suppressor q := fun q =>
    (s.preMix_suppressor q).trans (Table.cell_build _ q).symm
  rw [updated]
  exact State.coachDuckAfter_congr (s := s.suppressFrames) s.preMix_state s.preMix_mixer speech p

/-- The mixer finds the lines of before the completion, and their law. -/
theorem State.mixing_lines (s : State) : s.settleDebounce.preMix.updateCoachDuck.law = s.law
    ∧ s.settleDebounce.preMix.updateCoachDuck.highway.agent = s.highway.agent
    ∧ s.settleDebounce.preMix.updateCoachDuck.highway.trunk = s.highway.trunk := by
  obtain ⟨d, highway⟩ := s.settleDebounce_only
  have lines : s.settleDebounce.preMix.updateCoachDuck.highway = s.settleDebounce.stamped.highway :=
    (State.updateCoachDuck_touches _ .highway (by decide)).trans (State.preMix_highway _)
  have law : s.settleDebounce.law = s.law := congrArg StartUp.law (s.settleDebounce_touches .startUp (by decide))
  refine ⟨?_, ?_, ?_⟩
  · exact (congrArg StartUp.law (State.updateCoachDuck_touches _ .startUp (by decide))).trans
      ((State.preMix_law _).trans law)
  · rw [lines, State.stamped, highway]
  · rw [lines, State.stamped, highway]

/-! ## The statement -/

theorem exec_frameCompletion {s : State} (due : s.highway.frameDue = true) :
    exec .frameCompletion s = .next s.settleDebounce.completeFrame := by
  rw [← State.settle_of_frameDue due]
  exact congrArg Host.Outcome.next (if_pos due)

/-- Settles O12: the blocks after a completion, its stages, the folds over streams and positions, and then one stream and one
position at a time. -/
theorem frameCompletion : Obligations.FrameCompletion := by
  refine ⟨fun s due expiries => ?_, fun s due => ?_, fun s => ?_, fun s => ⟨?_, ?_, ?_⟩, fun s k => ?_, fun s p => ?_⟩
  · have settled : s.settleDebounce = s := State.settleDebounce_of_none_due fun a =>
      ⟨decide_eq_false (expiries a).1, decide_eq_false (expiries a).2⟩
    obtain ⟨taken, first, stamp, sync, debounce, -, agent, trunk⟩ := s.completeFrame_highway
    exact ⟨s.completeFrame, by rw [exec_frameCompletion due, settled], stamp, taken, first, sync, debounce, agent, trunk,
      s.completeFrame_suppressor, s.completeFrame_profiles, s.completeFrame_touches .memory (by decide), s.completeFrame_taps,
      s.completeFrame_coachDuck⟩
  · obtain ⟨law, agent, trunk⟩ := s.mixing_lines
    unfold State.preMix at law agent trunk
    refine ⟨exec_frameCompletion due, fun a => ?_, fun u => ?_⟩
    · rw [State.mixed_agent, law, agent]
    · rw [State.mixed_trunk, law, trunk]
  · exact ⟨rfl, rfl, rfl, rfl, rfl, fun _ => rfl, s.echoFrames_touches, s.streamFrames_touches,
      s.whisperFrames_touches.mono (by decide), s.completeHeads_touches.mono (by decide)⟩
  · exact foldl_finRange_cells State.streamFrame (Table.fill 16 Frame.zero) s
  · exact foldl_finRange_cells State.whisperFrame (Table.fill 64 Frame.zero) s
  · exact foldl_finRange_states State.completeHead s
  · refine ⟨State.streamFrame_of_not_running, State.streamFrame_of_running, rfl, fun n => rfl, State.endIfDone_of_done,
      State.endIfDone_of_not_done, fun running => ⟨fun y playing => ?_, fun page playing next => ?_,
        fun item playing next => ?_, fun playing next => State.streamSample_of_empty running playing next⟩⟩
    · rw [State.streamSample_of_playing running playing, ← applyGain_eq]
      rfl
    · exact State.streamSample_of_filled running playing next
    · exact State.streamSample_of_awaited running playing next
  · refine ⟨fun begins => ?_, fun remains => ?_, s.soundHeads_whisper, s.soundHeads_touches, fun w => State.playerOf_some,
      State.playerOf_none, s.sounding_iff p, State.whisperFrame_of_silent, fun w player => ?_⟩
    · rw [s.soundHeads_queue, if_pos ((s.primed_iff p).mpr begins), withHeadPhase_eq]
    · rw [s.soundHeads_queue, if_neg fun primed => remains ((s.primed_iff p).mp primed)]
    · refine ⟨State.whisperFrame_of_sounding player, rfl, fun n => rfl, fun y playing => State.whisperSample_of_playing playing,
        fun page => State.whisperSample_of_filled, State.whisperSample_of_awaited, State.whisperSample_of_empty,
        fun e rest queue => ⟨fun ends kind => ?_, fun ends kind state => ?_, fun ends kind state => ?_, fun lasts => ?_⟩⟩
      · rw [State.completeHead_eq player queue, if_pos ends, State.completeEntry_eq queue, if_neg (by simp [kind])]
        rfl
      · rw [State.completeHead_eq player queue, if_pos ends, State.completeEntry_eq queue, if_pos kind,
          State.announceEnded_of_announce (by rw [State.entryDone_pos]; exact state), State.entryDone_pos]
        rfl
      · rw [State.completeHead_eq player queue, if_pos ends, State.completeEntry_eq queue, if_pos kind,
          State.announceEnded_of_held (by rw [State.entryDone_pos]; exact state), State.entryDone_pos]
        rfl
      · rw [State.completeHead_eq player queue, if_neg lasts]

end Sys2Proof.Machine
end


section
/-! PROOFS. What a flush, an assignment of players, a release and a closure leave in each block (R25, R30, R31, R101, R115,
R127, R157, R161, R163). -/

namespace Sys2Proof.Machine

/-! ## The end of an announcement (R31) -/

/-- The record of a position whose ANNOUNCE entry has left its queue (R31, R33). -/
def Position.announced (x : Position) : Position :=
  match x.state with
  | .announce => { x with state := .connected, stream := none }
  | .held => { x with announcePending := false }
  | .closed => x
  | .idle => x
  | .connected => x

theorem State.fileOwner_pos (s : State) (o : Option Port) (k : EventKind) (a d : Nat) (p : Fin 64) :
    (s.fileOwner o k a d).pos p = s.pos p :=
  State.fileOwner_keeps (fun t => t.pos p) (fun _ _ => rfl) s o k a d

theorem State.dropListener_pos (s : State) (k : Option (Fin 16)) (p : Fin 64) : (s.dropListener k).pos p = s.pos p :=
  congrArg (·.cell p) (s.dropListener_touches k .positions (by decide))

theorem State.announceEnded_pos (s : State) (p q : Fin 64) (cancelled : Bool) :
    (s.announceEnded p cancelled).pos q = if p = q then (s.pos p).announced else s.pos q := by
  unfold State.announceEnded Position.announced
  dsimp only
  rw [State.fileOwner_pos]
  cases e : (s.pos p).state with
  | announce => exact (State.dropListener_pos _ _ _).trans (State.setPos_pos _ _ _ _)
  | held => exact State.setPos_pos _ _ _ _
  | closed | idle | connected =>
    by_cases same : p = q
    · rw [if_pos same, same]
    · rw [if_neg same]

theorem Position.announced_announced (x : Position) : x.announced.announced = x.announced := by
  unfold Position.announced
  cases e : x.state <;> simp [e]

/-! ## The flush of one entry (R161) -/

theorem State.flushPlayer_queue (s : State) (p q : Fin 64) : (s.flushPlayer p).queue q = s.queue q := by
  unfold State.flushPlayer
  split
  · rfl
  · rfl

theorem State.flushed_queue (s : State) (p q : Fin 64) (cause : FlushCause) (e : Entry) :
    (s.flushed p cause e).queue q = s.queue q := by
  unfold State.queue
  rw [(s.flushed_leaves p cause e).1]
  split
  · rfl
  · exact s.flushPlayer_queue p q

/-- Only the cancellation of an announcement changes a position's record. -/
theorem State.flushed_pos (s : State) (p q : Fin 64) (cause : FlushCause) (e : Entry) :
    (s.flushed p cause e).pos q
      = if p = q ∧ cause = .cancel ∧ e.kind = .announce then (s.pos p).announced else s.pos q := by
  have player : (if e.phase = .waiting then s.dropPlay e.clip else (s.dropPlay e.clip).flushPlayer p).pos = s.pos := by
    split
    · rfl
    · unfold State.pos
      rw [State.flushPlayer_touches _ p .positions (by decide)]
      rfl
  unfold State.flushed
  dsimp only
  generalize (if e.phase = .waiting then s.dropPlay e.clip else (s.dropPlay e.clip).flushPlayer p) = u at player ⊢
  have filed : (u.file e.origin .promptFlushed p.val (e.detail + 4096 * cause.number)).pos = s.pos :=
    (State.file_keeps State.pos (fun _ _ => rfl) u _ _ _ _).trans player
  by_cases cancelled : cause = .cancel ∧ e.kind = .announce
  · rw [if_pos (by simp [cancelled]), State.announceEnded_pos, filed]
    simp [cancelled]
  · rw [if_neg (by simpa using cancelled), filed, if_neg fun h => cancelled h.2]

/-- The pieces that the flush of an entry touches when it is not cancelled. -/
def quietFlushParts : List Part := [.clipStore, .arbiter, .whisper, .events]

theorem State.flushed_touches_of_ne {cause : FlushCause} (other : cause ≠ .cancel) (s : State) (p : Fin 64) (e : Entry) :
    Touches quietFlushParts s (s.flushed p cause e) := by
  have dropped : Touches quietFlushParts s (s.dropPlay e.clip) := (s.dropPlay_touches _).mono (by decide)
  have player : Touches quietFlushParts s
      (if e.phase = .waiting then s.dropPlay e.clip else (s.dropPlay e.clip).flushPlayer p) :=
    Touches.ite _ dropped (dropped.trans ((State.flushPlayer_touches _ p).mono (by decide)))
  unfold State.flushed
  dsimp only
  rw [if_neg (by simp [other])]
  exact player.trans ((State.file_touches _ _ _ _ _).mono (by decide))

/-- The record of an uncancelled entry is PROMPT_FLUSHED to its origin. -/
theorem State.flushed_events {cause : FlushCause} (other : cause ≠ .cancel) (s : State) (p : Fin 64) (e : Entry) :
    (s.flushed p cause e).events = (s.filed (flushFilings p cause.number [e])).events := by
  have player : Touches [.clipStore, .arbiter, .whisper] s
      (if e.phase = .waiting then s.dropPlay e.clip else (s.dropPlay e.clip).flushPlayer p) := by
    have dropped := (s.dropPlay_touches e.clip).mono (b := [.clipStore, .arbiter, .whisper]) (by decide)
    exact Touches.ite _ dropped (dropped.trans ((State.flushPlayer_touches _ p).mono (by decide)))
  unfold State.flushed
  dsimp only
  rw [if_neg (by simp [other]), Entry.detail_eq]
  exact State.fileOwner_events (player .events (by decide)) (player .startUp (by decide))
    (congrArg Highway.stamp (player .highway (by decide))) (some e.origin) _ _ _

/-! ## The flush of chosen entries (R161) -/

theorem State.setQueue_queue (s : State) (p q : Fin 64) (l : List Entry) :
    (s.setQueue p l).queue q = if p = q then l else s.queue q := by
  unfold State.setQueue
  simp only [State.queue, Table.cell_put]

theorem State.flush_queue (s : State) (p q : Fin 64) (cause : FlushCause) (chosen : Entry → Bool) :
    (s.flush p cause chosen).queue q = if p = q then (s.queue p).filter fun e => !chosen e else s.queue q :=
  s.flush_keeps (P := fun t => t.queue q = if p = q then (s.queue p).filter fun e => !chosen e else s.queue q) p cause
    chosen (s.setQueue_queue p q _) fun t e h => (t.flushed_queue p q cause e).trans h

theorem State.flush_pos (s : State) (p q : Fin 64) (cause : FlushCause) (chosen : Entry → Bool) :
    (s.flush p cause chosen).pos q
      = if p = q ∧ cause = .cancel ∧ ((s.queue p).filter chosen).any (fun e => e.kind = .announce) = true
        then (s.pos p).announced else s.pos q := by
  have fold : ∀ (l : List Entry) (t : State), (l.foldl (fun s e => s.flushed p cause e) t).pos q
      = if p = q ∧ cause = .cancel ∧ l.any (fun e => e.kind = .announce) = true then (t.pos p).announced else t.pos q := by
    intro l
    induction l with
    | nil => intro t; simp
    | cons e l ih =>
      intro t
      rw [List.foldl_cons, ih, State.flushed_pos, State.flushed_pos]
      by_cases same : p = q
      · subst same
        by_cases cancel : cause = .cancel
        · by_cases announce : e.kind = .announce <;> simp [cancel, announce, Position.announced_announced]
        · simp [cancel]
      · simp [same]
  exact fold _ _

theorem State.flush_touches_of_ne {cause : FlushCause} (other : cause ≠ .cancel) (s : State) (p : Fin 64)
    (chosen : Entry → Bool) : Touches quietFlushParts s (s.flush p cause chosen) :=
  ((s.setQueue_touches p _).mono (by decide)).trans (Touches.foldl (fun t e => t.flushed_touches_of_ne other p e) _ _)

theorem flushFilings_cons (p : Fin 64) (cause : Nat) (e : Entry) (l : List Entry) :
    flushFilings p cause (e :: l) = flushFilings p cause [e] ++ flushFilings p cause l := rfl

/-- The records of a flush, head first, after any state with the same event router, start-up items and stamp. -/
theorem flushedAll_events {cause : FlushCause} (other : cause ≠ .cancel) (p : Fin 64) (l : List Entry) (s : State) :
    (l.foldl (fun s e => s.flushed p cause e) s).events = (s.filed (flushFilings p cause.number l)).events := by
  induction l generalizing s with
  | nil => rfl
  | cons e l ih =>
    have touched := s.flushed_touches_of_ne other p e
    have kept := fun {α : Type} (f : State → α) h =>
      State.filed_keeps f h s (flushFilings p cause.number [e])
    rw [List.foldl_cons, ih, flushFilings_cons, State.filed_append]
    refine State.filed_events (State.flushed_events other s p e) ?_ ?_ _
    · exact (touched .startUp (by decide)).trans (kept (fun t => t.startUp) fun _ _ => rfl).symm
    · exact (congrArg Highway.stamp (touched .highway (by decide))).trans (kept (fun t => t.highway.stamp) fun _ _ => rfl).symm

theorem State.flush_events {cause : FlushCause} (other : cause ≠ .cancel) (s : State) (p : Fin 64)
    (chosen : Entry → Bool) : (s.flush p cause chosen).events
      = (s.filed (flushFilings p cause.number ((s.queue p).filter chosen))).events :=
  (flushedAll_events other p _ _).trans
    (State.filed_events (s := s) (t := s.setQueue p ((s.queue p).filter fun e => !chosen e)) rfl rfl rfl _)

/-! ## What a flush leaves (R115, R127, R157, R161) -/

theorem State.flushed_arrival (s : State) (p : Fin 64) (cause : FlushCause) (e : Entry) :
    (s.flushed p cause e).whisper.arrival = s.whisper.arrival := by
  rw [(s.flushed_leaves p cause e).1]
  split
  · rfl
  · unfold State.flushPlayer
    split
    · rfl
    · rfl

theorem State.flushed_clip (s : State) (p : Fin 64) (cause : FlushCause) (e : Entry) (c : Fin 256) :
    (s.flushed p cause e).clip c = (s.dropPlay e.clip).clip c :=
  congrArg (fun x : ClipStore => x.clips.cell c) (s.flushed_leaves p cause e).2.2

theorem State.flushed_faults (s : State) (p : Fin 64) (cause : FlushCause) (e : Entry) :
    (s.flushed p cause e).clipStore.faults = s.clipStore.faults :=
  (congrArg ClipStore.faults (s.flushed_leaves p cause e).2.2).trans rfl

/-- The play counts after the flush of entries are one lower for each. -/
theorem flushedAll_clip (p : Fin 64) (cause : FlushCause) (l : List Entry) (s : State) (c : Fin 256) :
    (l.foldl (fun s e => s.flushed p cause e) s).clip c
      = { s.clip c with plays := (s.clip c).plays - (l.filter fun e => e.clip = c).length } := by
  induction l generalizing s with
  | nil => rfl
  | cons e l ih =>
    rw [List.foldl_cons, ih, State.flushed_clip, State.dropPlay_clip]
    by_cases same : e.clip = c
    · simp [same, Nat.sub_sub, Nat.add_comm]
    · simp [same]

theorem State.flush_clip (s : State) (p : Fin 64) (cause : FlushCause) (chosen : Entry → Bool) (c : Fin 256) :
    (s.flush p cause chosen).clip c = { s.clip c with
      plays := (s.clip c).plays - (((s.queue p).filter chosen).filter fun e => e.clip = c).length } :=
  flushedAll_clip p cause _ _ c

/-- WAITING entries hold no player. -/
theorem flushedAll_waiting (p : Fin 64) (cause : FlushCause) (l : List Entry) (s : State)
    (waiting : l.all (fun e => e.phase = .waiting) = true) :
    (l.foldl (fun s e => s.flushed p cause e) s).whisper = s.whisper
      ∧ (l.foldl (fun s e => s.flushed p cause e) s).arbiter = s.arbiter := by
  induction l generalizing s with
  | nil => exact ⟨rfl, rfl⟩
  | cons e l ih =>
    rw [List.all_cons, Bool.and_eq_true] at waiting
    obtain ⟨head, rest⟩ := waiting
    obtain ⟨whisper, arbiter, -⟩ := s.flushed_leaves p cause e
    rw [if_pos (of_decide_eq_true head)] at whisper arbiter
    obtain ⟨restWhisper, restArbiter⟩ := ih (s.flushed p cause e) rest
    exact ⟨restWhisper.trans whisper, restArbiter.trans arbiter⟩

theorem State.flushPlayer_of_some {s : State} {p : Fin 64} {w : Fin 16} (player : s.playerOf p = some w) :
    s.flushPlayer p = (s.setPlayer w (PromptPlayer.free ((s.player w).generation + 1))).cancelFetch (.prompt w) := by
  unfold State.flushPlayer
  rw [player]

theorem State.flush_leaves (s : State) (p : Fin 64) (cause : FlushCause) (chosen : Entry → Bool) :
    FlushLeaves s (s.flush p cause chosen) p ((s.queue p).filter chosen) ((s.queue p).filter fun e => !chosen e) := by
  refine ⟨(s.flush_queue p p cause chosen).trans (if_pos rfl),
    fun q apart => (s.flush_queue p q cause chosen).trans (if_neg (Ne.symm apart)), ?_, ?_, s.flush_clip p cause chosen, ?_, ?_⟩
  · exact s.flush_keeps (P := fun t => t.whisper.arrival = s.whisper.arrival) p cause chosen rfl
      fun t e h => (t.flushed_arrival p cause e).trans h
  · exact s.flush_keeps (P := fun t => t.clipStore.faults = s.clipStore.faults) p cause chosen rfl
      fun t e h => (t.flushed_faults p cause e).trans h
  · intro waiting
    obtain ⟨whisper, arbiter⟩ := flushedAll_waiting p cause _ (s.setQueue p ((s.queue p).filter fun e => !chosen e)) waiting
    exact ⟨(congrArg Whisper.players whisper).trans rfl, arbiter⟩
  · intro e rest w flushed begun waiting player
    unfold State.flush
    rw [flushed, List.foldl_cons]
    generalize opened : s.setQueue p ((s.queue p).filter fun e => !chosen e) = t
    obtain ⟨whisper, arbiter⟩ := flushedAll_waiting p cause rest (t.flushed p cause e) waiting
    obtain ⟨whisper', arbiter', -⟩ := t.flushed_leaves p cause e
    have player' : t.playerOf p = some w := by rw [← opened]; exact player
    rw [if_neg begun, State.flushPlayer_of_some player'] at whisper' arbiter'
    rw [whisper, arbiter, whisper', arbiter', ← opened]
    exact ⟨rfl, rfl⟩

end Sys2Proof.Machine
end


section
/-! PROOFS. What the removal of taps, a release and a closure leave in each block (R25, R30, R65, R66, R93, R101). -/

namespace Sys2Proof.Machine

/-! ## Taps that go (R101) -/

/-- Why a closure of position `p` removes a tap, if it does. -/
def Tap.closeReason (p : Fin 64) (x : Tap) : Option DropReason :=
  if x.listener = p then some .listenerClosed else if x.target = p then some .targetClosed else none

/-- Why a CONNECT of position `p` removes a tap, if it does. -/
def Tap.connectReason (p : Fin 64) (x : Tap) : Option DropReason :=
  if x.listener = p then some .listenerConnected else none

/-- A tap goes when there is a reason for it. -/
def State.dropFor (reason : Tap → Option DropReason) (s : State) (x : Fin 16 × Tap) : State :=
  match reason x.2 with
  | some r => s.dropTap x.1 x.2 r
  | none => s

theorem State.dropTapsOf_eq (s : State) (p : Fin 64) :
    s.dropTapsOf p = s.tapsInUse.foldl (State.dropFor (Tap.closeReason p)) s := by
  unfold State.dropTapsOf
  congr 1
  funext t x
  unfold State.dropFor Tap.closeReason
  by_cases listens : x.2.listener = p
  · simp [listens]
  · by_cases heard : x.2.target = p <;> simp [listens, heard]

theorem State.dropListenerTaps_eq (s : State) (p : Fin 64) :
    s.dropListenerTaps p = s.tapsInUse.foldl (State.dropFor (Tap.connectReason p)) s := by
  unfold State.dropListenerTaps
  congr 1
  funext t x
  unfold State.dropFor Tap.connectReason
  by_cases listens : x.2.listener = p <;> simp [listens]

theorem State.dropFor_touches (reason : Tap → Option DropReason) (s : State) (x : Fin 16 × Tap) :
    Touches [.mixer, .events] s (s.dropFor reason x) := by
  unfold State.dropFor
  split
  · exact s.dropTap_touches _ _ _
  · exact Touches.refl _ s

theorem State.dropTap_mixer (s : State) (t : Fin 16) (x : Tap) (r : DropReason) :
    (s.dropTap t x r).mixer = { s.mixer with taps := s.mixer.taps.put t none } :=
  State.file_touches (s.setTap t none) _ _ _ _ .mixer (by decide)

theorem State.dropFor_mixer (reason : Tap → Option DropReason) (s : State) (x : Fin 16 × Tap) :
    (s.dropFor reason x).mixer
      = { s.mixer with taps := if (reason x.2).isSome then s.mixer.taps.put x.1 none else s.mixer.taps } := by
  unfold State.dropFor
  cases reason x.2 with
  | some r => exact s.dropTap_mixer _ _ r
  | none => rfl

theorem dropsFor_coachDuck (reason : Tap → Option DropReason) (l : List (Fin 16 × Tap)) (s : State) :
    (l.foldl (State.dropFor reason) s).mixer.coachDuck = s.mixer.coachDuck :=
  foldl_keeps (P := fun t => t.mixer.coachDuck = s.mixer.coachDuck)
    (fun t x h => by rw [t.dropFor_mixer reason x]; exact h) l s rfl

theorem dropsFor_tap (reason : Tap → Option DropReason) (l : List (Fin 16 × Tap)) (s : State) (u : Fin 16) :
    (l.foldl (State.dropFor reason) s).tap u
      = if ∃ x ∈ l, x.1 = u ∧ (reason x.2).isSome = true then none else s.tap u := by
  induction l generalizing s with
  | nil => simp
  | cons x l ih =>
    have step : (s.dropFor reason x).tap u = if x.1 = u ∧ (reason x.2).isSome = true then none else s.tap u := by
      unfold State.tap
      rw [State.dropFor_mixer]
      by_cases goes : (reason x.2).isSome = true <;> simp [goes, Table.cell_put]
    rw [List.foldl_cons, ih, step]
    by_cases goes : x.1 = u ∧ (reason x.2).isSome = true
    · rw [if_pos goes, ite_self, if_pos ⟨x, List.mem_cons_self, goes⟩]
    · rw [if_neg goes]
      simp only [List.mem_cons, exists_eq_or_imp, goes, false_or]

/-- Of the taps in use, those for which there is a reason go. -/
theorem State.dropsFor_tap (s : State) (reason : Tap → Option DropReason) (u : Fin 16) :
    (s.tapsInUse.foldl (State.dropFor reason) s).tap u = (s.tap u).filter fun x => (reason x).isNone := by
  rw [Machine.dropsFor_tap]
  split
  · next goes =>
    obtain ⟨⟨v, x⟩, used, rfl, goes⟩ := goes
    rw [(s.mem_tapsInUse v x).mp used, Option.filter_some, Option.isNone_eq_false_iff.mpr goes]
    rfl
  · next stays =>
    cases tap : s.tap u with
    | none => rfl
    | some x =>
      have none : (reason x).isNone = true := by
        by_contra goes
        refine stays ⟨(u, x), (s.mem_tapsInUse u x).mpr tap, rfl, ?_⟩
        simpa [Option.isSome_iff_ne_none] using goes
      rw [Option.filter_some, none]
      rfl

/-- The records of taps that go. -/
def dropFilings (reason : Tap → Option DropReason) (l : List (Fin 16 × Tap)) : List Filing :=
  l.filterMap fun x => (reason x.2).map fun r =>
    (some x.2.owner, .tapDropped, x.2.listener.val, x.1.val + 16 * tapKindNumber x.2.kind + 256 * r.number)

theorem State.dropFor_events (reason : Tap → Option DropReason) (s : State) (x : Fin 16 × Tap) :
    (s.dropFor reason x).events = (s.filed (dropFilings reason [x])).events := by
  unfold State.dropFor dropFilings
  cases e : reason x.2 with
  | some r =>
    simp only [List.filterMap_cons, e, Option.map_some, List.filterMap_nil]
    exact State.fileOwner_events (s := s) (t := s.setTap x.1 none) rfl rfl rfl (some x.2.owner) _ _ _
  | none => simp [e]

theorem dropsFor_events (reason : Tap → Option DropReason) (l : List (Fin 16 × Tap)) (s : State) :
    (l.foldl (State.dropFor reason) s).events = (s.filed (dropFilings reason l)).events := by
  induction l generalizing s with
  | nil => rfl
  | cons x l ih =>
    have touched := s.dropFor_touches reason x
    have kept := fun {α : Type} (f : State → α) h => State.filed_keeps f h s (dropFilings reason [x])
    rw [List.foldl_cons, ih, show dropFilings reason (x :: l) = dropFilings reason [x] ++ dropFilings reason l from
      List.filterMap_append (l := [x]) .., State.filed_append]
    refine State.filed_events (s.dropFor_events reason x) ?_ ?_ _
    · exact (touched .startUp (by decide)).trans (kept (fun t => t.startUp) fun _ _ => rfl).symm
    · exact (congrArg Highway.stamp (touched .highway (by decide))).trans (kept (fun t => t.highway.stamp) fun _ _ => rfl).symm

theorem tapKindNumber_eq (k : TapKind) : 16 * tapKindNumber k = if k = .coach then 16 else 0 := by cases k <;> rfl

/-- A list read by a partial function that is defined where a test passes. -/
theorem filterMap_eq_map_filter {α β : Type} {f : α → Option β} {test : α → Bool} {g : α → β}
    (h : ∀ x, f x = if test x then some (g x) else none) (l : List α) : l.filterMap f = (l.filter test).map g := by
  induction l with
  | nil => rfl
  | cons x l ih =>
    by_cases passes : test x = true
    · rw [List.filterMap_cons_some (by rw [h, if_pos passes]), List.filter_cons_of_pos passes, List.map_cons, ih]
    · rw [List.filterMap_cons_none (by rw [h, if_neg passes]), List.filter_cons_of_neg passes, ih]

/-- What a closure files for taps is what `tapFilings` lists for the taps that name the position. -/
theorem dropFilings_close (p : Fin 64) (l : List (Fin 16 × Tap)) : dropFilings (Tap.closeReason p) l
    = tapFilings p (l.filter fun x => x.2.listener = p || x.2.target = p) := by
  refine filterMap_eq_map_filter (fun x => ?_) l
  unfold Tap.closeReason
  by_cases listens : x.2.listener = p
  · simp [listens, tapKindNumber_eq, DropReason.number]
  · by_cases heard : x.2.target = p <;> simp [listens, heard, tapKindNumber_eq, DropReason.number]

theorem dropFilings_connect (p : Fin 64) (l : List (Fin 16 × Tap)) : dropFilings (Tap.connectReason p) l
    = (l.filter fun x => x.2.listener = p).map fun x =>
        (some x.2.owner, .tapDropped, p.val, x.1.val + if x.2.kind = .coach then 16 else 0) := by
  refine filterMap_eq_map_filter (fun x => ?_) l
  unfold Tap.connectReason
  by_cases listens : x.2.listener = p <;> simp [listens, tapKindNumber_eq, DropReason.number]

theorem State.dropTapsOf_tap (s : State) (p : Fin 64) (u : Fin 16) :
    (s.dropTapsOf p).tap u = (s.tap u).filter fun x => x.listener ≠ p ∧ x.target ≠ p := by
  rw [State.dropTapsOf_eq, State.dropsFor_tap]
  congr 1
  funext x
  unfold Tap.closeReason
  by_cases listens : x.listener = p
  · simp [listens]
  · by_cases heard : x.target = p <;> simp [listens, heard]

theorem State.dropListenerTaps_tap (s : State) (p : Fin 64) (u : Fin 16) :
    (s.dropListenerTaps p).tap u = (s.tap u).filter fun x => x.listener ≠ p := by
  rw [State.dropListenerTaps_eq, State.dropsFor_tap]
  congr 1
  funext x
  unfold Tap.connectReason
  by_cases listens : x.listener = p <;> simp [listens]

theorem State.dropTapsOf_events (s : State) (p : Fin 64) :
    (s.dropTapsOf p).events = (s.filed (tapFilings p (s.tapsNaming p))).events := by
  rw [State.dropTapsOf_eq, dropsFor_events, dropFilings_close]
  rfl

/-! ## A release (R30) -/

/-- The record of a released position. -/
def Position.released (x : Position) : Position :=
  { x with state := .idle, stream := none, announcePending := false, trunkSlot := none }

/-- The records of a release: those of the flush, and ANNOUNCE_DONE "cancelled" when the announcement was queued. -/
def State.releaseFilings (s : State) (p : Fin 64) (cause : FlushCause) : List Filing :=
  flushFilings p cause.number (s.queue p)
    ++ if (s.queue p).any (fun e => e.kind = .announce) then [((s.pos p).owner, .announceDone, p.val, 1)] else []

/-- The pieces a release touches when its flush is no cancellation. -/
def releaseParts : List Part := [.positions, .highway, .clipStore, .arbiter, .streams, .whisper, .events]

theorem State.flush_pos_of_ne {cause : FlushCause} (other : cause ≠ .cancel) (s : State) (p q : Fin 64)
    (chosen : Entry → Bool) : (s.flush p cause chosen).pos q = s.pos q :=
  (s.flush_pos p q cause chosen).trans (if_neg fun h => other h.2.1)

/-- A release is its flush, its record of the announcement, and three changes of a piece each. -/
theorem State.releasing_eq {cause : FlushCause} (other : cause ≠ .cancel) (s : State) (p : Fin 64) :
    s.releasing p cause =
      ((((if (s.queue p).any (fun e => e.kind = .announce) then (s.flush p cause fun _ => true).fileOwner (s.pos p).owner
          .announceDone p.val 1 else s.flush p cause fun _ => true).dropListener (s.pos p).stream).unbindTrunk
        (s.pos p).trunkSlot).setPos p (s.pos p).released) := by
  unfold State.releasing
  dsimp only
  rw [State.flush_pos_of_ne other]
  rfl

theorem State.releasing_releaseParts {cause : FlushCause} (other : cause ≠ .cancel) (s : State) (p : Fin 64) :
    Touches releaseParts s (s.releasing p cause) := by
  have flushed : Touches releaseParts s (s.flush p cause fun _ => true) :=
    (s.flush_touches_of_ne other p _).mono (by decide)
  have filed := fun o k a d => flushed.trans ((State.fileOwner_touches _ o k a d).mono (b := releaseParts) (by decide))
  rw [State.releasing_eq other]
  refine Touches.trans ?_ ((State.setPos_touches _ p _).mono (by decide))
  refine Touches.trans ?_ ((State.unbindTrunk_touches _ _).mono (by decide))
  exact (Touches.ite _ (filed _ _ _ _) flushed).trans ((State.dropListener_touches _ _).mono (by decide))

/-- After its flush a release touches nothing of the whisper block, the clip store and the arbiter. -/
theorem State.releasing_after_flush {cause : FlushCause} (other : cause ≠ .cancel) (s : State) (p : Fin 64) :
    Touches [.positions, .highway, .streams, .events] (s.flush p cause fun _ => true) (s.releasing p cause) := by
  rw [State.releasing_eq other]
  refine Touches.trans ?_ ((State.setPos_touches _ p _).mono (by decide))
  refine Touches.trans ?_ ((State.unbindTrunk_touches _ _).mono (by decide))
  refine Touches.trans ?_ ((State.dropListener_touches _ _).mono (by decide))
  exact Touches.ite _ ((State.fileOwner_touches _ _ _ _ _).mono (by decide)) (Touches.refl _ _)

theorem State.releasing_positions {cause : FlushCause} (other : cause ≠ .cancel) (s : State) (p : Fin 64) :
    (s.releasing p cause).positions = s.positions.put p (s.pos p).released := by
  have before : ∀ (t : State), t.positions = s.positions → ∀ k u,
      ((t.dropListener k).unbindTrunk u).positions = s.positions := fun t h k u =>
    (State.unbindTrunk_touches _ u .positions (by decide)).trans
      ((t.dropListener_touches k .positions (by decide)).trans h)
  have flushed : (s.flush p cause fun _ => true).positions = s.positions :=
    s.flush_touches_of_ne other p _ .positions (by decide)
  rw [State.releasing_eq other, State.setPos_positions, before]
  split
  · exact (State.fileOwner_touches _ _ _ _ _ .positions (by decide)).trans flushed
  · exact flushed

theorem State.releasing_pos {cause : FlushCause} (other : cause ≠ .cancel) (s : State) (p q : Fin 64) :
    (s.releasing p cause).pos q = if p = q then (s.pos p).released else s.pos q := by
  unfold State.pos
  rw [State.releasing_positions other, Table.cell_put]
  rfl

theorem State.dropListener_streams {s t : State} (h : t.streams = s.streams) (k : Option (Fin 16)) :
    (t.dropListener k).streams = (s.dropListener k).streams := by
  unfold State.dropListener
  split
  · unfold State.setStream State.stream
    dsimp only
    rw [h]
  · exact h

theorem State.unbindTrunk_highway {s t : State} (h : t.highway = s.highway) (u : Option (Fin 64)) :
    (t.unbindTrunk u).highway = (s.unbindTrunk u).highway := by
  unfold State.unbindTrunk
  split
  · unfold State.setTrunkLine
    dsimp only
    rw [h]
  · exact h

theorem State.unbindAgent_highway {s t : State} (h : t.highway = s.highway) (a : Option (Fin 64)) :
    (t.unbindAgent a).highway = (s.unbindAgent a).highway := by
  unfold State.unbindAgent
  split
  · unfold State.setAgentLine
    dsimp only
    rw [h]
  · exact h

theorem State.releasing_streams {cause : FlushCause} (other : cause ≠ .cancel) (s : State) (p : Fin 64) :
    (s.releasing p cause).streams = (s.dropListener (s.pos p).stream).streams := by
  have flushed : (s.flush p cause fun _ => true).streams = s.streams :=
    s.flush_touches_of_ne other p _ .streams (by decide)
  rw [State.releasing_eq other, State.setPos_streams, State.unbindTrunk_touches _ _ .streams (by decide)]
  refine State.dropListener_streams ?_ _
  split
  · exact (State.fileOwner_touches _ _ _ _ _ .streams (by decide)).trans flushed
  · exact flushed

theorem State.releasing_highway {cause : FlushCause} (other : cause ≠ .cancel) (s : State) (p : Fin 64) :
    (s.releasing p cause).highway = (s.unbindTrunk (s.pos p).trunkSlot).highway := by
  have flushed : (s.flush p cause fun _ => true).highway = s.highway :=
    s.flush_touches_of_ne other p _ .highway (by decide)
  rw [State.releasing_eq other, State.setPos_highway]
  refine State.unbindTrunk_highway ((State.dropListener_touches _ _ .highway (by decide)).trans ?_) _
  split
  · exact (State.fileOwner_touches _ _ _ _ _ .highway (by decide)).trans flushed
  · exact flushed

theorem State.releasing_events {cause : FlushCause} (other : cause ≠ .cancel) (s : State) (p : Fin 64) :
    (s.releasing p cause).events = (s.filed (s.releaseFilings p cause)).events := by
  have flushed := s.flush_touches_of_ne other p fun _ => true
  have filed : (s.flush p cause fun _ => true).events = (s.filed (flushFilings p cause.number (s.queue p))).events := by
    rw [State.flush_events other, List.filter_true]
  have kept := fun {α : Type} (f : State → α) h =>
    State.filed_keeps f h s (flushFilings p cause.number (s.queue p))
  rw [State.releasing_eq other, State.setPos_events, State.unbindTrunk_touches _ _ .events (by decide),
    State.dropListener_touches _ _ .events (by decide)]
  unfold State.releaseFilings
  rw [State.filed_append]
  split
  · refine State.fileOwner_events filed ?_ ?_ _ _ _ _
    · exact (flushed .startUp (by decide)).trans (kept (fun t => t.startUp) fun _ _ => rfl).symm
    · exact (congrArg Highway.stamp (flushed .highway (by decide))).trans (kept (fun t => t.highway.stamp) fun _ _ => rfl).symm
  · exact filed

/-! ## A closure (R25) -/

/-- A position that closes, up to the end of its fourth step: its record and its values are still to be closed. -/
def State.vacated (s : State) (p : Fin 64) (cause : FlushCause) : State :=
  ((((s.flush p cause fun _ => true).dropTapsOf p).keepSegments p 0).unbindAgent (s.pos p).agentSlot)

/-- The pieces touched up to the end of the fourth step when the flush is no cancellation. -/
def vacateParts : List Part := [.clipStore, .arbiter, .whisper, .events, .mixer, .echo, .highway]

theorem State.vacated_touches {cause : FlushCause} (other : cause ≠ .cancel) (s : State) (p : Fin 64) :
    Touches vacateParts s (s.vacated p cause) := by
  have flushed := (s.flush_touches_of_ne other p fun _ => true).mono (b := vacateParts) (by decide)
  have untapped := flushed.trans ((State.dropTapsOf_touches _ p).mono (by decide))
  have returned := untapped.trans ((State.keepSegments_touches _ p 0).mono (by decide))
  exact returned.trans ((State.unbindAgent_touches _ _).mono (by decide))

theorem State.closing_eq {cause : FlushCause} (other : cause ≠ .cancel) (s : State) (p : Fin 64) :
    s.closing p cause = ((s.vacated p cause).closeRecord p).closeBlocks p := by
  have record : ((((s.flush p cause fun _ => true).dropTapsOf p).keepSegments p 0).pos p) = s.pos p :=
    (congrArg (·.cell p) (State.dropTapsOf_touches _ p .positions (by decide))).trans (s.flush_pos_of_ne other p p _)
  unfold State.closing State.vacated
  dsimp only
  rw [record]

theorem State.closing_after_flush {cause : FlushCause} (other : cause ≠ .cancel) (s : State) (p : Fin 64) :
    Touches [.positions, .highway, .suppress, .echo, .mixer, .events] (s.flush p cause fun _ => true) (s.closing p cause) := by
  rw [State.closing_eq other]
  refine Touches.trans ?_ ((State.closeBlocks_touches _ p).mono (by decide))
  refine Touches.trans ?_ ((State.closeRecord_touches _ p).mono (by decide))
  refine Touches.trans ?_ ((State.unbindAgent_touches _ _).mono (by decide))
  exact ((State.dropTapsOf_touches _ p).mono (by decide)).trans ((State.keepSegments_touches _ p 0).mono (by decide))

/-- The pieces a closure touches when its flush is no cancellation. -/
def quietCloseParts : List Part :=
  [.positions, .highway, .suppress, .echo, .mixer, .clipStore, .arbiter, .whisper, .events]

theorem State.closing_quietCloseParts {cause : FlushCause} (other : cause ≠ .cancel) (s : State) (p : Fin 64) :
    Touches quietCloseParts s (s.closing p cause) :=
  ((s.flush_touches_of_ne other p _).mono (by decide)).trans ((s.closing_after_flush other p).mono (by decide))

theorem State.closeRecord_positions (s : State) (p : Fin 64) :
    (s.closeRecord p).positions = s.positions.put p Position.closedContents := by
  unfold State.closeRecord
  dsimp only
  split
  · exact State.fileOwner_touches _ _ _ _ _ .positions (by decide)
  · rfl

theorem State.closing_positions {cause : FlushCause} (other : cause ≠ .cancel) (s : State) (p : Fin 64) :
    (s.closing p cause).positions = s.positions.put p Position.closedContents := by
  rw [State.closing_eq other, State.closeBlocks_touches _ p .positions (by decide), State.closeRecord_positions,
    s.vacated_touches other p .positions (by decide)]

theorem State.closing_pos {cause : FlushCause} (other : cause ≠ .cancel) (s : State) (p q : Fin 64) :
    (s.closing p cause).pos q = if p = q then Position.closedContents else s.pos q := by
  unfold State.pos
  rw [State.closing_positions other, Table.cell_put]

theorem State.closeBlocks_suppress (s : State) (p : Fin 64) : (s.closeBlocks p).suppress
    = { s.suppress with positions := s.suppress.positions.put p (Suppressor.fresh (s.profile 2)) } := rfl

theorem State.closing_suppress {cause : FlushCause} (other : cause ≠ .cancel) (s : State) (p : Fin 64) :
    (s.closing p cause).suppress
      = { s.suppress with positions := s.suppress.positions.put p (Suppressor.fresh (s.profile 2)) } := by
  have before : ((s.vacated p cause).closeRecord p).suppress = s.suppress :=
    (State.closeRecord_touches _ p .suppress (by decide)).trans (s.vacated_touches other p .suppress (by decide))
  rw [State.closing_eq other, State.closeBlocks_suppress]
  unfold State.profile
  rw [before]

theorem State.closeBlocks_echo (s : State) (p : Fin 64) : (s.closeBlocks p).echo
    = { s.echo with positions := s.echo.positions.put p (Canceller.zeroed []) } := rfl

theorem State.keepSegments_echo {s t : State} (h : t.echo = s.echo) (p : Fin 64) (n : Nat) :
    (t.keepSegments p n).echo = (s.keepSegments p n).echo := by
  unfold State.keepSegments State.canceller
  dsimp only
  rw [h]

theorem State.vacated_echo {cause : FlushCause} (other : cause ≠ .cancel) (s : State) (p : Fin 64) :
    (s.vacated p cause).echo = (s.keepSegments p 0).echo :=
  (State.unbindAgent_touches _ _ .echo (by decide)).trans (State.keepSegments_echo
    ((State.dropTapsOf_touches _ p .echo (by decide)).trans (s.flush_touches_of_ne other p _ .echo (by decide))) p 0)

theorem State.closing_echo {cause : FlushCause} (other : cause ≠ .cancel) (s : State) (p : Fin 64) :
    (s.closing p cause).echo = { s.echo with
      free := segmentSet fun g => g ∈ s.echo.free || g ∈ s.segments p
      positions := s.echo.positions.put p (Canceller.zeroed []) } := by
  rw [State.closing_eq other, State.closeBlocks_echo, State.closeRecord_touches _ p .echo (by decide),
    State.vacated_echo other]
  simp only [State.keepSegments, Table.put_put, List.drop_zero]
  rfl

theorem mem_segmentSet (holds : Fin 128 → Bool) (g : Fin 128) : g ∈ segmentSet holds ↔ holds g = true := by
  simp [segmentSet]

theorem State.closeBlocks_mixer (s : State) (p : Fin 64) :
    (s.closeBlocks p).mixer = { s.mixer with coachDuck := s.mixer.coachDuck.put p 0 } := rfl

theorem State.vacated_mixer {cause : FlushCause} (s : State) (p : Fin 64) :
    (s.vacated p cause).mixer = ((s.flush p cause fun _ => true).dropTapsOf p).mixer :=
  State.unbindAgent_touches _ _ .mixer (by decide)

theorem State.closing_mixer {cause : FlushCause} (other : cause ≠ .cancel) (s : State) (p : Fin 64) :
    (s.closing p cause).mixer = { ((s.flush p cause fun _ => true).dropTapsOf p).mixer with
      coachDuck := s.mixer.coachDuck.put p 0 } := by
  have ducks : ((s.flush p cause fun _ => true).dropTapsOf p).mixer.coachDuck = s.mixer.coachDuck := by
    rw [State.dropTapsOf_eq, dropsFor_coachDuck, s.flush_touches_of_ne other p _ .mixer (by decide)]
  rw [State.closing_eq other, State.closeBlocks_mixer, State.closeRecord_touches _ p .mixer (by decide),
    State.vacated_mixer, ducks]

theorem State.closing_coachDuck {cause : FlushCause} (other : cause ≠ .cancel) (s : State) (p : Fin 64) :
    (s.closing p cause).mixer.coachDuck = s.mixer.coachDuck.put p 0 := by
  rw [State.closing_mixer other]

theorem State.closing_tap {cause : FlushCause} (other : cause ≠ .cancel) (s : State) (p : Fin 64) (u : Fin 16) :
    (s.closing p cause).tap u = (s.tap u).filter fun x => x.listener ≠ p ∧ x.target ≠ p := by
  have flushed : (s.flush p cause fun _ => true).tap u = s.tap u :=
    congrArg (fun m : Mixer => m.taps.cell u) (s.flush_touches_of_ne other p _ .mixer (by decide))
  rw [← flushed, ← State.dropTapsOf_tap]
  unfold State.tap
  rw [State.closing_mixer other]

theorem State.closing_highway {cause : FlushCause} (other : cause ≠ .cancel) (s : State) (p : Fin 64) :
    (s.closing p cause).highway = (s.unbindAgent (s.pos p).agentSlot).highway := by
  rw [State.closing_eq other, State.closeBlocks_touches _ p .highway (by decide),
    State.closeRecord_touches _ p .highway (by decide)]
  have returned : (((s.flush p cause fun _ => true).dropTapsOf p).keepSegments p 0).highway = s.highway :=
    (State.dropTapsOf_touches _ p .highway (by decide)).trans (s.flush_touches_of_ne other p _ .highway (by decide))
  exact State.unbindAgent_highway returned _

/-- The records of a closure: those of the flush, of the taps, and of an offer withdrawn. -/
def State.closeFilings (s : State) (p : Fin 64) (cause : FlushCause) : List Filing :=
  flushFilings p cause.number (s.queue p) ++ tapFilings p (s.tapsNaming p)
    ++ if (s.pos p).offer then [((s.pos p).owner.map Port.other, .handoverOffer, p.val, 1)] else []

theorem State.tapsNaming_congr {s t : State} (h : t.mixer = s.mixer) (p : Fin 64) : t.tapsNaming p = s.tapsNaming p := by
  unfold State.tapsNaming State.tapsInUse State.tap
  rw [h]

/-- Records filed after a part of an operation, when the part's own records are known. -/
theorem State.filed_after {s t : State} {before : List Filing} (events : t.events = (s.filed before).events)
    (startUp : t.startUp = s.startUp) (stamp : t.highway.stamp = s.highway.stamp) (l : List Filing) :
    (t.filed l).events = (s.filed (before ++ l)).events := by
  rw [State.filed_append]
  exact State.filed_events events (startUp.trans (State.filed_keeps (fun t => t.startUp) (fun _ _ => rfl) s before).symm)
    (stamp.trans (State.filed_keeps (fun t => t.highway.stamp) (fun _ _ => rfl) s before).symm) l

theorem State.vacated_stamp {cause : FlushCause} (other : cause ≠ .cancel) (s : State) (p : Fin 64) :
    (s.vacated p cause).highway.stamp = s.highway.stamp := by
  have before : ((((s.flush p cause fun _ => true).dropTapsOf p).keepSegments p 0)).highway = s.highway :=
    (State.dropTapsOf_touches _ p .highway (by decide)).trans (s.flush_touches_of_ne other p _ .highway (by decide))
  unfold State.vacated State.unbindAgent
  split
  · exact (congrArg Highway.stamp before : _)
  · exact congrArg Highway.stamp before

theorem State.closing_events {cause : FlushCause} (other : cause ≠ .cancel) (s : State) (p : Fin 64) :
    (s.closing p cause).events = (s.filed (s.closeFilings p cause)).events := by
  have flushed := s.flush_touches_of_ne other p fun _ => true
  have flushEvents : (s.flush p cause fun _ => true).events = (s.filed (flushFilings p cause.number (s.queue p))).events := by
    rw [State.flush_events other, List.filter_true]
  have vacated : (s.vacated p cause).events
      = (s.filed (flushFilings p cause.number (s.queue p) ++ tapFilings p (s.tapsNaming p))).events := by
    unfold State.vacated
    rw [State.unbindAgent_touches _ _ .events (by decide)]
    show ((s.flush p cause fun _ => true).dropTapsOf p).events = _
    rw [State.dropTapsOf_events, State.tapsNaming_congr (flushed .mixer (by decide))]
    exact State.filed_after flushEvents (flushed .startUp (by decide)) (congrArg Highway.stamp (flushed .highway (by decide))) _
  have record : (s.vacated p cause).pos p = s.pos p :=
    congrArg (·.cell p) (s.vacated_touches other p .positions (by decide))
  rw [State.closing_eq other, State.closeBlocks_touches _ p .events (by decide)]
  unfold State.closeRecord State.closeFilings
  dsimp only
  rw [record]
  split
  · rw [State.filed_append]
    refine State.fileOwner_events (t := (s.vacated p cause).setPos p Position.closedContents) vacated ?_ ?_ _ _ _ _
    · exact (s.vacated_touches other p .startUp (by decide)).trans
        (State.filed_keeps (fun t => t.startUp) (fun _ _ => rfl) s _).symm
    · exact (s.vacated_stamp other p).trans (State.filed_keeps (fun t => t.highway.stamp) (fun _ _ => rfl) s _).symm
  · rw [List.append_nil]
    exact vacated

end Sys2Proof.Machine
end


section
/-! PROOFS. What fetch requests and the assignment of players leave (R126, R127, R129, R163). -/

namespace Sys2Proof.Machine

/-! ## What a request for a page keeps (R126, R127, R146, R164) -/

theorem State.requestFetch_keeps {P : State → Prop}
    (queued : ∀ t l, P t → P (t.setArbiter { t.arbiter with queue := l })) (granted : ∀ t, P t → P t.grant)
    {s : State} (h : P s) (f : Fetch) : P (s.requestFetch f) := granted _ (queued s _ h)

theorem State.promptRequest_keeps {P : State → Prop} (player : ∀ t w x, P t → P (t.setPlayer w x))
    (queued : ∀ t l, P t → P (t.setArbiter { t.arbiter with queue := l })) (granted : ∀ t, P t → P t.grant)
    {s : State} (h : P s) (w : Fin 16) : P (s.promptRequest w) := by
  unfold State.promptRequest
  dsimp only
  split
  · exact State.requestFetch_keeps queued granted (player s w _ h) _
  · exact h

/-- The assignment of players changes queues and players, places requests and grants. -/
theorem State.assignPlayers_keeps_of {P : State → Prop} (queue : ∀ t p q, P t → P (t.setQueue p q))
    (player : ∀ t w x, P t → P (t.setPlayer w x))
    (queued : ∀ t l, P t → P (t.setArbiter { t.arbiter with queue := l })) (granted : ∀ t, P t → P t.grant)
    {s : State} (h : P s) : P s.assignPlayers :=
  State.assignPlayers_keeps (fun t w p ht _ _ =>
    State.promptRequest_keeps player queued granted (player _ w _ (queue t p _ ht)) w) s h

/-! ## A busy bus (R124) -/

/-- While the bus is busy, the assignment of players touches the whisper block and the fetch queue only. -/
theorem State.assignPlayers_of_busy {s : State} (busy : s.arbiter.bus ≠ none) :
    s.assignPlayers.arbiter.bus ≠ none ∧ Touches [.whisper, .arbiter] s s.assignPlayers := by
  refine State.assignPlayers_keeps_of (P := fun t => t.arbiter.bus ≠ none ∧ Touches [.whisper, .arbiter] s t)
    (fun t p q h => ⟨h.1, h.2.trans ((t.setQueue_touches p q).mono (by decide))⟩)
    (fun t w x h => ⟨h.1, h.2.trans ((t.setPlayer_touches w x).mono (by decide))⟩)
    (fun t l h => ⟨h.1, h.2.trans ((t.setArbiter_touches _).mono (by decide))⟩)
    (fun t h => ?_) ⟨busy, Touches.refl _ s⟩
  rw [State.grant_of_busy h.1]
  exact h

/-! ## Ports (R129) -/

/-- A port for which no page operation waits is left alone by a grant. -/
theorem State.grant_port {s : State} {port : Port} (none : s.arbiter.pendingOps.cell port = none) :
    s.grant.port port = s.port port ∧ s.grant.arbiter.pendingOps.cell port = .none := by
  unfold State.grant
  refine State.grantRounds_keeps
    (P := fun t => t.port port = s.port port ∧ t.arbiter.pendingOps.cell port = .none) ?_ ?_ ?_ ?_ ?_ _ s ⟨rfl, none⟩
  · intro t h _; exact h
  · intro t f rest h _ _
    have touched := State.deliver_touches t.unqueue f t.silentPage
    unfold State.port
    rw [touched .ports (by decide), touched .arbiter (by decide)]
    exact h
  · intro t f rest h _ _; exact h
  · rintro t p clip index page ⟨kept, idle⟩ _ waits
    have apart : p ≠ port := fun same => by rw [same, idle] at waits; cases waits
    refine ⟨?_, ?_⟩
    · exact (PerPort.cell_put_other _ _ _ _ apart).trans kept
    · exact (PerPort.cell_put_other _ _ _ _ apart).trans idle
  · rintro t p op ⟨kept, idle⟩ _ waits
    have apart : p ≠ port := fun same => by rw [same, idle] at waits; cases waits
    exact ⟨kept, (PerPort.cell_put_other _ _ _ _ apart).trans idle⟩

theorem State.assignPlayers_port {s : State} {port : Port} (none : s.arbiter.pendingOps.cell port = none) :
    s.assignPlayers.port port = s.port port ∧ s.assignPlayers.arbiter.pendingOps.cell port = .none :=
  State.assignPlayers_keeps_of (P := fun t => t.port port = s.port port ∧ t.arbiter.pendingOps.cell port = .none)
    (fun _ _ _ h => h) (fun _ _ _ h => h) (fun _ _ h => h)
    (fun _ h => ⟨(State.grant_port h.2).1.trans h.1, (State.grant_port h.2).2⟩) ⟨rfl, none⟩

/-! ## Queues (R163) -/

/-- An entry apart from its phase. -/
def Entry.asWaiting (e : Entry) : Entry := { e with phase := .waiting }

theorem withHeadPhase_asWaiting (phase : EntryPhase) (q : List Entry) :
    (withHeadPhase phase q).map Entry.asWaiting = q.map Entry.asWaiting := by cases q <;> rfl

/-- The assignment of players changes nothing of a queue but phases. -/
theorem State.assignPlayers_queue (s : State) (q : Fin 64) :
    (s.assignPlayers.queue q).map Entry.asWaiting = (s.queue q).map Entry.asWaiting := by
  refine State.assignPlayers_keeps (P := fun t => (t.queue q).map Entry.asWaiting = (s.queue q).map Entry.asWaiting)
    (fun t w p h _ _ => ?_) s rfl
  rw [State.assign_queue]
  split
  · next same => rw [withHeadPhase_asWaiting, same, h]
  · exact h

theorem State.assignPlayers_queue_nil {s : State} {q : Fin 64} (empty : s.queue q = []) : s.assignPlayers.queue q = [] := by
  have h := s.assignPlayers_queue q
  rw [empty] at h
  exact List.map_eq_nil_iff.mp h

/-- A property of entries that does not read the phase. -/
theorem State.assignPlayers_all {s : State} {q : Fin 64} {P : Entry → Prop} (phase : ∀ e, P e ↔ P e.asWaiting)
    (h : ∀ e ∈ s.queue q, P e) : ∀ e ∈ s.assignPlayers.queue q, P e := by
  intro e he
  have member := List.mem_map_of_mem (f := Entry.asWaiting) he
  rw [State.assignPlayers_queue] at member
  obtain ⟨e', he', same⟩ := List.mem_map.mp member
  rw [phase, ← same, ← phase]
  exact h e' he'

/-! ## Assignments come to an end (R163) -/

theorem State.freePlayer_none {s : State} : s.freePlayer = none ↔ ∀ w, (s.player w).assigned ≠ none := by
  unfold State.freePlayer
  simp [List.find?_eq_none]

theorem State.freePlayer_some {s : State} {w : Fin 16} (h : s.freePlayer = some w) : (s.player w).assigned = none := by
  simpa using List.find?_some h

theorem State.waitingAge_isSome (s : State) (p : Fin 64) :
    (s.waitingAge p).isSome = true ↔ ∃ e, (s.queue p).head? = some e ∧ e.phase = .waiting := by
  unfold State.waitingAge
  cases (s.queue p).head? with
  | none => simp
  | some e => by_cases h : e.phase = .waiting <;> simp [h]

/-- The older of two heads is a WAITING one when there is one. -/
theorem State.olderHead_isSome (s : State) (best : Option (Fin 64)) (p : Fin 64) :
    (s.olderHead best p).isSome = (best.isSome || (s.waitingAge p).isSome) := by
  unfold State.olderHead
  cases waits : s.waitingAge p with
  | none => simp
  | some a =>
    cases best with
    | none => rfl
    | some b =>
      cases other : s.waitingAge b with
      | none => simp [other]
      | some c =>
        simp only [Option.bind_some, other]
        split <;> rfl

theorem State.oldestHead_none {s : State} : s.oldestHead = none ↔ ∀ p, s.waitingAge p = none := by
  have fold : ∀ (l : List (Fin 64)) best, (l.foldl s.olderHead best).isSome
      = (best.isSome || l.any fun p => (s.waitingAge p).isSome) := by
    intro l
    induction l with
    | nil => simp
    | cons p l ih =>
      intro best
      rw [List.foldl_cons, ih, State.olderHead_isSome, List.any_cons, Bool.or_assoc]
  rw [← Option.isNone_iff_eq_none, ← Option.not_isSome]
  unfold State.oldestHead
  rw [fold]
  simp

theorem State.oldestHead_some {s : State} {p : Fin 64} (h : s.oldestHead = some p) :
    ∃ e, (s.queue p).head? = some e ∧ e.phase = .waiting := by
  rw [← State.waitingAge_isSome]
  have held := foldl_keeps (P := fun best : Option (Fin 64) => ∀ b, best = some b → (s.waitingAge b).isSome = true)
    (f := s.olderHead) (fun best q ih b hb => ?_) (List.finRange 64) none (fun b hb => nomatch hb)
  · exact held p h
  · unfold State.olderHead at hb
    split at hb
    · exact ih b hb
    · next a waits _ =>
      cases hb
      rw [waits]
      rfl
    · next a c waits _ =>
      split at hb
      · cases hb
        rw [waits]
        rfl
      · exact ih b hb

/-- The players that are free. -/
def State.freePlayers (s : State) : List (Fin 16) := (List.finRange 16).filter fun w => (s.player w).assigned.isNone

theorem State.freePlayer_of_none_free {s : State} (h : s.freePlayers.length = 0) : s.freePlayer = none := by
  rw [State.freePlayer_none]
  intro w free
  have member : w ∈ s.freePlayers := List.mem_filter.mpr ⟨List.mem_finRange w, by simp [free]⟩
  rw [List.length_eq_zero_iff.mp h] at member
  cases member

/-- An assignment leaves fewer players free. -/
theorem State.assign_freePlayers {s : State} {w : Fin 16} (free : s.freePlayer = some w) (p : Fin 64) :
    (s.assign w p).freePlayers.length < s.freePlayers.length := by
  have fewer : (s.assign w p).freePlayers = s.freePlayers.filter fun v => w ≠ v := by
    unfold State.freePlayers
    rw [List.filter_filter]
    congr 1
    funext v
    rw [State.assign_assigned]
    by_cases same : w = v <;> simp [same]
  have member : w ∈ s.freePlayers :=
    List.mem_filter.mpr ⟨List.mem_finRange w, by rw [State.freePlayer_some free]; rfl⟩
  rw [fewer]
  exact List.length_filter_lt_length_iff_exists.mpr ⟨w, member, by simp⟩

theorem State.assignments_done (n : Nat) (s : State) (enough : s.freePlayers.length ≤ n) :
    (State.assignments n s).freePlayer = none ∨ (State.assignments n s).oldestHead = none := by
  induction n generalizing s with
  | zero => exact .inl (State.freePlayer_of_none_free (Nat.le_zero.mp enough))
  | succ n ih =>
    unfold State.assignments
    split
    · next w p free _ =>
      exact ih _ (Nat.le_of_lt_succ (Nat.lt_of_lt_of_le (State.assign_freePlayers free p) enough))
    · next stuck =>
      cases free : s.freePlayer with
      | none => exact .inl rfl
      | some w =>
        cases waits : s.oldestHead with
        | none => exact .inr rfl
        | some p => exact absurd waits (stuck w p free)

/-- Sixteen assignments are enough: then no player is free or no head waits. -/
theorem State.assignPlayers_done (s : State) : s.assignPlayers.freePlayer = none ∨ s.assignPlayers.oldestHead = none :=
  State.assignments_done 16 s (by
    unfold State.freePlayers
    exact (List.length_filter_le _ _).trans (by simp))

end Sys2Proof.Machine
end


section
/-! PROOFS. Position parameters stay within their ranges, and noise floors at or above the Nmin of the profile that a
position names (R21, R34, R46, R59). -/

namespace Sys2Proof.Machine

/-! ## The parameters of a record (R21) -/

/-- The parameters of a position's record, R21's legal ranges and R59's profile among them. -/
def Position.settings (x : Position) : Nat × Fin 4 × Nat × EcMode × Nat × Nat × Nat × Bool × Nat :=
  (x.duck, x.profile, x.tail, x.mode, x.step, x.reg, x.hang, x.nlp, x.shift)

theorem Position.legal_of_settings {x y : Position} (same : y.settings = x.settings) (h : x.legal) : y.legal := by
  simp only [Position.settings, Prod.mk.injEq] at same
  obtain ⟨duck, -, tail, -, step, reg, hang, -, shift⟩ := same
  unfold Position.legal at h ⊢
  rw [duck, tail, step, reg, hang, shift]
  exact h

/-- From `s` to `t` every position keeps its parameters. -/
def SettingsKept (s t : State) : Prop := ∀ p, (t.pos p).settings = (s.pos p).settings

theorem SettingsKept.refl (s : State) : SettingsKept s s := fun _ => rfl

theorem SettingsKept.trans {s t u : State} (h : SettingsKept s t) (k : SettingsKept t u) : SettingsKept s u :=
  fun p => (k p).trans (h p)

theorem SettingsKept.of_touches {parts : List Part} {s t : State} (h : Touches parts s t)
    (untouched : .positions ∉ parts) : SettingsKept s t := fun p => by
  unfold State.pos
  rw [show t.positions = s.positions from h .positions untouched]

theorem SettingsKept.foldl {α : Type} {f : State → α → State} (h : ∀ s x, SettingsKept s (f s x)) (l : List α)
    (s : State) : SettingsKept s (l.foldl f s) :=
  foldl_keeps (P := SettingsKept s) (fun t x ht => ht.trans (h t x)) l s (.refl s)

theorem SettingsKept.answered {s t : State} (h : SettingsKept s t) (p : Port) (status : Status) (payload : List Byte) :
    SettingsKept s (t.answer p status payload) :=
  h.trans (.of_touches (t.answer_touches p status payload) (by decide))

theorem State.setPos_settingsKept (s : State) (p : Fin 64) (x : Position) (h : x.settings = (s.pos p).settings) :
    SettingsKept s (s.setPos p x) := fun q => by
  rw [State.setPos_pos]
  split
  · next same => rw [← same]; exact h
  · rfl

theorem Position.announced_settings (x : Position) : x.announced.settings = x.settings := by
  unfold Position.announced
  cases x.state <;> rfl

theorem State.flush_settingsKept (s : State) (p : Fin 64) (cause : FlushCause) (chosen : Entry → Bool) :
    SettingsKept s (s.flush p cause chosen) := fun q => by
  rw [State.flush_pos]
  split
  · next same => rw [Position.announced_settings, same.1]
  · rfl

/-! ## A frame completion (R4, R31, R166) -/

theorem State.completeEntry_pos (s : State) (p q : Fin 64) (w : Fin 16) (e : Entry) :
    (s.completeEntry p w e).pos q = if p = q ∧ e.kind = .announce then (s.pos p).announced else s.pos q := by
  have assigned : ∀ t : State, t.assignPlayers.pos = t.pos := fun t => by
    unfold State.pos
    rw [t.assignPlayers_touches .positions (by decide)]
  unfold State.completeEntry
  dsimp only
  rw [assigned]
  generalize freed : State.setPlayer _ _ _ = u
  have filed : (u.file e.origin .promptDone p.val e.detail).pos = s.pos := by
    rw [State.file_keeps State.pos (fun _ _ => rfl), ← freed]
    rfl
  split
  · next announce => rw [State.announceEnded_pos, filed]; simp [announce]
  · next prompt => rw [filed]; simp [prompt]

/-- A frame completion leaves a record as it was, or as the end of its announcement leaves it. -/
theorem State.completeHead_pos (s : State) (p q : Fin 64) :
    (s.completeHead p).pos q = s.pos q ∨ (s.completeHead p).pos q = (s.pos q).announced := by
  unfold State.completeHead
  split
  · split
    · rw [State.completeEntry_pos]
      split
      · next same => rw [same.1]; exact .inr rfl
      · exact .inl rfl
    · exact .inl rfl
  · exact .inl rfl

theorem State.completeHeads_pos (s : State) (q : Fin 64) :
    s.completeHeads.pos q = s.pos q ∨ s.completeHeads.pos q = (s.pos q).announced := by
  refine foldl_keeps (P := fun t : State => t.pos q = s.pos q ∨ t.pos q = (s.pos q).announced)
    (fun t p h => ?_) (List.finRange 64) s (.inl rfl)
  rcases t.completeHead_pos p q with e | e <;> rcases h with h | h <;> rw [e, h]
  · exact .inl rfl
  · exact .inr rfl
  · exact .inr rfl
  · exact .inr (Position.announced_announced _)

theorem State.mix_statsOnly (s : State) (m : MixInputs) : StatsOnly s (s.mix m) := fun p => by
  simp only [State.mix, State.pos, State.clippedCounted, Table.cell_build]
  split
  · exact ⟨_, rfl⟩
  · exact ⟨_, rfl⟩

/-- The state at a frame completion when its ended entries are still to be taken. -/
def State.framed (s : State) : State :=
  (s.preMix.updateCoachDuck.mix ⟨s.stamped.echoFrames.1, s.stamped.echoFrames.2.suppressFrames.streamFrames.1,
    s.stamped.echoFrames.2.suppressFrames.streamFrames.2.soundHeads.whisperFrames.1⟩).beginFrame.pastFirstFrame

theorem State.completeFrame_eq (s : State) : s.completeFrame = s.framed.completeHeads := rfl

theorem StatsOnly.of_touches {parts : List Part} {s t : State} (h : Touches parts s t) (untouched : .positions ∉ parts) :
    StatsOnly s t := .of_eq (h .positions untouched)

theorem State.framed_statsOnly (s : State) : StatsOnly s s.framed := by
  have echo : StatsOnly s s.stamped.echoFrames.2 := (StatsOnly.of_eq rfl).trans (State.echoFrames_statsOnly s.stamped)
  have suppressed := echo.trans (.of_touches (State.suppressFrames_touches _) (by decide))
  have streams := suppressed.trans (.of_touches (State.streamFrames_touches _) (by decide))
  have sounding := streams.trans (.of_touches (State.soundHeads_touches _) (by decide))
  have whisper := sounding.trans (State.whisperFrames_statsOnly _)
  have ducked := whisper.trans (.of_touches (State.updateCoachDuck_touches _) (by decide))
  exact (ducked.trans (State.mix_statsOnly _ _)).trans (.of_touches ((State.beginFrame_touches _).trans (State.pastFirstFrame_touches _)) (by decide))

theorem StatsOnly.settingsKept {s t : State} (h : StatsOnly s t) : SettingsKept s t := fun p => by
  obtain ⟨x, hx⟩ := h p
  rw [hx]
  rfl

theorem State.completeFrame_settingsKept (s : State) : SettingsKept s s.completeFrame := by
  refine s.framed_statsOnly.settingsKept.trans fun q => ?_
  rcases s.framed.completeHeads_pos q with e | e
  · exact congrArg Position.settings e
  · exact (congrArg Position.settings e).trans (Position.announced_settings _)

theorem State.settle_settingsKept (s : State) : SettingsKept s s.settle := by
  have debounced := SettingsKept.of_touches s.settleDebounce_touches (by decide)
  unfold State.settle State.settleFrame
  split
  · exact debounced.trans (State.completeFrame_settingsKept _)
  · exact debounced

/-! ## Requests that keep the parameters (R26 to R45, R160) -/

theorem State.connecting_pos (s : State) (p t q : Fin 64) (state : PositionState) (stream : Option (Fin 16)) :
    (s.connecting p t state stream).pos q
      = if p = q then { s.pos p with state := state, trunkSlot := some t, stream := stream } else s.pos q := by
  let opened := s.setPos p { s.pos p with state := state, trunkSlot := some t, stream := stream }
  have rest : Touches [.highway, .echo, .mixer, .events, .suppress, .streams] opened (s.connecting p t state stream) := by
    have bound := (opened.bindTrunk_touches t p).mono (b := [.highway, .echo, .mixer, .events, .suppress, .streams]) (by decide)
    have cleared := bound.trans ((State.clearCanceller_touches _ p).mono (by decide))
    have untapped := cleared.trans ((State.dropListenerTaps_touches _ p).mono (by decide))
    have marked := untapped.trans ((State.setFirstFrame_touches _ p).mono (by decide))
    exact marked.trans ((State.addListener_touches _ stream).mono (by decide))
  rw [show (s.connecting p t state stream).pos q = opened.pos q from congrArg (·.cell q) (rest .positions (by decide))]
  exact s.setPos_pos p q _

theorem State.connecting_settingsKept (s : State) (p t : Fin 64) (state : PositionState) (stream : Option (Fin 16)) :
    SettingsKept s (s.connecting p t state stream) := fun q => by
  rw [State.connecting_pos]
  split
  · next same => rw [same]; rfl
  · rfl

/-- The checks on a new entry refuse the request, enter a fault and refuse it, or pass. -/
theorem State.checkItems_keeps {P : State → Prop} {s : State} {port : Port} {code : Byte} {items : List Item}
    {effect : State → State} (refused : ∀ status, P (s.refuse port status))
    (faulted : ∀ kinds c i, P (s.refuseFault port kinds c i code)) (passed : P (effect s)) :
    P (s.checkItems port code items effect) := by
  unfold State.checkItems
  split
  · exact faulted _ _ _
  · split
    · exact refused _
    · exact passed

theorem State.checkEntry_keeps {P : State → Prop} {s : State} {port : Port} {code : Byte} {p : Fin 64} {c : Fin 256}
    {effect : State → State} (refused : ∀ status, P (s.refuse port status))
    (faulted : ∀ kinds c i, P (s.refuseFault port kinds c i code)) (passed : P (effect s)) :
    P (s.checkEntry port code p c effect) := by
  unfold State.checkEntry
  split
  · exact refused _
  · exact State.checkItems_keeps refused faulted passed

/-- A CONNECT past its first checks is refused, or leads to one of its two effects. -/
theorem State.connect_keeps {P : State → Prop} {s : State} {port : Port} {p t : Fin 64} {prompt : Option PromptArg}
    {stream : Option (Fin 16)} (refused : ∀ status, P (s.refuse port status))
    (faulted : ∀ kinds c i, P (s.refuseFault port kinds c i Code.connect))
    (without : prompt = none → P ((s.connecting p t .connected none).answer port .ok []))
    (announced : ∀ x, prompt = some x → P (s.connectPrompt port p t (clipNumber x.clip) x.gain stream)) :
    P (s.connect port p t prompt stream) := by
  cases prompt with
  | none => exact without rfl
  | some x => exact State.checkEntry_keeps refused faulted (announced x rfl)

theorem State.refuse_settingsKept (s : State) (p : Port) (status : Status) : SettingsKept s (s.refuse p status) :=
  .of_touches (s.answer_touches p status []) (by decide)

theorem State.refuseFault_settingsKept (s : State) (p : Port) (kinds : FaultKinds) (c : Fin 256) (i : Option Nat)
    (code : Byte) : SettingsKept s (s.refuseFault p kinds c i code) :=
  .of_touches (s.refuseFault_touches p kinds c i code) (by decide)

theorem State.connect_settingsKept (s : State) (port : Port) (p t : Fin 64) (prompt : Option PromptArg)
    (stream : Option (Fin 16)) : SettingsKept s (s.connect port p t prompt stream) :=
  State.connect_keeps (s.refuse_settingsKept port) (fun kinds c i => s.refuseFault_settingsKept port kinds c i _)
    (fun _ => (s.connecting_settingsKept p t .connected none).answered port _ _) fun _ _ =>
    ((s.connecting_settingsKept p t .announce stream).trans
      (.of_touches (State.queueEntry_touches _ p port _ _) (by decide))).answered port _ _

theorem State.holdAccepted_settingsKept (s : State) (port : Port) (p : Fin 64) (stream : Option (Fin 16)) :
    SettingsKept s (s.holdAccepted port p stream) :=
  (((s.setPos_settingsKept p { s.pos p with
    state := .held, announcePending := (s.pos p).state = .announce, stream := stream } rfl).trans
    (.of_touches (State.dropListener_touches _ _) (by decide))).trans
    (.of_touches (State.addListener_touches _ stream) (by decide))).answered port _ _

theorem State.retrieveAccepted_settingsKept (s : State) (port : Port) (p : Fin 64) :
    SettingsKept s (s.retrieveAccepted port p) := by
  unfold State.retrieveAccepted
  dsimp only
  split
  · exact (s.setPos_settingsKept p { s.pos p with state := .announce, announcePending := false } rfl).answered port _ _
  · exact ((s.setPos_settingsKept p { s.pos p with state := .connected, stream := none } rfl).trans
      (.of_touches (State.dropListener_touches _ _) (by decide))).answered port _ _

theorem State.releasing_settingsKept {cause : FlushCause} (other : cause ≠ .cancel) (s : State) (p : Fin 64) :
    SettingsKept s (s.releasing p cause) := fun q => by
  rw [State.releasing_pos other]
  split
  · next same => rw [same]; rfl
  · rfl

theorem State.passTo_settingsKept (s : State) (p : Fin 64) (port : Port) : SettingsKept s (s.passTo p port) :=
  (s.setPos_settingsKept p { s.pos p with owner := some port, offer := false } rfl).trans
    (.of_touches (State.setQueue_touches _ p _) (by decide))

theorem State.offer_settingsKept (s : State) (port q : Port) (p : Fin 64) (offer : Bool) (k : EventKind) (o d : Nat) :
    SettingsKept s (((s.setPos p { s.pos p with offer := offer }).file q k o d).answer port .ok []) :=
  ((s.setPos_settingsKept p { s.pos p with offer := offer } rfl).trans
    (.of_touches (State.file_touches _ q k o d) (by decide))).answered port _ _

theorem State.statsAccepted_settingsKept (s : State) (port : Port) (p : Fin 64) (clear : Bool) :
    SettingsKept s (s.statsAccepted port p clear) := by
  unfold State.statsAccepted
  dsimp only
  refine SettingsKept.answered ?_ port _ _
  split
  · exact s.setPos_settingsKept p { s.pos p with stats := Stats.zero } rfl
  · exact .refl s

theorem State.inherit_settingsKept (s : State) (port : Port) (p : Fin 64) : SettingsKept s (s.inherit port p) :=
  (s.passTo_settingsKept p port.other).trans (.of_touches (State.file_touches _ _ _ _ _) (by decide))

theorem State.clearOffersTo_settingsKept (s : State) (port : Port) : SettingsKept s (s.clearOffersTo port) := fun p => by
  unfold State.clearOffersTo
  simp only [State.pos, Table.cell_map]
  split
  · rfl
  · rfl

theorem State.loseStream_settingsKept (s : State) (k : Fin 16) (p : Fin 64) : SettingsKept s (s.loseStream k p) := by
  unfold State.loseStream
  dsimp only
  split
  · exact (s.setPos_settingsKept p { s.pos p with stream := none } rfl).trans
      (.of_touches (State.fileOwner_touches _ _ _ _ _) (by decide))
  · exact .refl s

theorem State.resetStream_settingsKept (s : State) (k : Fin 16) : SettingsKept s (s.resetStream k) := by
  have unnamed := SettingsKept.foldl (fun t p => t.loseStream_settingsKept k p) (List.finRange 64) s
  unfold State.resetStream
  generalize (List.finRange 64).foldl (fun t p => t.loseStream k p) s = u at unnamed ⊢
  exact (unnamed.trans (.of_touches (u.setStream_touches k _) (by decide))).trans
    (.of_touches (State.stopStream_touches _ k) (by decide))

theorem SettingsKept.of_request {s t : State} {p : Port} {code : Byte} {body : State → State}
    (h : (Host.Outcome.next (s.request p code body) : Host.Outcome State Fault Refusal) = .next t)
    (kept : ∀ u, SettingsKept u (body u)) : SettingsKept s t := by
  cases h
  exact State.request_keeps (P := SettingsKept s) (.refl s) (fun _ => .refl s) fun _ => kept (s.taken p code)

theorem State.checked_settingsKept {s : State} {p : Port} {checks : List (Bool × Status)} {effect : State → State}
    (passed : SettingsKept s (effect s)) : SettingsKept s (s.checked p checks effect) :=
  State.checked_keeps (s.refuse_settingsKept p) fun _ => passed

theorem State.withNumber_settingsKept {n : Nat} {s : State} {p : Port} {b : Byte} {body : Fin n → State → State}
    (found : ∀ i, SettingsKept s (body i s)) : SettingsKept s (s.withNumber p b body) :=
  State.withNumber_keeps (s.refuse_settingsKept p) found

/-- The commands that give a record other parameters: pin reset, opening and closing, and the two that set some. -/
def setsParameters : Instr → Bool
  | .pinReset => true
  | .openPosition .. => true
  | .closePosition .. => true
  | .resetPort _ => true
  | .setPosition .. => true
  | .setTail .. => true
  | _ => false

theorem exec_settingsKept {c : Instr} {s t : State} (h : exec c s = .next t) (keeps : setsParameters c = false) :
    SettingsKept s t := by
  by_cases untouched : .positions ∉ commandParts c
  · exact .of_touches (exec_touches h) untouched
  cases c with
  | pinReset | openPosition | closePosition | resetPort | setPosition | setTail => cases keeps
  | cycle trunkRx agentRx agentSig =>
    obtain e | ⟨-, e⟩ := cycle_next h <;> rw [e]
    · exact .refl s
    · exact s.settle_settingsKept.trans (.of_touches (State.cycled_touches _ _ _ _) (by decide))
  | frameCompletion =>
    cases h
    split
    · exact s.settle_settingsKept
    · exact .refl s
  | syncLossMissingPulse =>
    obtain e | e := syncLossMissingPulse_next h <;> rw [e]
    · exact .refl s
    · exact s.settle_settingsKept.trans (.of_touches (State.loseSync_touches _ _ _) (by decide))
  | fsPulse bit =>
    obtain e | ⟨-, e⟩ := fsPulse_next h <;> rw [e]
    · exact .refl s
    · exact s.settle_settingsKept.trans (.of_touches (State.pulsed_touches _ bit) (by decide))
  | connect port position trunk prompt stream =>
    refine SettingsKept.of_request h fun u => ?_
    split
    · exact State.checked_settingsKept (u.connect_settingsKept port _ _ _ _)
    · exact u.refuse_settingsKept port _
  | hold port position stream =>
    refine SettingsKept.of_request h fun u => ?_
    split
    · exact State.checked_settingsKept (u.holdAccepted_settingsKept port _ _)
    · exact u.refuse_settingsKept port _
  | retrieve port position =>
    exact SettingsKept.of_request h fun u => State.withNumber_settingsKept fun p =>
      State.checked_settingsKept (u.retrieveAccepted_settingsKept port p)
  | release port position =>
    exact SettingsKept.of_request h fun u => State.withNumber_settingsKept fun p =>
      State.checked_settingsKept (((u.releasing_settingsKept (by decide) p).trans
        (.of_touches (State.assignPlayers_touches _) (by decide))).answered port _ _)
  | offerPositionOffer port position choice =>
    exact SettingsKept.of_request h fun u => State.withNumber_settingsKept fun p => State.checked_settingsKept
      (State.checked_settingsKept (u.offer_settingsKept port _ p true _ _ _))
  | offerPositionWithdraw port position =>
    exact SettingsKept.of_request h fun u => State.withNumber_settingsKept fun p => State.checked_settingsKept
      (u.offer_settingsKept port _ p false _ _ _)
  | acceptPosition port position =>
    exact SettingsKept.of_request h fun u => State.withNumber_settingsKept fun p => State.checked_settingsKept
      (((u.passTo_settingsKept p port).trans (.of_touches (State.fileOwner_touches _ _ _ _ _) (by decide))).answered port _ _)
  | positionStats port position clear =>
    exact SettingsKept.of_request h fun u => State.withNumber_settingsKept fun p => State.checked_settingsKept
      (u.statsAccepted_settingsKept port p clear)
  | cancelWhisper port position =>
    exact SettingsKept.of_request h fun u => State.withNumber_settingsKept fun p => State.checked_settingsKept
      (((u.flush_settingsKept p .cancel _).trans (.of_touches (State.assignPlayers_touches _) (by decide))).answered port _ _)
  | _ => exact absurd (by simp [commandParts, grantParts]) untouched

end Sys2Proof.Machine
end


section
/-! PROOFS. Parameters, profiles, and what the suppressor and the mixer keep stay within their ranges, and every floor at or
above its Nmin (R21, R46, R57, R59, R93). -/

namespace Sys2Proof.Machine

/-! ## What holds of a port reset's steps (R176) -/

/-- The last steps of the teardown: the taps the port owns, its local state, and PEER_RESET. -/
def State.resetEnd (s : State) (port : Port) : State :=
  ((s.removeTapsOwned port).resetLocal port).file port.other .peerReset (Port.number port) 0

theorem State.resetEnd_touches (s : State) (port : Port) :
    Touches [.mixer, .clipStore, .events, .ports] s (s.resetEnd port) :=
  (((s.removeTapsOwned_touches port).mono (by decide)).trans ((State.resetLocal_touches _ port).mono (by decide))).trans
    ((State.file_touches _ _ _ _ _).mono (by decide))

theorem State.resetEnd_mixer (s : State) (port : Port) :
    (s.resetEnd port).mixer = { s.mixer with taps := s.mixer.taps.map (withoutOwner port) } :=
  (State.file_touches ((s.removeTapsOwned port).resetLocal port) port.other .peerReset (Port.number port) 0 .mixer
    (by decide)).trans (State.resetLocal_touches (s.removeTapsOwned port) port .mixer (by decide))

theorem State.resetTeardown_eq (s : State) (port : Port) :
    s.resetTeardown port = (((s.resetPositions port).resetStreams port).resetWhispers port).resetEnd port := rfl

/-- What each step of the teardown keeps, the teardown keeps. -/
theorem State.resetTeardown_keeps {P : State → Prop} {port : Port} (inherit : ∀ t p, P t → P (t.inherit port p))
    (clear : ∀ t, P t → P (t.clearOffersTo port)) (tearDown : ∀ t p, P t → P (t.tearDown p))
    (stop : ∀ t k, P t → P (t.resetStream k)) (flush : ∀ t p, P t → P (t.flush p .portReset fun e => e.origin = port))
    (assign : ∀ t, P t → P t.assignPlayers)
    (rest : ∀ t u, Touches [.mixer, .clipStore, .events, .ports] t u → u.mixer.coachDuck = t.mixer.coachDuck → P t → P u)
    {s : State} (h : P s) : P (s.resetTeardown port) := by
  have handed : P ((s.offeredBy port).foldl (fun s p => s.inherit port p) s) := foldl_keeps (fun t p => inherit t p) _ s h
  have positions : P (s.resetPositions port) := foldl_keeps (fun t p => tearDown t p) _ _ (clear _ handed)
  have streams : P ((s.resetPositions port).resetStreams port) := foldl_keeps (fun t k => stop t k) _ _ positions
  have whispers : P (((s.resetPositions port).resetStreams port).resetWhispers port) :=
    assign _ (foldl_keeps (fun t p => flush t p) _ _ streams)
  rw [State.resetTeardown_eq]
  exact rest _ _ (State.resetEnd_touches _ port) (by rw [State.resetEnd_mixer]) whispers

theorem State.tearDown_keeps {P : State → Prop} (release : ∀ t p, P t → P (t.releasing p .portReset))
    (close : ∀ t p, P t → P (t.closing p .portReset)) {s : State} (h : P s) (p : Fin 64) : P (s.tearDown p) := by
  unfold State.tearDown
  split
  · exact close _ p (release s p h)
  · exact close s p h

/-- What holds of a request's body holds of the request. -/
theorem exec_request_keeps {P : State → Prop} {s t : State} {p : Port} {code : Byte} {body : State → State}
    (h : (Host.Outcome.next (s.request p code body) : Host.Outcome State Fault Refusal) = .next t) (start : P s)
    (ports : ∀ u x, P u → P { u with ports := x }) (kept : ∀ u, P u → P (body u)) : P t := by
  cases h
  exact State.request_keeps start (fun x => ports s x start) fun _ => kept _ (ports s _ start)

/-! ## Parameters (R21) -/

theorem State.parametersLegal_of_kept {s t : State} (h : s.parametersLegal) (kept : SettingsKept s t) :
    t.parametersLegal := fun p => Position.legal_of_settings (kept p) (h p)

theorem Position.closedContents_legal : Position.closedContents.legal := by unfold Position.legal; decide

/-- A record within its ranges takes the place of one. -/
theorem State.parametersLegal_put {s t : State} (h : s.parametersLegal) {p : Fin 64} {x : Position}
    (positions : t.positions = s.positions.put p x) (legal : x.legal) : t.parametersLegal := fun q => by
  unfold State.pos
  rw [positions, Table.cell_put]
  split
  · exact legal
  · exact h q

theorem clampTo_range {low high : Nat} (h : low ≤ high) (n : Nat) : low ≤ clampTo low high n ∧ clampTo low high n ≤ high := by
  unfold clampTo
  omega

/-- Every parameter is adjusted into its range (R34). -/
theorem Position.adjusted_legal {x : Position} (h : x.legal) (a : ParamsArg) (mode : Option EcMode) :
    (x.adjusted a mode).legal := by
  obtain ⟨duck, tail, tail', step, reg, reg', hang, shift⟩ := h
  unfold Position.adjusted Position.legal
  dsimp only
  refine ⟨?_, tail, tail', ?_, ?_, ?_, ?_, ?_⟩
  · cases a.duck with
    | none => exact duck
    | some g => exact clampGain_le _
  · cases a.step with
    | none => exact step
    | some b => exact (clampTo_range (by decide) _).2
  · cases a.reg with
    | none => exact reg
    | some b => exact (clampTo_range (by decide) _).1
  · cases a.reg with
    | none => exact reg'
    | some b => exact (clampTo_range (by decide) _).2
  · cases a.hang with
    | none => exact hang
    | some b => exact (clampTo_range (by decide) _).2
  · cases a.shift with
    | none => exact shift
    | some b => exact (clampTo_range (by decide) _).2

theorem Position.opened_legal {tail : Nat} (least : 1 ≤ tail) (most : tail ≤ 4) (port : Port) (slot : Fin 64)
    (profile : Fin 4) : (Position.opened port slot tail profile).legal := by
  obtain ⟨duck, -, -, rest⟩ := Position.closedContents_legal
  exact ⟨duck, least, most, rest⟩

theorem State.openAccepted_positions (s : State) (port : Port) (p slot : Fin 64) (tail : Nat) (profile : Fin 4) :
    (s.openAccepted port p slot tail profile).positions = s.positions.put p (Position.opened port slot tail profile) := rfl

theorem State.setAccepted_positions (s : State) (port : Port) (p : Fin 64) (a : ParamsArg) (mode : Option EcMode) :
    (s.setAccepted port p a mode).positions = s.positions.put p ((s.pos p).adjusted a mode) := rfl

theorem State.tailAccepted_positions (s : State) (port : Port) (p : Fin 64) (tail : Nat) :
    (s.tailAccepted port p tail).positions = s.positions.put p { s.pos p with tail := tail } := by
  unfold State.tailAccepted
  dsimp only
  split
  · rfl
  · split
    · rfl
    · rfl

theorem State.closed_positions {cause : FlushCause} (other : cause ≠ .cancel) (s : State) (p : Fin 64) (port : Port)
    (status : Status) (payload : List Byte) : (((s.closing p cause).assignPlayers).answer port status payload).positions
      = s.positions.put p Position.closedContents := by
  rw [State.answer_positions, State.assignPlayers_touches _ .positions (by decide), s.closing_positions other p]

theorem State.resetTeardown_parametersLegal {s : State} (h : s.parametersLegal) (port : Port) :
    (s.resetTeardown port).parametersLegal := by
  refine State.resetTeardown_keeps (P := State.parametersLegal) ?_ ?_ ?_ ?_ ?_ ?_ ?_ h
  · exact fun t p ht => State.parametersLegal_of_kept ht (t.inherit_settingsKept port p)
  · exact fun t ht => State.parametersLegal_of_kept ht (t.clearOffersTo_settingsKept port)
  · refine fun t p ht => State.tearDown_keeps (fun u q hu => ?_) (fun u q hu => ?_) ht p
    · exact State.parametersLegal_of_kept hu (u.releasing_settingsKept (by decide) q)
    · exact State.parametersLegal_put hu (u.closing_positions (by decide) q) Position.closedContents_legal
  · exact fun t k ht => State.parametersLegal_of_kept ht (t.resetStream_settingsKept k)
  · exact fun t p ht => State.parametersLegal_of_kept ht (t.flush_settingsKept p _ _)
  · exact fun t ht => State.parametersLegal_of_kept ht (.of_touches t.assignPlayers_touches (by decide))
  · exact fun t u touched _ ht => State.parametersLegal_of_kept ht (.of_touches touched (by decide))

theorem State.checked_parametersLegal {s : State} (h : s.parametersLegal) {p : Port} {checks : List (Bool × Status)}
    {effect : State → State} (passed : (∀ c ∈ checks, c.1 = false) → (effect s).parametersLegal) :
    (s.checked p checks effect).parametersLegal :=
  State.checked_keeps (fun _ => h) fun none => passed (firstRefusal_eq_none.mp none)

theorem exec_parametersLegal {c : Instr} {s t : State} (legal : s.parametersLegal) (h : exec c s = .next t) :
    t.parametersLegal := by
  by_cases keeps : setsParameters c = false
  · exact State.parametersLegal_of_kept legal (exec_settingsKept h keeps)
  have request := fun {p code body} (h : (Host.Outcome.next (s.request p code body) : Host.Outcome State Fault Refusal)
    = .next t) => exec_request_keeps (P := State.parametersLegal) h legal fun _ _ hu => hu
  cases c with
  | pinReset =>
    cases h
    intro p
    show (State.reset.positions.cell p).legal
    rw [show State.reset.positions.cell p = Position.closedContents from Table.cell_fill _ p]
    exact Position.closedContents_legal
  | openPosition port position slot tail profile =>
    refine request h fun u hu => ?_
    split
    · refine State.checked_parametersLegal hu fun passed => ?_
      simp only [List.forall_mem_cons, Bool.or_eq_false_iff, decide_eq_false_iff_not, Nat.not_lt] at passed
      obtain ⟨⟨least, most⟩, -⟩ := passed
      exact State.parametersLegal_put hu (u.openAccepted_positions port _ _ _ _)
        (Position.opened_legal least most port _ _)
    · exact hu
  | closePosition port position =>
    refine request h fun u hu => State.withNumber_keeps (fun _ => hu) fun p => State.checked_parametersLegal hu fun _ =>
      State.parametersLegal_put hu (u.closed_positions (by decide) p port _ _) Position.closedContents_legal
  | resetPort port => exact request h fun u hu => State.resetTeardown_parametersLegal hu port
  | setPosition port position params =>
    refine request h fun u hu => ?_
    split
    · exact State.checked_parametersLegal hu fun _ =>
        State.parametersLegal_put hu (u.setAccepted_positions port _ _ _) (Position.adjusted_legal (hu _) _ _)
    · exact hu
  | setTail port position tail =>
    refine request h fun u hu => State.withNumber_keeps (fun _ => hu) fun p => State.checked_parametersLegal hu fun passed =>
      State.checked_parametersLegal hu fun _ => ?_
    simp only [List.forall_mem_cons, Bool.or_eq_false_iff, decide_eq_false_iff_not, Nat.not_lt] at passed
    obtain ⟨⟨least, most⟩, -⟩ := passed
    obtain ⟨duck, -, -, rest⟩ := hu p
    exact State.parametersLegal_put hu (u.tailAccepted_positions port p _) ⟨duck, least, most, rest⟩
  | _ => exact absurd rfl keeps

/-! ## Floors (R46, R59) -/

/-- From `s` to `t` no floor and no profile's Nmin has changed. -/
def FloorsKept (s t : State) : Prop :=
  (∀ p, (t.suppressor p).floor = (s.suppressor p).floor) ∧ ∀ n, (t.profile n).nmin = (s.profile n).nmin

theorem FloorsKept.of_eq {s t : State} (h : t.suppress = s.suppress) : FloorsKept s t := by
  refine ⟨fun p => ?_, fun n => ?_⟩
  · unfold State.suppressor; rw [h]
  · unfold State.profile; rw [h]

theorem FloorsKept.of_touches {parts : List Part} {s t : State} (h : Touches parts s t) (untouched : .suppress ∉ parts) :
    FloorsKept s t := .of_eq (h .suppress untouched)

theorem FloorsKept.trans {s t u : State} (h : FloorsKept s t) (k : FloorsKept t u) : FloorsKept s u :=
  ⟨fun p => (k.1 p).trans (h.1 p), fun n => (k.2 n).trans (h.2 n)⟩

theorem Position.profile_of_settings {x y : Position} (h : y.settings = x.settings) : y.profile = x.profile :=
  congrArg (fun z => z.2.1) h

theorem State.floorsSound_of_kept {s t : State} (h : s.floorsSound) (settings : SettingsKept s t) (floors : FloorsKept s t) :
    t.floorsSound := fun p => by
  rw [Position.profile_of_settings (settings p), floors.2, floors.1]
  exact h p

/-- A position that takes a record and the suppressor state of R46 under its profile. -/
theorem State.floorsSound_put {s t : State} (h : s.floorsSound) {p : Fin 64} {x : Position} {y : Suppressor}
    (positions : t.positions = s.positions.put p x)
    (suppress : t.suppress = { s.suppress with positions := s.suppress.positions.put p y })
    (floor : (s.profile x.profile).nmin ≤ y.floor) : t.floorsSound := fun q => by
  have profiles : t.profile = s.profile := by unfold State.profile; rw [suppress]
  unfold State.pos State.suppressor
  rw [positions, suppress, profiles]
  dsimp only
  rw [Table.cell_put, Table.cell_put]
  split
  · exact floor
  · exact h q

theorem Suppressor.run_floor (x : Suppressor) (profile : Profile) (m : Frame) :
    profile.nmin ≤ (x.run profile m).floor := by
  unfold Suppressor.run Suppressor.stages nextFloor
  exact Nat.le_max_left _ _

theorem State.suppressed_floor {s : State} {p : Fin 64} (h : (s.profile (s.pos p).profile).nmin ≤ (s.suppressor p).floor) :
    (s.profile (s.pos p).profile).nmin ≤ (s.suppressed p).floor := by
  unfold State.suppressed
  split
  · split
    · dsimp only
      split
      · exact Suppressor.run_floor _ _ _
      · exact Suppressor.run_floor _ _ _
    · exact h
  · exact h

theorem State.suppress1_floor {s : State} {p : Fin 64} (h : (s.profile (s.pos p).profile).nmin ≤ (s.suppressor p).floor) :
    (s.profile (s.pos p).profile).nmin ≤ (s.suppress1 p).floor := by
  unfold State.suppress1
  split
  · exact h
  all_goals exact State.suppressed_floor h

theorem State.completeFrame_floorsSound {s : State} (h : s.floorsSound) : s.completeFrame.floorsSound := fun p => by
  rw [Position.profile_of_settings (s.completeFrame_settingsKept p), s.completeFrame_suppressor]
  unfold State.profile
  rw [s.completeFrame_profiles]
  exact State.suppress1_floor (h p)

theorem State.settle_floorsSound {s : State} (h : s.floorsSound) : s.settle.floorsSound := by
  have debounced : s.settleDebounce.floorsSound := State.floorsSound_of_kept h
    (.of_touches s.settleDebounce_touches (by decide)) (.of_touches s.settleDebounce_touches (by decide))
  unfold State.settle State.settleFrame
  split
  · exact State.completeFrame_floorsSound debounced
  · exact debounced

theorem State.setFirstFrames_floorsKept (s : State) : FloorsKept s s.setFirstFrames := by
  refine ⟨fun p => ?_, fun _ => rfl⟩
  rw [State.setFirstFrames_suppressor]
  split
  · rfl
  · rfl

theorem State.restoreSync_floorsKept (s : State) (bit : Nat) : FloorsKept s (s.restoreSync bit) := by
  have lines : FloorsKept s (s.relocked bit) := .of_touches (s.relocked_touches bit) (by decide)
  exact (lines.trans (State.setFirstFrames_floorsKept _)).trans (.of_touches (State.fileBoth_touches _ _ _ _) (by decide))

theorem State.pulsed_floorsKept (s : State) (bit : Nat) : FloorsKept s (s.pulsed bit) := by
  unfold State.pulsed
  split
  · split
    · exact .of_eq rfl
    · exact .of_touches (s.loseSync_touches _ _) (by decide)
  · split
    · exact s.restoreSync_floorsKept bit
    · exact .of_eq rfl

/-- CONNECT sets the first-frame flag and changes nothing else of the suppressor (R27). -/
theorem State.connecting_suppress (s : State) (p t : Fin 64) (state : PositionState) (stream : Option (Fin 16)) :
    (s.connecting p t state stream).suppress = { s.suppress with
      positions := s.suppress.positions.put p { s.suppressor p with firstFrame := true } } := by
  let untapped := (((s.setPos p { s.pos p with state := state, trunkSlot := some t, stream := stream }).bindTrunk t
    p).clearCanceller p).dropListenerTaps p
  have before : untapped.suppress = s.suppress :=
    (State.dropListenerTaps_touches _ p .suppress (by decide)).trans (State.clearCanceller_touches _ p .suppress (by decide))
  have marked : (untapped.setFirstFrame p).suppress = { s.suppress with
      positions := s.suppress.positions.put p { s.suppressor p with firstFrame := true } } := by
    unfold State.setFirstFrame State.setSuppressor State.suppressor
    rw [before]
  exact (State.addListener_touches _ stream .suppress (by decide)).trans marked

theorem State.setFirstFrame_floorsKept {s t : State} {p : Fin 64} (h : t.suppress = { s.suppress with
    positions := s.suppress.positions.put p { s.suppressor p with firstFrame := true } }) : FloorsKept s t := by
  refine ⟨fun q => ?_, fun n => ?_⟩
  · unfold State.suppressor
    rw [h, Table.cell_put]
    split
    · next same => rw [← same]; rfl
    · rfl
  · unfold State.profile; rw [h]

theorem State.connect_suppress (s : State) (port : Port) (p t : Fin 64) (prompt : Option PromptArg)
    (stream : Option (Fin 16)) : (s.connect port p t prompt stream).suppress = s.suppress
      ∨ (s.connect port p t prompt stream).suppress = { s.suppress with
          positions := s.suppress.positions.put p { s.suppressor p with firstFrame := true } } := by
  refine State.connect_keeps (P := fun u => u.suppress = s.suppress ∨ u.suppress = { s.suppress with
    positions := s.suppress.positions.put p { s.suppressor p with firstFrame := true } })
    (fun _ => .inl rfl) (fun kinds c i => .inl ?_) (fun _ => .inr ?_) (fun x _ => .inr ?_)
  · exact s.refuseFault_touches port kinds c i _ .suppress (by decide)
  · exact s.connecting_suppress p t _ _
  · exact (State.queueEntry_touches _ p port _ _ .suppress (by decide)).trans (s.connecting_suppress p t _ _)

theorem State.closed_suppress {cause : FlushCause} (other : cause ≠ .cancel) (s : State) (p : Fin 64) (port : Port)
    (status : Status) (payload : List Byte) : (((s.closing p cause).assignPlayers).answer port status payload).suppress
      = { s.suppress with positions := s.suppress.positions.put p (Suppressor.fresh (s.profile 2)) } := by
  rw [State.answer_suppress, State.assignPlayers_touches _ .suppress (by decide), s.closing_suppress other p]

theorem State.openAccepted_suppress (s : State) (port : Port) (p slot : Fin 64) (tail : Nat) (profile : Fin 4) :
    (s.openAccepted port p slot tail profile).suppress
      = { s.suppress with positions := s.suppress.positions.put p (Suppressor.fresh (s.profile profile)) } := rfl

theorem State.setAccepted_suppress (s : State) (port : Port) (p : Fin 64) (a : ParamsArg) (mode : Option EcMode) :
    (s.setAccepted port p a mode).suppress = { s.suppress with
      positions := s.suppress.positions.put p ((s.suppressor p).atLeast
        (if a.profile.isSome then (s.profile ((s.pos p).adjusted a mode).profile).nmin else 0)) } := rfl

theorem State.resetTeardown_floorsSound {s : State} (h : s.floorsSound) (port : Port) :
    (s.resetTeardown port).floorsSound := by
  refine State.resetTeardown_keeps (P := State.floorsSound) ?_ ?_ ?_ ?_ ?_ ?_ ?_ h
  · exact fun t p ht => State.floorsSound_of_kept ht (t.inherit_settingsKept port p)
      (.of_touches (t.inherit_touches port p) (by decide))
  · exact fun t ht => State.floorsSound_of_kept ht (t.clearOffersTo_settingsKept port) (.of_eq rfl)
  · refine fun t p ht => State.tearDown_keeps (fun u q hu => ?_) (fun u q hu => ?_) ht p
    · exact State.floorsSound_of_kept hu (u.releasing_settingsKept (by decide) q)
        (.of_touches (u.releasing_releaseParts (by decide) q) (by decide))
    · exact State.floorsSound_put hu (u.closing_positions (by decide) q) (u.closing_suppress (by decide) q) (Nat.le_refl _)
  · exact fun t k ht => State.floorsSound_of_kept ht (t.resetStream_settingsKept k)
      (.of_touches (t.resetStream_touches k) (by decide))
  · exact fun t p ht => State.floorsSound_of_kept ht (t.flush_settingsKept p _ _)
      (.of_touches (t.flush_touches p _ _) (by decide))
  · exact fun t ht => State.floorsSound_of_kept ht (.of_touches t.assignPlayers_touches (by decide))
      (.of_touches t.assignPlayers_touches (by decide))
  · exact fun t u touched _ ht => State.floorsSound_of_kept ht (.of_touches touched (by decide))
      (.of_touches touched (by decide))

theorem State.checked_floorsSound {s : State} (h : s.floorsSound) {p : Port} {checks : List (Bool × Status)}
    {effect : State → State} (passed : (effect s).floorsSound) : (s.checked p checks effect).floorsSound :=
  State.checked_keeps (fun _ => h) fun _ => passed

/-- Replacing a profile raises the floors of the positions that name it (R58, R59). -/
theorem State.replaceProfile_floorsSound {s : State} (h : s.floorsSound) (n : Fin 4) (x : Profile) :
    (s.replaceProfile n x).floorsSound := fun p => by
  show ((s.suppress.profiles.put n x).cell (s.pos p).profile).nmin
    ≤ ((Table.build fun q => if (s.pos q).profile = n then (s.suppressor q).atLeast x.nmin else s.suppressor q).cell p).floor
  rw [Table.cell_build, Table.cell_put]
  by_cases named : n = (s.pos p).profile
  · rw [if_pos named, if_pos named.symm]
    exact Nat.le_max_right _ _
  · rw [if_neg named, if_neg (Ne.symm named)]
    exact h p

theorem State.setAccepted_floorsSound {s : State} (h : s.floorsSound) (port : Port) (p : Fin 64) (a : ParamsArg)
    (mode : Option EcMode) : (s.setAccepted port p a mode).floorsSound := by
  refine State.floorsSound_put h (s.setAccepted_positions port p a mode) (s.setAccepted_suppress port p a mode) ?_
  cases named : a.profile with
  | none =>
    have kept : ((s.pos p).adjusted a mode).profile = (s.pos p).profile := by
      unfold Position.adjusted
      rw [named]
    rw [kept]
    exact (h p).trans (Nat.le_max_left _ _)
  | some b => exact Nat.le_max_right _ _

theorem State.tailAccepted_floorsSound {s : State} (h : s.floorsSound) (port : Port) (p : Fin 64) (tail : Nat) :
    (s.tailAccepted port p tail).floorsSound := fun q => by
  have suppress : (s.tailAccepted port p tail).suppress = s.suppress :=
    s.tailAccepted_touches port p _ .suppress (by decide)
  unfold State.pos State.suppressor State.profile
  rw [s.tailAccepted_positions, suppress, Table.cell_put]
  split
  · next same => rw [← same]; exact h p
  · exact h q

theorem State.released_floorsSound {s : State} (h : s.floorsSound) (port : Port) (p : Fin 64) :
    (((s.releasing p .release).assignPlayers).answer port .ok []).floorsSound := by
  have released : (s.releasing p .release).floorsSound := State.floorsSound_of_kept h
    (s.releasing_settingsKept (by decide) p) (.of_touches (s.releasing_releaseParts (by decide) p) (by decide))
  have assigned := (State.assignPlayers_touches (s.releasing p .release)).mono (b := .ports :: grantParts) (by decide)
  have answered := assigned.trans ((State.answer_touches _ port .ok []).mono (by decide))
  exact State.floorsSound_of_kept released (.of_touches answered (by decide)) (.of_touches answered (by decide))

theorem reset_suppressor (p : Fin 64) : State.reset.suppressor p = Suppressor.fresh (State.reset.profile 2) :=
  Table.cell_fill _ p

theorem reset_pos (p : Fin 64) : State.reset.pos p = Position.closedContents := Table.cell_fill _ p

theorem reset_floorsSound : State.reset.floorsSound := fun p => by
  rw [reset_pos, reset_suppressor]
  exact Nat.le_refl _

theorem exec_floorsSound {c : Instr} {s t : State} (sound : s.floorsSound) (h : exec c s = .next t) : t.floorsSound := by
  by_cases apart : setsParameters c = false ∧ .suppress ∉ commandParts c
  · exact State.floorsSound_of_kept sound (exec_settingsKept h apart.1) (.of_touches (exec_touches h) apart.2)
  have request := fun {p code body} (h : (Host.Outcome.next (s.request p code body) : Host.Outcome State Fault Refusal)
    = .next t) => exec_request_keeps (P := State.floorsSound) h sound fun _ _ hu => hu
  cases c with
  | pinReset => cases h; exact reset_floorsSound
  | cycle trunkRx agentRx agentSig =>
    obtain e | ⟨-, e⟩ := cycle_next h <;> rw [e]
    · exact sound
    · exact State.floorsSound_of_kept (State.settle_floorsSound sound) (.of_touches (State.cycled_touches _ _ _ _) (by decide))
        (.of_touches (State.cycled_touches _ _ _ _) (by decide))
  | frameCompletion =>
    cases h
    split
    · exact State.settle_floorsSound sound
    · exact sound
  | syncLossMissingPulse =>
    obtain e | e := syncLossMissingPulse_next h <;> rw [e]
    · exact sound
    · exact State.floorsSound_of_kept (State.settle_floorsSound sound) (.of_touches (State.loseSync_touches _ _ _) (by decide))
        (.of_touches (State.loseSync_touches _ _ _) (by decide))
  | fsPulse bit =>
    obtain e | ⟨-, e⟩ := fsPulse_next h <;> rw [e]
    · exact sound
    · exact State.floorsSound_of_kept (State.settle_floorsSound sound) (.of_touches (State.pulsed_touches _ bit) (by decide))
        (State.pulsed_floorsKept _ bit)
  | resetPort port => exact request h fun u hu => State.resetTeardown_floorsSound hu port
  | openPosition port position slot tail profile =>
    refine request h fun u hu => ?_
    split
    · exact State.checked_floorsSound hu (State.floorsSound_put hu
        (u.openAccepted_positions port _ _ _ _) (u.openAccepted_suppress port _ _ _ _) (Nat.le_refl _))
    · exact hu
  | closePosition port position =>
    exact request h fun u hu => State.withNumber_keeps (fun _ => hu) fun p => State.checked_floorsSound hu
      (State.floorsSound_put hu (u.closed_positions (by decide) p port _ _) (u.closed_suppress (by decide) p port _ _)
        (Nat.le_refl _))
  | connect port position trunk prompt stream =>
    refine request h fun u hu => ?_
    split
    · refine State.checked_floorsSound hu (State.floorsSound_of_kept hu (u.connect_settingsKept port _ _ _ _) ?_)
      rcases u.connect_suppress port _ _ prompt _ with e | e
      · exact .of_eq e
      · exact State.setFirstFrame_floorsKept e
    · exact hu
  | release port position =>
    exact request h fun u hu => State.withNumber_keeps (fun _ => hu) fun p => State.checked_floorsSound hu
      (State.released_floorsSound hu port p)
  | setPosition port position params =>
    refine request h fun u hu => ?_
    split
    · exact State.checked_floorsSound hu (State.setAccepted_floorsSound hu port _ params _)
    · exact hu
  | setTail port position tail =>
    exact request h fun u hu => State.withNumber_keeps (fun _ => hu) fun p => State.checked_floorsSound hu
      (State.checked_floorsSound hu (State.tailAccepted_floorsSound hu port p _))
  | writeProfile port profile gains threshold nmin =>
    refine request h fun u hu => ?_
    split
    · exact State.replaceProfile_floorsSound hu _ _
    · exact hu
  | _ => exact absurd ⟨rfl, by simp [commandParts, grantParts]⟩ apart

end Sys2Proof.Machine
end


section
/-! PROOFS. Position requests accepted whose effect is one update of the record: OPEN, HOLD, RETRIEVE, SET POSITION,
SET TAIL, the offers, and the requests that only read (R24, R28, R29, R34, R35, R37 to R39, R44, R45). -/

namespace Sys2Proof.Machine

/-! ## A request whose checks pass -/

/-- A request a port takes, with the object it names. -/
theorem State.request_numbered {s : State} {port : Port} (takes : s.takes port) (code : Byte) {n : Nat} {b : Byte}
    {i : Fin n} (named : number? n b = some i) (body : Fin n → State → State) :
    s.request port code (fun s => s.withNumber port b body) = body i (s.taken port code) := by
  rw [State.request_of_takes takes, State.withNumber_some _ named]

/-- What a request finds in the records it reads, once the port has taken it, is what stood before. -/
@[simp] theorem State.taken_pos (s : State) (port : Port) (code : Byte) (p : Fin 64) :
    (s.taken port code).pos p = s.pos p := rfl

@[simp] theorem State.taken_stream (s : State) (port : Port) (code : Byte) (k : Fin 16) :
    (s.taken port code).stream k = s.stream k := rfl

@[simp] theorem State.taken_enabled (s : State) (port : Port) (code : Byte) (q : Port) :
    (s.taken port code).enabled q = s.enabled q := by cases q <;> rfl

/-- The checks on the named position pass for its owner, and the request's own checks follow. -/
theorem State.owned_taken {s : State} {port : Port} {code : Byte} {p : Fin 64} {checks : List (Bool × Status)}
    (effect : State → State) (opened : (s.pos p).state ≠ .closed) (owner : (s.pos p).owner = some port)
    (rest : firstRefusal checks = none) :
    (s.taken port code).owned port p checks effect = effect (s.taken port code) := by
  refine State.checked_pass effect ?_
  simp [firstRefusal, opened, owner, rest]

/-! ## OPEN POSITION (R24) -/

/-- The effect of OPEN POSITION but for the reply. -/
def State.openEffect (s : State) (port : Port) (p slot : Fin 64) (tail : Nat) (profile : Fin 4) : State :=
  { s with
    positions := s.positions.put p (Position.opened port slot tail profile)
    highway := { s.highway with agent := s.highway.agent.put slot (some ⟨p, none, Table.fill 32 s.silence⟩) }
    echo := {
      coefficients := zeroTaps (s.echo.free.take tail) s.echo.coefficients
      free := s.echo.free.drop tail
      positions := s.echo.positions.put p (Canceller.zeroed (s.echo.free.take tail)) }
    suppress := { s.suppress with positions := s.suppress.positions.put p (Suppressor.fresh (s.profile profile)) }
    mixer := { s.mixer with coachDuck := s.mixer.coachDuck.put p 0 } }

theorem State.openAccepted_eq (s : State) (port : Port) (p slot : Fin 64) (tail : Nat) (profile : Fin 4) :
    s.openAccepted port p slot tail profile = (s.openEffect port p slot tail profile).answer port .ok [] := by
  have zeroed : ((s.echo.positions.put p (Canceller.zeroed [])).cell p) = Canceller.zeroed [] := by
    rw [Table.cell_put, if_pos rfl]
  unfold State.openAccepted State.allocate State.openEffect State.setCanceller State.canceller
  dsimp only [State.setPos]
  rw [zeroed, Table.put_put]
  rfl

theorem State.openAccepted_taken (s : State) (port : Port) (code : Byte) (p slot : Fin 64) (tail : Nat)
    (profile : Fin 4) : (s.taken port code).openAccepted port p slot tail profile
      = (s.openEffect port p slot tail profile).replied port code .ok [] :=
  (State.openAccepted_eq _ port p slot tail profile).trans
    (State.taken_answer (s.openEffect port p slot tail profile) port code .ok [])

/-- Settles O25: the checks pass, and the segments taken are cleared in the coefficient memory. -/
theorem openPosition : Obligations.OpenPosition := by
  intro s port position slot tail profile p a takes named slotNamed least most closed free segments taken named4
  show Host.Outcome.next (s.request port Code.openPosition _) = _
  rw [State.request_of_takes takes, named, slotNamed]
  dsimp only
  rw [State.checked_pass, State.openAccepted_taken]
  · unfold State.openEffect
    rw [zeroTaps_eq]
    rfl
  · simp [firstRefusal, closed, free, Nat.not_lt.mpr least, Nat.not_lt.mpr most, Nat.not_lt.mpr segments]

/-! ## HOLD and RETRIEVE (R28, R29) -/

theorem State.holdAccepted_taken (s : State) (port : Port) (code : Byte) (p : Fin 64) (stream : Option (Fin 16)) :
    (s.taken port code).holdAccepted port p stream
      = (((s.setPos p { s.pos p with
          state := .held, stream := stream, announcePending := decide ((s.pos p).state = .announce) }).dropListener
            (s.pos p).stream).addListener stream).replied port code .ok [] := by
  refine Eq.trans ?_ (State.taken_answer _ port code .ok [])
  cases dropped : (s.pos p).stream <;> cases stream <;>
    simp only [State.holdAccepted, State.taken_pos, dropped] <;> rfl

theorem State.retrieveAccepted_taken (s : State) (port : Port) (code : Byte) (p : Fin 64) :
    (s.taken port code).retrieveAccepted port p
      = (if (s.pos p).announcePending then s.setPos p { s.pos p with state := .announce, announcePending := false }
        else (s.setPos p { s.pos p with state := .connected, stream := none }).dropListener
          (s.pos p).stream).replied port code .ok [] := by
  refine Eq.trans ?_ (State.taken_answer _ port code .ok [])
  unfold State.retrieveAccepted
  cases pending : (s.pos p).announcePending
  · cases dropped : (s.pos p).stream <;>
      simp only [State.taken_pos, pending, dropped, if_neg Bool.false_ne_true] <;> rfl
  · simp only [State.taken_pos, pending, if_true]
    rfl

/-- A stream named as HOLD names it (R28). -/
theorem holdStream_of_named {stream : Option Byte} {k : Option (Fin 16)}
    (named : stream = none ∧ k = none ∨ ∃ b i, stream = some b ∧ number? 16 b = some i ∧ k = some i) :
    holdStream stream = some k := by
  rcases named with ⟨rfl, rfl⟩ | ⟨b, i, rfl, number, rfl⟩
  · rfl
  · show (number? 16 b).map some = _
    rw [number]
    rfl

/-- Settles O28: HOLD and RETRIEVE change the record and the listener counts of the two streams. -/
theorem holdAndRetrieve : Obligations.HoldAndRetrieve := by
  refine ⟨fun s k => ⟨rfl, rfl, rfl, rfl⟩, fun s port position p takes named owner => ⟨?_, ?_, ?_⟩⟩
  · intro stream k streamNamed state running
    show Host.Outcome.next (s.request port Code.hold _) = _
    rw [State.request_of_takes takes, named, holdStream_of_named streamNamed]
    have opened : (s.pos p).state ≠ .closed := by rcases state with e | e <;> rw [e] <;> decide
    dsimp only
    rw [State.owned_taken _ opened owner, State.holdAccepted_taken]
    have settled : (s.taken port Code.hold).namedStopped k = false := by cases k <;> exact running
    rcases state with e | e <;> simp [firstRefusal, e, settled]
  · intro held pending
    have opened : (s.pos p).state ≠ .closed := by rw [held]; decide
    show Host.Outcome.next (s.request port Code.retrieve _) = _
    rw [State.request_numbered takes _ named, State.owned_taken _ opened owner, State.retrieveAccepted_taken, if_pos pending]
    simp [firstRefusal, held]
  · intro held pending
    have opened : (s.pos p).state ≠ .closed := by rw [held]; decide
    show Host.Outcome.next (s.request port Code.retrieve _) = _
    rw [State.request_numbered takes _ named, State.owned_taken _ opened owner, State.retrieveAccepted_taken, if_neg]
    · simp [pending]
    · simp [firstRefusal, held]

/-! ## SET POSITION (R34) -/

theorem State.setAccepted_taken (s : State) (port : Port) (code : Byte) (p : Fin 64) (a : ParamsArg)
    (mode : Option EcMode) : (s.taken port code).setAccepted port p a mode
      = ((s.setPos p ((s.pos p).adjusted a mode)).setSuppressor p ((s.suppressor p).atLeast
          (if a.profile.isSome then (s.profile ((s.pos p).adjusted a mode).profile).nmin else 0))).replied port code .ok
            ((s.pos p).adjusted a mode).paramBytes :=
  State.taken_answer ((s.setPos p ((s.pos p).adjusted a mode)).setSuppressor p ((s.suppressor p).atLeast
    (if a.profile.isSome then (s.profile ((s.pos p).adjusted a mode).profile).nmin else 0))) port code .ok _

/-- The adjustments of SET POSITION, parameter by parameter (R34). -/
theorem Position.adjusted_eq (x : Position) (a : ParamsArg) (mode : Option EcMode) :
    x.adjusted a mode = { x with
      duck := (a.duck.map fun g => min g.toNat 32768).getD x.duck
      profile := (a.profile.map profileNumber).getD x.profile
      mode := mode.getD x.mode
      step := (a.step.map fun b => min b.toNat 7).getD x.step
      reg := (a.reg.map fun b => max 16 (min b.toNat 30)).getD x.reg
      hang := (a.hang.map fun b => min b.toNat 15).getD x.hang
      nlp := a.nlp.getD x.nlp
      shift := (a.shift.map fun b => min b.toNat 15).getD x.shift } := by
  obtain ⟨duck, profile, mode', step, reg, hang, nlp, shift⟩ := a
  simp only [Position.adjusted, Position.mk.injEq, true_and, and_true]
  refine ⟨?_, ?_, ?_, ?_, ?_, ?_⟩
  · cases duck <;> rfl
  · cases profile <;> rfl
  · cases step <;> simp [clampTo, Nat.min_comm]
  · cases reg <;> simp [clampTo, Nat.min_comm]
  · cases hang <;> simp [clampTo, Nat.min_comm]
  · cases shift <;> simp [clampTo, Nat.min_comm]

/-- A mode named as SET POSITION names it (R34). -/
theorem namedMode_of_named {a : ParamsArg} {x : Position} {mode : EcMode}
    (named : a.mode = none ∧ mode = x.mode ∨ ∃ b, a.mode = some b ∧ ecMode? b = some mode) :
    ∃ m, namedMode a.mode = some m ∧ m.getD x.mode = mode := by
  rcases named with ⟨absent, same⟩ | ⟨b, present, code⟩
  · exact ⟨none, by rw [absent]; rfl, same.symm⟩
  · refine ⟨some mode, ?_, rfl⟩
    rw [present]
    show (ecMode? b).map some = _
    rw [code]
    rfl

/-- Settles O30: each parameter present replaces the one in the record. -/
theorem setPosition : Obligations.SetPosition := by
  intro s port position p a mode takes named opened owner modeNamed old x y
  obtain ⟨m, read, modeOf⟩ := namedMode_of_named modeNamed
  have record : (s.pos p).adjusted a m = x := by rw [Position.adjusted_eq, modeOf]
  have floor : (s.suppressor p).atLeast (if a.profile.isSome then (s.profile x.profile).nmin else 0) = y := by
    show _ = if a.profile.isSome then _ else _
    split
    · rfl
    · unfold Suppressor.atLeast
      rw [Nat.max_zero]
  show Host.Outcome.next (s.request port Code.setPosition _) = _
  rw [State.request_of_takes takes, named, read]
  dsimp only
  rw [State.owned_taken _ opened owner rfl, State.setAccepted_taken, record, floor]
  rfl

/-! ## SET TAIL (R35) -/

/-- What SET TAIL leaves in the echo block (R64, R65). -/
def State.tailEcho (s : State) (p : Fin 64) (tail : Nat) : Echo :=
  (if (s.pos p).tail < tail then s.allocate p (tail - (s.pos p).tail)
    else if tail < (s.pos p).tail then s.keepSegments p tail else s).echo

theorem State.tailAccepted_taken (s : State) (port : Port) (code : Byte) (p : Fin 64) (tail : Nat) :
    (s.taken port code).tailAccepted port p tail
      = ({ s with positions := s.positions.put p { s.pos p with tail := tail }, echo := s.tailEcho p tail }
          : State).replied port code .ok [] := by
  refine Eq.trans ?_ (State.taken_answer _ port code .ok [])
  unfold State.tailAccepted State.tailEcho
  dsimp only [State.taken_pos]
  by_cases larger : (s.pos p).tail < tail
  · rw [if_pos larger, if_pos larger]
    rfl
  · rw [if_neg larger, if_neg larger]
    by_cases smaller : tail < (s.pos p).tail
    · rw [if_pos smaller, if_pos smaller]
      rfl
    · rw [if_neg smaller, if_neg smaller]
      rfl

theorem segmentSet_ascending (holds : Fin 128 → Bool) : (segmentSet holds).Pairwise (· < ·) :=
  (List.pairwise_lt_finRange 128).filter _

/-- Settles O31: a larger tail allocates, a smaller one returns segments, an equal one leaves the echo block alone. -/
theorem setTail : Obligations.SetTail := by
  intro s port position tail p takes named least most idle owner segments old taken
  refine ⟨s.tailEcho p tail.toNat, ?_, ?_, ?_, ?_⟩
  · show Host.Outcome.next (s.request port Code.setTail _) = _
    have opened : (s.pos p).state ≠ .closed := by rw [idle]; decide
    rw [State.request_numbered takes _ named, State.checked_pass, State.owned_taken _ opened owner, State.tailAccepted_taken]
    · simp [firstRefusal, idle, Nat.not_lt.mpr segments]
    · simp [firstRefusal, Nat.not_lt.mpr least, Nat.not_lt.mpr most]
  · intro same
    unfold State.tailEcho
    rw [if_neg (by rw [same]; exact Nat.lt_irrefl _), if_neg (by rw [same]; exact Nat.lt_irrefl _)]
  · intro larger
    unfold State.tailEcho
    rw [if_pos larger]
    unfold State.allocate
    dsimp only
    rw [zeroTaps_eq]
    rfl
  · intro smaller
    unfold State.tailEcho
    rw [if_neg (Nat.lt_asymm smaller), if_pos smaller]
    have free : (s.keepSegments p tail.toNat).echo.free
      = segmentSet fun g => g ∈ s.echo.free || g ∈ (s.segments p).drop tail.toNat := rfl
    rw [free]
    refine ⟨rfl, rfl, fun g => ?_, segmentSet_ascending _⟩
    rw [mem_segmentSet, Bool.or_eq_true, decide_eq_true_iff, decide_eq_true_iff]

/-! ## The offers (R37 to R39) -/

theorem withAnnounceOrigin_eq (port : Port) (q : List Entry) : withAnnounceOrigin port q
    = q.map fun e => if e.kind = .announce then { e with origin := port } else e := by
  unfold withAnnounceOrigin
  refine List.map_congr_left fun e _ => ?_
  cases e.kind <;> rfl

/-- Settles O32: an offer made, withdrawn or accepted, each with its record for the other port. -/
theorem offersAndAcceptance : Obligations.OffersAndAcceptance := by
  intro s port position p takes named opened
  refine ⟨fun owner offer enabled => ?_, fun owner offer => ?_, fun owner offer => ?_⟩
  · show Host.Outcome.next (s.request port Code.offerPosition _) = _
    rw [State.request_numbered takes _ named, State.checked_pass, State.owned_taken _ opened owner]
    · exact congrArg _ (State.taken_file_answer (s.setPos p { s.pos p with offer := true }) port _ _ _ _ _ _ _)
    · simp [firstRefusal, enabled, offer]
    · rfl
  · show Host.Outcome.next (s.request port Code.offerPosition _) = _
    rw [State.request_numbered takes _ named, State.owned_taken _ opened owner]
    · exact congrArg _ (State.taken_file_answer (s.setPos p { s.pos p with offer := false }) port _ _ _ _ _ _ _)
    · simp [firstRefusal, offer]
  · have otherPort : port.other ≠ port := by cases port <;> decide
    show Host.Outcome.next (s.request port Code.acceptPosition _) = _
    rw [State.request_numbered takes _ named, State.checked_pass]
    · rw [State.taken_pos, owner, ← withAnnounceOrigin_eq]
      exact congrArg _ (State.taken_file_answer (s.passTo p port) port _ _ _ _ _ _ _)
    · simp [firstRefusal, opened, offer, owner, otherPort]

/-! ## Requests that read (R44, R45, R100, R112, R137, R145, R175) -/

theorem numberByte_clipNumber (b : Byte) : numberByte (clipNumber b) = b :=
  BitVec.eq_of_toNat_eq (by simp [numberByte, clipNumber])

/-- Settles O33: each reply is read from the record, and nothing but the reply changes. -/
theorem readingRequests : Obligations.ReadingRequests := by
  intro s port takes
  refine ⟨fun position p named => ?_, fun clip => ?_, ⟨s.mem_tapsInUse, s.tapsInUse_ascending⟩, ?_, ?_, ?_⟩
  · show Host.Outcome.next (s.request port Code.positionInfo _) = _
    rw [State.request_numbered takes _ named, State.taken_answer]
    rfl
  · show Host.Outcome.next (s.request port Code.clipInfo _) = _
    rw [State.request_of_takes takes, State.taken_answer]
    unfold State.clipRecord
    rw [numberByte_clipNumber]
    rfl
  · show Host.Outcome.next (s.request port Code.listTaps _) = _
    rw [State.request_of_takes takes, State.taken_answer]
    rfl
  · show Host.Outcome.next (s.request port Code.memoryStatus _) = _
    rw [State.request_of_takes takes, State.taken_answer]
    rfl
  · show Host.Outcome.next (s.request port Code.portStatus _) = _
    rw [State.request_of_takes takes, State.taken_answer]
    cases port <;> rfl

theorem State.statsAccepted_taken (s : State) (port : Port) (code : Byte) (p : Fin 64) (clear : Bool) :
    (s.taken port code).statsAccepted port p clear
      = (if clear then s.setPos p { s.pos p with stats := Stats.zero } else s).replied port code .ok
          (s.pos p).stats.bytes := by
  refine Eq.trans ?_ (State.taken_answer _ port code .ok _)
  cases clear <;> rfl

theorem State.freeBytes_length (s : State) (n : Nat) : (s.freeBytes n).length = n := by
  unfold State.freeBytes
  rw [List.length_map, List.length_range]

/-- A stream player replaced by itself. -/
theorem State.setStream_same (s : State) (k : Fin 16) : s.setStream k (s.stream k) = s := by
  unfold State.setStream State.stream
  rw [Table.put_cell]

/-- Settles O34: the reply carries what stands, and only then the counters asked for are cleared. -/
theorem statisticsRequests : Obligations.StatisticsRequests := by
  intro s port takes
  refine ⟨fun position p clear named opened owner => ?_, fun stream k clear named mayClear => ?_⟩
  · show Host.Outcome.next (s.request port Code.positionStats _) = _
    rw [State.request_numbered takes _ named, State.owned_taken _ opened owner rfl, State.statsAccepted_taken]
    rfl
  · have free : (s.freeBytes 24).length = 24 := s.freeBytes_length 24
    refine ⟨(s.freeBytes 24).take 8, ((s.freeBytes 24).drop 8).take 8, ((s.freeBytes 24).drop 16).take 4,
      ((s.freeBytes 24).drop 20).take 4, by simp [free], by simp [free], by simp [free], by simp [free], ?_⟩
    show Host.Outcome.next (s.request port Code.streamInfo _) = _
    rw [State.request_numbered takes _ named, State.checked_pass]
    · cases clear
      · have kept : (s.drawn 24).setStream k (s.stream k) = s.drawn 24 := State.setStream_same (s.drawn 24) k
        show Host.Outcome.next _ = Host.Outcome.next (((s.drawn 24).setStream k (s.stream k)).replied port _ _ _)
        rw [kept]
        exact congrArg _ (State.taken_answer (s.drawn 24) port _ _ _)
      · exact congrArg _ (State.taken_answer ((s.drawn 24).setStream k { s.stream k with underrunSamples := 0 }) port _ _ _)
    · cases clear <;> simp_all [firstRefusal]

end Sys2Proof.Machine
end


section
/-! PROOFS. The invariants at pin reset (R21, R46, R62, R96, R104, R115, R124, R152, R157, R163, R169, R177). -/

namespace Sys2Proof.Machine

/-! ## What the tables of the reset state hold -/

theorem reset_canceller (p : Fin 64) : State.reset.canceller p = Canceller.zeroed [] := Table.cell_fill _ p

theorem reset_segments (p : Fin 64) : State.reset.segments p = [] := congrArg Canceller.segments (reset_canceller p)

theorem reset_coachDuck (p : Fin 64) : State.reset.coachDuck p = 0 := Table.cell_fill _ p

theorem reset_coefficient (g i : Fin 128) : (State.reset.echo.coefficients.cell g).cell i = 0 := by
  show ((Table.fill 128 (Table.fill 128 (0 : Int))).cell g).cell i = 0
  rw [Table.cell_fill, Table.cell_fill]

theorem reset_tap (t : Fin 16) : State.reset.tap t = none := Table.cell_fill _ t

theorem reset_clip (c : Fin 256) : State.reset.clip c = Clip.freeContents := Table.cell_fill _ c

theorem reset_stream (k : Fin 16) : State.reset.stream k = Stream.atReset := Table.cell_fill _ k

theorem reset_queue (p : Fin 64) : State.reset.queue p = [] := Table.cell_fill _ p

theorem reset_player (w : Fin 16) : State.reset.player w = PromptPlayer.atReset := Table.cell_fill _ w

theorem reset_tapsInUse : State.reset.tapsInUse = [] := by
  refine List.eq_nil_iff_forall_not_mem.mpr fun x used => ?_
  rw [State.mem_tapsInUse, reset_tap] at used
  exact nomatch used

theorem reset_profile_legal (n : Fin 4) : (State.reset.profile n).legal := by
  show (Profile.atReset.cell n).legal
  unfold Profile.legal
  revert n
  decide

/-! ## The invariants, block by block -/

theorem reset_parametersLegal : State.reset.parametersLegal := fun p => by
  rw [reset_pos]
  exact Position.closedContents_legal

theorem reset_segmentsSound : State.reset.segmentsSound := by
  refine ⟨List.pairwise_lt_finRange 128, fun p => ?_, fun p g held => ?_, fun p q _ g held => ?_,
    fun g => .inl (List.mem_finRange g), fun p opened => ?_, fun p _ => reset_segments p⟩
  · rw [reset_segments]; exact List.nodup_nil
  · rw [reset_segments] at held; exact nomatch held
  · rw [reset_segments] at held; exact nomatch held
  · rw [reset_pos] at opened; exact absurd rfl opened

theorem reset_tapsSound : State.reset.tapsSound := by
  refine ⟨fun t x used => ?_, fun t u x y used => ?_, fun t u x y used => ?_, fun p => ?_⟩
  · rw [reset_tap] at used; exact nomatch used
  · rw [reset_tap] at used; exact nomatch used
  · rw [reset_tap] at used; exact nomatch used
  · rw [reset_tapsInUse]; exact Nat.zero_le 3

theorem reset_clipsSound : State.reset.clipsSound := by
  refine ⟨fun c d _ defined => ?_, fun c defined => ?_, fun _ c => ?_⟩
  · rw [reset_clip] at defined; exact nomatch defined
  · rw [reset_clip] at defined; exact nomatch defined
  · rw [reset_clip]; rfl

theorem reset_playsExcludeWrites : State.reset.playsExcludeWrites := fun c => by
  rw [reset_clip]
  exact .inl rfl

theorem reset_callsSound : State.reset.callsSound := fun p => by
  unfold State.callSound State.announcements
  rw [reset_pos, reset_queue]
  refine ⟨fun _ => ⟨rfl, rfl⟩, fun opened => absurd rfl opened, fun named => ?_, fun pending => ?_, rfl, fun e queued => ?_⟩
  · exact nomatch named
  · exact nomatch pending
  · exact nomatch queued

theorem reset_listenersCounted : State.reset.listenersCounted := by
  unfold State.listenersCounted
  intro k
  have unnamed : ((List.finRange 64).filter fun p => (State.reset.pos p).stream = some k) = [] :=
    List.filter_eq_nil_iff.mpr fun p _ => by
      rw [reset_pos]
      exact Bool.false_ne_true
  rw [unnamed, reset_stream]
  rfl

theorem reset_references (c : Fin 256) : State.reset.references c = 0 := by
  unfold State.references
  simp [reset_stream, reset_queue, Stream.atReset, namings]

theorem reset_playsCounted : State.reset.playsCounted := by
  refine ⟨fun c => ?_, fun c _ => ?_, fun k _ => ?_, fun k ended => ?_, fun k _ => ?_⟩
  · rw [reset_references, reset_clip]; rfl
  · rw [reset_clip]; rfl
  · rw [reset_stream]; exact ⟨rfl, rfl⟩
  · rw [reset_stream] at ended; exact nomatch ended
  · rw [reset_stream]; rfl

theorem reset_suppressor_legal (p : Fin 64) : (State.reset.suppressor p).legal := by
  obtain ⟨gains, -, -, least, most⟩ := reset_profile_legal 2
  rw [reset_suppressor]
  exact ⟨least, most.trans (by decide), Nat.zero_le _, gains 0⟩

theorem zeroed_legal (segments : List (Fin 128)) : (Canceller.zeroed segments).legal := by
  refine ⟨fun i => ?_, Nat.zero_le _, Nat.zero_le _, Nat.zero_le _, Nat.zero_le _⟩
  show ((Table.fill 512 (0 : Int)).cell i).natAbs ≤ 32256
  rw [Table.cell_fill]
  exact Nat.zero_le _

theorem reset_blocksLegal : State.reset.blocksLegal := by
  refine ⟨reset_profile_legal, fun p => ⟨reset_suppressor_legal p, ?_, ?_⟩, fun g i => ?_⟩
  · rw [reset_canceller]; exact zeroed_legal []
  · rw [reset_coachDuck]; exact Nat.zero_le 8
  · rw [reset_coefficient]; exact ⟨by decide, by decide⟩

theorem reset_powerSound : State.reset.powerSound := fun p called => by
  rw [reset_pos] at called
  exact nomatch called

theorem reset_playersSound : State.reset.playersSound := by
  refine ⟨fun w p assigned => ?_, fun p e head => ?_, fun v w p assigned => ?_, fun p e waiting => ?_,
    fun w p e _ head => ?_⟩
  · rw [reset_player] at assigned; exact nomatch assigned
  · rw [reset_queue] at head; exact nomatch head
  · rw [reset_player] at assigned; exact nomatch assigned
  · rw [reset_queue] at waiting; exact nomatch waiting
  · rw [reset_queue] at head; exact nomatch head

theorem reset_stoppedUnheard : State.reset.stoppedUnheard := fun k _ => by rw [reset_stream]; rfl

theorem reset_fetchesSound : State.reset.fetchesSound := by
  refine ⟨fun _ => Nat.zero_le 1, fun f waiting => ?_, fun f busy => ?_, fun k _ => ?_, fun w _ => ?_⟩
  · exact nomatch waiting
  · exact nomatch busy
  · rw [reset_stream]; rfl
  · rw [reset_player]; rfl

theorem reset_cursorsSound : State.reset.cursorsSound := by
  refine ⟨fun k l i j x current => ?_, fun w p e i assigned => ?_⟩
  · rw [reset_stream] at current; exact nomatch current
  · rw [reset_player] at assigned; exact nomatch assigned

theorem reset_pagesSound : State.reset.pagesSound := by
  refine ⟨fun f waiting => ?_, fun p op waiting => ?_, fun page busy => ?_, fun _ => ⟨rfl, rfl, rfl⟩⟩
  · exact nomatch waiting
  · cases p <;> exact nomatch waiting
  · exact nomatch busy

theorem reset_portsSound : State.reset.readyAgrees ∧ State.reset.opsInFlight := by
  refine ⟨fun p => ?_, fun p => ?_⟩
  · obtain ⟨-, port, -⟩ := port_atReset p
    rw [port]
    exact ⟨fun _ => rfl, fun _ running => absurd rfl running, fun _ => rfl⟩
  · refine ⟨fun waiting => ?_, fun op busy => ?_⟩
    · cases p <;> exact nomatch waiting
    · exact nomatch busy

theorem reset_storesBounded : State.reset.storesBounded := fun p => by
  obtain ⟨-, -, events⟩ := port_atReset p
  rw [events]
  exact ⟨Nat.zero_le 32, Nat.zero_le 65535⟩

theorem reset_queuesBounded : State.reset.queuesBounded := fun p => by
  rw [reset_queue]
  exact Nat.zero_le 4

/-- Settles O50: at pin reset every table holds one value throughout, and that value satisfies each invariant. -/
theorem invariantsHoldAtReset : Obligations.InvariantsHoldAtReset :=
  ⟨⟨rfl, fun _ => ⟨rfl, rfl, rfl⟩⟩, reset_portsSound.1, reset_portsSound.2, reset_storesBounded,
    ⟨Nat.zero_le 16, List.nodup_nil⟩, ⟨Nat.zero_le 16, fun running => nomatch running⟩, reset_queuesBounded,
    reset_parametersLegal, reset_floorsSound, reset_segmentsSound, reset_tapsSound, reset_clipsSound,
    reset_playsExcludeWrites, reset_timeslotsSound [] 0, reset_callsSound, reset_listenersCounted, reset_playsCounted,
    reset_blocksLegal, reset_powerSound, reset_playersSound, reset_stoppedUnheard, reset_fetchesSound, reset_cursorsSound,
    reset_pagesSound⟩

end Sys2Proof.Machine
end


section
/-! PROOFS. RELEASE and CLOSE POSITION accepted (R25, R30, R33, R161, R163). -/

namespace Sys2Proof.Machine

/-! ## A request that ends with the assignment of players -/

/-- The reply of a request that assigned players, for a port whose page operations none waits (R126, R171). -/
theorem State.assigned_answer_port {u : State} {port : Port} (waits : u.arbiter.pendingOps.cell port = none)
    (status : Status) (payload : List Byte) : (u.assignPlayers.answer port status payload).port port
      = { u.port port with
          ready := true, inFlight := none, lastReply := some ⟨status, ((u.port port).inFlight).getD 0, payload⟩ } := by
  obtain ⟨same, -⟩ := State.assignPlayers_port waits
  rw [State.answer_port, same]

/-- What neither the grant nor the reply touches stands as before the assignment of players. -/
theorem State.assigned_answer_touches (u : State) (port : Port) (status : Status) (payload : List Byte) :
    Touches grantParts u (u.assignPlayers.answer port status payload) :=
  u.assignPlayers_touches.trans ((State.answer_touches _ port status payload).mono (by decide))

theorem State.assigned_answer_events {u : State} (busy : u.arbiter.bus ≠ none) (port : Port) (status : Status)
    (payload : List Byte) : (u.assignPlayers.answer port status payload).events = u.events := by
  obtain ⟨-, touched⟩ := State.assignPlayers_of_busy busy
  rw [State.answer_events]
  exact touched .events (by decide)

theorem State.assigned_answer_queue_nil {u : State} {p : Fin 64} (empty : u.queue p = []) (port : Port)
    (status : Status) (payload : List Byte) : (u.assignPlayers.answer port status payload).queue p = [] :=
  State.assignPlayers_queue_nil empty

theorem State.assignPlayers_stream (s : State) (k : Fin 16) : (s.stream k).SameBeyondFetch (s.assignPlayers.stream k) :=
  State.assignPlayers_keeps_of (P := fun t => (s.stream k).SameBeyondFetch (t.stream k)) (fun _ _ _ h => h)
    (fun _ _ _ h => h) (fun _ _ h => h) (fun t h => h.trans (t.grant_stream k)) (.refl _)

/-! ## What a flush leaves -/

/-- A flush's effects stand when the whisper block, the clip store and the arbiter are not touched afterwards. -/
theorem FlushLeaves.of_touches {parts : List Part} {s u t : State} {p : Fin 64} {flushed kept : List Entry}
    (h : FlushLeaves s u p flushed kept) (touched : Touches parts u t) (whisper : .whisper ∉ parts)
    (clipStore : .clipStore ∉ parts) (arbiter : .arbiter ∉ parts) : FlushLeaves s t p flushed kept := by
  have sameWhisper : t.whisper = u.whisper := touched .whisper whisper
  have sameClips : t.clipStore = u.clipStore := touched .clipStore clipStore
  have sameArbiter : t.arbiter = u.arbiter := touched .arbiter arbiter
  unfold FlushLeaves State.queue State.clip at h ⊢
  rw [sameWhisper, sameClips, sameArbiter]
  exact h

/-- The flush of a whole queue. -/
theorem State.flush_leaves_all (s : State) (p : Fin 64) (cause : FlushCause) :
    FlushLeaves s (s.flush p cause fun _ => true) p (s.queue p) [] := by
  have h := s.flush_leaves p cause fun _ => true
  rwa [List.filter_eq_self.mpr fun _ _ => rfl, List.filter_eq_nil_iff.mpr fun _ _ => by decide] at h

/-- Of the arbiter a flush touches the fetch queue alone (R161). -/
theorem State.flushed_arbiter (s : State) (p : Fin 64) (cause : FlushCause) (e : Entry) :
    ∃ queue, (s.flushed p cause e).arbiter = { s.arbiter with queue := queue } := by
  obtain ⟨-, arbiter, -⟩ := s.flushed_leaves p cause e
  rw [arbiter]
  split
  · exact ⟨_, rfl⟩
  · unfold State.flushPlayer
    split
    · exact ⟨_, rfl⟩
    · exact ⟨_, rfl⟩

theorem State.flush_arbiter (s : State) (p : Fin 64) (cause : FlushCause) (chosen : Entry → Bool) :
    ∃ queue, (s.flush p cause chosen).arbiter = { s.arbiter with queue := queue } := by
  refine State.flush_keeps (P := fun t => ∃ queue, t.arbiter = { s.arbiter with queue := queue }) s p cause chosen
    ⟨_, rfl⟩ fun t e ⟨queue, kept⟩ => ?_
  obtain ⟨queue', flushed⟩ := t.flushed_arbiter p cause e
  exact ⟨queue', by rw [flushed, kept]⟩

/-! ## RELEASE (R30) -/

theorem State.releasing_arbiter {cause : FlushCause} (other : cause ≠ .cancel) (s : State) (p : Fin 64) :
    ∃ queue, (s.releasing p cause).arbiter = { s.arbiter with queue := queue } := by
  obtain ⟨queue, flushed⟩ := s.flush_arbiter p cause fun _ => true
  exact ⟨queue, (s.releasing_after_flush other p .arbiter (by decide)).trans flushed⟩

theorem State.releasing_leaves {cause : FlushCause} (other : cause ≠ .cancel) (s : State) (p : Fin 64) :
    FlushLeaves s (s.releasing p cause) p (s.queue p) [] :=
  (s.flush_leaves_all p cause).of_touches (s.releasing_after_flush other p) (by decide) (by decide) (by decide)

/-- The listener that a release takes from the stream it leaves (R33). -/
theorem State.dropListener_listeners (s : State) (named : Option (Fin 16)) (k : Fin 16) :
    ((s.dropListener named).stream k).listeners
      = if named = some k then (s.stream k).listeners - 1 else (s.stream k).listeners := by
  cases named with
  | none => rfl
  | some j =>
    unfold State.dropListener
    rw [State.setStream_stream]
    by_cases same : j = k
    · rw [if_pos same, if_pos (congrArg some same), same]
    · rw [if_neg same, if_neg fun h => same (Option.some.inj h)]

theorem State.unbindTrunk_cell (s : State) (slot : Option (Fin 64)) (u : Fin 64) :
    (s.unbindTrunk slot).highway.trunk.cell u = if slot = some u then none else s.highway.trunk.cell u := by
  cases slot with
  | none => rfl
  | some v =>
    show (s.highway.trunk.put v none).cell u = _
    rw [Table.cell_put]
    by_cases same : v = u
    · rw [if_pos same, if_pos (congrArg some same)]
    · rw [if_neg same, if_neg fun h => same (Option.some.inj h)]

theorem State.unbindTrunk_rest (s : State) (slot : Option (Fin 64)) :
    (s.unbindTrunk slot).highway = { s.highway with trunk := (s.unbindTrunk slot).highway.trunk } := by
  cases slot <;> rfl

/-- RELEASE accepted: its steps, and then the assignment of players. -/
theorem exec_release {s : State} {port : Port} {position : Byte} {p : Fin 64} (takes : s.takes port)
    (named : number? 64 position = some p) (inCall : (s.pos p).state.inCall = true)
    (owner : (s.pos p).owner = some port) : exec (.release port position) s
      = .next ((((s.taken port Code.release).releasing p .release).assignPlayers).answer port .ok []) := by
  have opened : (s.pos p).state ≠ .closed := fun closed => by rw [closed] at inCall; exact nomatch inCall
  have busy : (s.pos p).state ≠ .idle := fun idle => by rw [idle] at inCall; exact nomatch inCall
  show Host.Outcome.next (s.request port Code.release _) = _
  rw [State.request_numbered takes _ named, State.owned_taken _ opened owner]
  simp [firstRefusal, busy]

/-- Settles O29: `u` is the state after the release's steps, known piece by piece; the assignment of players
touches only the grant's pieces. -/
theorem release : Obligations.Release := by
  intro s port position p takes waits named inCall owner
  let v := s.taken port Code.release
  let u := v.releasing p .release
  have assigned := u.assigned_answer_touches port .ok []
  obtain ⟨queue, arbiter⟩ := v.releasing_arbiter (cause := .release) (by decide) p
  have leaves : FlushLeaves s u p (s.queue p) [] := v.releasing_leaves (by decide) p
  have highway : u.highway = (s.unbindTrunk (s.pos p).trunkSlot).highway :=
    (v.releasing_highway (cause := .release) (by decide) p).trans (State.unbindTrunk_highway (s := s) (t := v) rfl _)
  have streams : u.streams = (s.dropListener (s.pos p).stream).streams :=
    (v.releasing_streams (cause := .release) (by decide) p).trans (State.dropListener_streams (s := s) (t := v) rfl _)
  have ports : u.ports = v.ports := v.releasing_releaseParts (by decide) p .ports (by decide)
  have after : (u.assignPlayers.answer port .ok []).highway = u.highway := assigned .highway (by decide)
  have pending : u.arbiter.pendingOps.cell port = none := by rw [arbiter]; exact waits
  have kept : Touches (.ports :: releaseParts) s u := ((s.taken_touches port _).mono (by decide)).trans
    ((v.releasing_releaseParts (cause := .release) (by decide) p).mono (by decide))
  refine ⟨u.assignPlayers.answer port .ok [], exec_release takes named inCall owner, ?_, ?_, fun k => ?_, fun t => ?_, ?_, ?_,
    ?_, ?_, ?_, u, rfl, kept.mono (by decide), leaves, streams, ports, ?_, fun busy => ?_⟩
  · exact (assigned .positions (by decide)).trans (v.releasing_positions (by decide) p)
  · exact State.assigned_answer_queue_nil leaves.1 port _ _
  · rw [← State.dropListener_listeners s (s.pos p).stream k]
    exact (u.assignPlayers_stream k).listeners.trans (congrArg (fun x => (x.cell k).listeners) streams)
  · rw [after, highway, State.unbindTrunk_cell]
  · rw [after, highway]
    exact s.unbindTrunk_rest _
  · exact (assigned .echo (by decide)).trans (kept .echo (by decide))
  · exact (assigned .suppress (by decide)).trans (kept .suppress (by decide))
  · exact (assigned .mixer (by decide)).trans (kept .mixer (by decide))
  · have port' : u.port port = v.port port := congrArg (·.cell port) ports
    rw [State.assigned_answer_port pending, port', State.taken_port]
    rfl
  · rw [← owner]
    exact (v.releasing_events (by decide) p).trans (State.filed_events (s := s) (t := v) rfl rfl rfl _)
  · exact State.assigned_answer_events (by rw [arbiter]; exact busy) port _ _

/-! ## CLOSE POSITION (R25) -/

theorem State.closing_arbiter {cause : FlushCause} (other : cause ≠ .cancel) (s : State) (p : Fin 64) :
    ∃ queue, (s.closing p cause).arbiter = { s.arbiter with queue := queue } := by
  obtain ⟨queue, flushed⟩ := s.flush_arbiter p cause fun _ => true
  exact ⟨queue, (s.closing_after_flush other p .arbiter (by decide)).trans flushed⟩

theorem State.closing_leaves {cause : FlushCause} (other : cause ≠ .cancel) (s : State) (p : Fin 64) :
    FlushLeaves s (s.closing p cause) p (s.queue p) [] :=
  (s.flush_leaves_all p cause).of_touches (s.closing_after_flush other p) (by decide) (by decide) (by decide)

theorem State.unbindAgent_cell (s : State) (slot : Option (Fin 64)) (a : Fin 64) :
    (s.unbindAgent slot).highway.agent.cell a = if slot = some a then none else s.highway.agent.cell a := by
  cases slot with
  | none => rfl
  | some b =>
    show (s.highway.agent.put b none).cell a = _
    rw [Table.cell_put]
    by_cases same : b = a
    · rw [if_pos same, if_pos (congrArg some same)]
    · rw [if_neg same, if_neg fun h => same (Option.some.inj h)]

theorem State.unbindAgent_rest (s : State) (slot : Option (Fin 64)) :
    (s.unbindAgent slot).highway = { s.highway with agent := (s.unbindAgent slot).highway.agent } := by
  cases slot <;> rfl

/-- CLOSE POSITION accepted: the closure, and then the assignment of players. -/
theorem exec_closePosition {s : State} {port : Port} {position : Byte} {p : Fin 64} (takes : s.takes port)
    (named : number? 64 position = some p) (idle : (s.pos p).state = .idle) (owner : (s.pos p).owner = some port) :
    exec (.closePosition port position) s
      = .next ((((s.taken port Code.closePosition).closing p .close).assignPlayers).answer port .ok []) := by
  have opened : (s.pos p).state ≠ .closed := by rw [idle]; decide
  show Host.Outcome.next (s.request port Code.closePosition _) = _
  rw [State.request_numbered takes _ named, State.owned_taken _ opened owner]
  simp [firstRefusal, idle, PositionState.inCall]

/-- Settles O26: `u` is the state after the closure's steps, known piece by piece; the assignment of players touches only
the grant's pieces. -/
theorem closePosition : Obligations.ClosePosition := by
  intro s port position p takes waits named idle owner
  let v := s.taken port Code.closePosition
  let u := v.closing p .close
  have notCancel : FlushCause.close ≠ .cancel := by decide
  have assigned := u.assigned_answer_touches port .ok []
  obtain ⟨queue, arbiter⟩ := v.closing_arbiter notCancel p
  have leaves : FlushLeaves s u p (s.queue p) [] := v.closing_leaves notCancel p
  have echo : (u.assignPlayers.answer port .ok []).echo = { s.echo with
      free := segmentSet fun g => g ∈ s.echo.free || g ∈ s.segments p
      positions := s.echo.positions.put p (Canceller.zeroed []) } :=
    (assigned .echo (by decide)).trans (v.closing_echo notCancel p)
  have mixer : (u.assignPlayers.answer port .ok []).mixer = u.mixer := assigned .mixer (by decide)
  have highway : (u.assignPlayers.answer port .ok []).highway = (s.unbindAgent (s.pos p).agentSlot).highway :=
    (assigned .highway (by decide)).trans ((v.closing_highway notCancel p).trans
      (State.unbindAgent_highway (s := s) (t := v) rfl _))
  have positions : (u.assignPlayers.answer port .ok []).positions = s.positions.put p Position.closedContents :=
    (assigned .positions (by decide)).trans (v.closing_positions notCancel p)
  have ports : u.ports = v.ports := v.closing_quietCloseParts notCancel p .ports (by decide)
  have pending : u.arbiter.pendingOps.cell port = none := by rw [arbiter]; exact waits
  have kept : Touches (.ports :: quietCloseParts) s u := ((s.taken_touches port _).mono (by decide)).trans
    ((v.closing_quietCloseParts notCancel p).mono (by decide))
  refine ⟨u.assignPlayers.answer port .ok [], exec_closePosition takes named idle owner, ?_, fun q other => ?_, ?_, fun t => ?_,
    fun g => ?_, ?_, ?_, fun a => ?_, ?_, ?_, ?_, ?_, u, rfl, kept.mono (by decide), leaves, ports, ?_, fun busy => ?_⟩
  · unfold State.pos
    rw [positions, Table.cell_put, if_pos rfl]
    rfl
  · unfold State.pos
    rw [positions, Table.cell_put, if_neg (Ne.symm other)]
  · exact State.assigned_answer_queue_nil leaves.1 port _ _
  · exact (congrArg (fun m : Mixer => m.taps.cell t) mixer).trans (v.closing_tap notCancel p t)
  · rw [echo, mem_segmentSet, Bool.or_eq_true, decide_eq_true_iff, decide_eq_true_iff]
  · rw [echo]
  · rw [echo]
    rfl
  · rw [highway, State.unbindAgent_cell]
  · rw [highway]
    exact s.unbindAgent_rest _
  · exact (assigned .suppress (by decide)).trans (v.closing_suppress notCancel p)
  · exact (congrArg Mixer.coachDuck mixer).trans (v.closing_coachDuck notCancel p)
  · have port' : u.port port = v.port port := congrArg (·.cell port) ports
    rw [State.assigned_answer_port pending, port', State.taken_port]
    rfl
  · have filings : v.closeFilings p .close = flushFilings p 2 (s.queue p) ++ tapFilings p (s.tapsNaming p)
        ++ if (s.pos p).offer then [(some port.other, .handoverOffer, p.val, 1)] else [] := by
      unfold State.closeFilings
      rw [State.taken_pos, owner]
      rfl
    rw [← filings]
    exact (v.closing_events notCancel p).trans (State.filed_events (s := s) (t := v) rfl rfl rfl _)
  · exact State.assigned_answer_events (by rw [arbiter]; exact busy) port _ _

end Sys2Proof.Machine
end


section
/-! PROOFS. CONNECT accepted (R26, R27, R33, R101, R107, R115, R159, R163). -/

namespace Sys2Proof.Machine

/-! ## The call's resources (R27) -/

/-- CONNECT's first steps: the record, the trunk binding, and the canceller cleared. -/
def State.linked (s : State) (p t : Fin 64) (state : PositionState) (stream : Option (Fin 16)) : State :=
  ((s.setPos p { s.pos p with state := state, trunkSlot := some t, stream := stream }).bindTrunk t p).clearCanceller p

theorem State.connecting_eq (s : State) (p t : Fin 64) (state : PositionState) (stream : Option (Fin 16)) :
    s.connecting p t state stream
      = (((s.linked p t state stream).dropListenerTaps p).setFirstFrame p).addListener stream := rfl

theorem State.linked_touches (s : State) (p t : Fin 64) (state : PositionState) (stream : Option (Fin 16)) :
    Touches [.positions, .highway, .echo] s (s.linked p t state stream) :=
  (((s.setPos_touches p _).mono (by decide)).trans ((State.bindTrunk_touches _ t p).mono (by decide))).trans
    ((State.clearCanceller_touches _ p).mono (by decide))

theorem State.connecting_after_linked (s : State) (p t : Fin 64) (state : PositionState) (stream : Option (Fin 16)) :
    Touches [.mixer, .events, .suppress, .streams] (s.linked p t state stream) (s.connecting p t state stream) :=
  (((State.dropListenerTaps_touches _ p).mono (by decide)).trans ((State.setFirstFrame_touches _ p).mono (by decide))).trans
    ((State.addListener_touches _ stream).mono (by decide))

theorem State.connecting_positions (s : State) (p t : Fin 64) (state : PositionState) (stream : Option (Fin 16)) :
    (s.connecting p t state stream).positions
      = s.positions.put p { s.pos p with state := state, trunkSlot := some t, stream := stream } :=
  s.connecting_after_linked p t state stream .positions (by decide)

theorem State.connecting_highway (s : State) (p t : Fin 64) (state : PositionState) (stream : Option (Fin 16)) :
    (s.connecting p t state stream).highway = { s.highway with
      trunk := s.highway.trunk.put t (some ⟨⟨p, none, Table.fill 32 s.silence⟩, []⟩) } :=
  s.connecting_after_linked p t state stream .highway (by decide)

theorem State.connecting_echo (s : State) (p t : Fin 64) (state : PositionState) (stream : Option (Fin 16)) :
    (s.connecting p t state stream).echo = { s.echo with
      coefficients := Table.build fun g => if g ∈ s.segments p then Table.fill 128 0 else s.echo.coefficients.cell g
      positions := s.echo.positions.put p ⟨s.segments p, Table.fill 512 0, 0, 0, 0, 0⟩ } := by
  rw [← zeroTaps_eq]
  exact s.connecting_after_linked p t state stream .echo (by decide)

/-- What is done after the taps have gone touches neither the tap table nor the event router. -/
theorem State.connecting_after_untapped (s : State) (p t : Fin 64) (state : PositionState) (stream : Option (Fin 16)) :
    Touches [.suppress, .streams] ((s.linked p t state stream).dropListenerTaps p) (s.connecting p t state stream) :=
  ((State.setFirstFrame_touches _ p).mono (by decide)).trans ((State.addListener_touches _ stream).mono (by decide))

theorem State.connecting_tap (s : State) (p t : Fin 64) (state : PositionState) (stream : Option (Fin 16)) (u : Fin 16) :
    (s.connecting p t state stream).tap u = (s.tap u).filter fun x => x.listener ≠ p :=
  (congrArg (fun m : Mixer => m.taps.cell u) (s.connecting_after_untapped p t state stream .mixer (by decide))).trans
    ((s.linked p t state stream).dropListenerTaps_tap p u)

theorem State.connecting_coachDuck (s : State) (p t : Fin 64) (state : PositionState) (stream : Option (Fin 16)) :
    (s.connecting p t state stream).mixer.coachDuck = s.mixer.coachDuck := by
  rw [s.connecting_after_untapped p t state stream .mixer (by decide), State.dropListenerTaps_eq, dropsFor_coachDuck]
  rfl

theorem State.connecting_events (s : State) (p t : Fin 64) (state : PositionState) (stream : Option (Fin 16)) :
    (s.connecting p t state stream).events = (s.filed ((s.tapsInUse.filter fun x => x.2.listener = p).map fun x =>
      (some x.2.owner, .tapDropped, p.val, x.1.val + if x.2.kind = .coach then 16 else 0))).events := by
  rw [s.connecting_after_untapped p t state stream .events (by decide), State.dropListenerTaps_eq, dropsFor_events,
    dropFilings_connect]
  exact State.filed_events (s := s) (t := s.linked p t state stream) rfl rfl rfl _

theorem State.addListener_streams {s t : State} (h : t.streams = s.streams) (k : Option (Fin 16)) :
    (t.addListener k).streams = (s.addListener k).streams := by
  unfold State.addListener
  split
  · unfold State.setStream State.stream
    dsimp only
    rw [h]
  · exact h

theorem State.connecting_streams (s : State) (p t : Fin 64) (state : PositionState) (stream : Option (Fin 16)) :
    (s.connecting p t state stream).streams = (s.addListener stream).streams := by
  rw [State.connecting_eq]
  exact State.addListener_streams (s := s) ((State.setFirstFrame_touches _ p .streams (by decide)).trans
    (State.dropListenerTaps_touches (s.linked p t state stream) p .streams (by decide))) stream

/-- The listener that a CONNECT gives the stream it names (R33). -/
theorem State.addListener_listeners (s : State) (named : Option (Fin 16)) (k : Fin 16) :
    ((s.addListener named).stream k).listeners = (s.stream k).listeners + if named = some k then 1 else 0 := by
  cases named with
  | none => rfl
  | some j =>
    unfold State.addListener
    rw [State.setStream_stream]
    by_cases same : j = k
    · rw [if_pos same, if_pos (congrArg some same), same]
    · rw [if_neg same, if_neg fun h => same (Option.some.inj h), Nat.add_zero]

/-! ## A whisper entry queued (R158, R159) -/

/-- A new entry in its queue, before players are assigned (R107, R115, R157). -/
def State.enqueued (s : State) (p : Fin 64) (port : Port) (e : Entry) (place : List Entry → List Entry) : State :=
  ((s.setQueue p (place (s.queue p))).numbered.addPlay e.clip).note port .whisper e.clip

theorem State.queueEntry_eq (s : State) (p : Fin 64) (port : Port) (e : Entry) (place : List Entry → List Entry) :
    s.queueEntry p port e place = (s.enqueued p port e place).assignPlayers := rfl

theorem State.enqueued_touches (s : State) (p : Fin 64) (port : Port) (e : Entry) (place : List Entry → List Entry) :
    Touches [.whisper, .clipStore, .events] s (s.enqueued p port e place) :=
  ((((s.setQueue_touches p _).mono (by decide)).trans ((State.numbered_touches _).mono (by decide))).trans
    ((State.addPlay_touches _ _).mono (by decide))).trans ((State.note_touches _ _ _ _).mono (by decide))

theorem State.enqueued_whisper (s : State) (p : Fin 64) (port : Port) (e : Entry) (place : List Entry → List Entry) :
    (s.enqueued p port e place).whisper = { s.whisper with
      queues := s.whisper.queues.put p (place (s.queue p)), arrival := s.whisper.arrival + 1 } :=
  State.note_touches _ _ _ _ .whisper (by decide)

theorem State.enqueued_clip (s : State) (p : Fin 64) (port : Port) (e : Entry) (place : List Entry → List Entry)
    (d : Fin 256) : (s.enqueued p port e place).clip d = if e.clip = d then { s.clip d with
      plays := (s.clip d).plays + 1
      accessed := (s.clip d).accessed || decide ((s.clip d).keys.cell port = .playNote) } else s.clip d := by
  unfold State.enqueued
  rw [State.note_clip, State.addPlay_clip]
  by_cases same : e.clip = d
  · simp only [same, if_true, true_and]
    rfl
  · simp only [same, if_false, false_and, decide_false, Bool.or_false]
    rfl

theorem State.enqueued_faults (s : State) (p : Fin 64) (port : Port) (e : Entry) (place : List Entry → List Entry) :
    (s.enqueued p port e place).clipStore.faults = s.clipStore.faults := by
  unfold State.enqueued State.note
  split
  · exact State.fileOwner_keeps (fun t => t.clipStore.faults) (fun _ _ => rfl) _ _ _ _ _
  · rfl

theorem State.enqueued_events (s : State) (p : Fin 64) (port : Port) (e : Entry) (place : List Entry → List Entry) :
    (s.enqueued p port e place).events = (s.filed (if (s.clip e.clip).keys.cell port = .playNote then
      [((s.clip e.clip).owner, .clipPlayed, e.clip.val, Port.number port + 256)] else [])).events := by
  unfold State.enqueued
  rw [State.note_events, State.addPlay_clip, if_pos rfl]
  exact State.filed_events (s := s) (t := (s.setQueue p (place (s.queue p))).numbered.addPlay e.clip) rfl rfl rfl _

/-! ## The arrival counter (R157) -/

theorem State.deliver_arrival (s : State) (f : Fetch) (codes : PageCodes) :
    (s.deliver f codes).whisper.arrival = s.whisper.arrival := by
  unfold State.deliver
  split
  · split
    · rw [s.streamArrival_touches _ _ codes .whisper (by decide)]
    · rfl
  · split
    · unfold State.promptArrival
      dsimp only
      split
      · rfl
      · rfl
    · rfl

theorem State.grant_arrival (s : State) : s.grant.whisper.arrival = s.whisper.arrival := by
  refine State.grantRounds_keeps (P := fun t => t.whisper.arrival = s.whisper.arrival) (fun t h _ => h)
    (fun t f rest h _ _ => ?_) (fun t f rest h _ _ => h) (fun t p clip index page h _ _ => h) (fun t p op h _ _ => h) _ s rfl
  exact (State.deliver_arrival t.unqueue f _).trans h

theorem State.assignPlayers_arrival (s : State) : s.assignPlayers.whisper.arrival = s.whisper.arrival :=
  State.assignPlayers_keeps_of (P := fun t => t.whisper.arrival = s.whisper.arrival) (fun _ _ _ h => h)
    (fun _ _ _ h => h) (fun _ _ h => h) (fun t h => t.grant_arrival.trans h) rfl

/-! ## CONNECT (R26) -/

/-- The checks of a new entry pass for a clip that may be played and is not being written (R158). -/
theorem State.checkEntry_pass {s : State} {port : Port} {p : Fin 64} {c : Fin 256} (code : Byte) (effect : State → State)
    (room : (s.queue p).length < 4) (playable : ((s.clip c).check port .play none).found = false)
    (still : (s.clip c).writeBusy = 0) : s.checkEntry port code p c effect = effect s := by
  unfold State.checkEntry State.checkItems State.faultyItem State.itemsBusy
  rw [if_neg (Nat.not_le.mpr room)]
  simp [playable, still, State.faultyItem]

/-- A stream named as CONNECT names it (R26). -/
theorem announceStream_of_named {stream : Option Byte} {k : Option (Fin 16)} (x : PromptArg)
    (named : stream = none ∧ k = none ∨ ∃ b i, stream = some b ∧ number? 16 b = some i ∧ k = some i) :
    announceStream (some x) stream = some k := by
  rcases named with ⟨rfl, rfl⟩ | ⟨b, i, rfl, number, rfl⟩
  · rfl
  · show (number? 16 b).map some = _
    rw [number]
    rfl

/-- CONNECT up to its clip checks (R26). -/
theorem exec_connect {s : State} {port : Port} {position trunk : Byte} {p u : Fin 64} (takes : s.takes port)
    (named : number? 64 position = some p) (slotNamed : number? 64 trunk = some u) (idle : (s.pos p).state = .idle)
    (owner : (s.pos p).owner = some port) (free : s.highway.trunk.cell u = none) {prompt : Option PromptArg}
    {stream : Option Byte} {k : Option (Fin 16)} (streamNamed : announceStream prompt stream = some k)
    (settled : s.namedStopped k = false) : exec (.connect port position trunk prompt stream) s
      = .next ((s.taken port Code.connect).connect port p u prompt k) := by
  have opened : (s.pos p).state ≠ .closed := by rw [idle]; decide
  have settled : (s.taken port Code.connect).namedStopped k = false := by cases k <;> exact settled
  show Host.Outcome.next (s.request port Code.connect _) = _
  rw [State.request_of_takes takes, named, slotNamed, streamNamed]
  dsimp only
  rw [State.owned_taken _ opened owner]
  simp [firstRefusal, idle, free, settled]

theorem placeAnnounce_nil (e : Entry) : placeAnnounce e [] = [e] := rfl

theorem placeAnnounce_cons (e h : Entry) (rest : List Entry) :
    placeAnnounce e (h :: rest) = if h.phase = .waiting then e :: h :: rest else h :: e :: rest := rfl

/-- The reply leaves the other port alone. -/
theorem State.answer_other (s : State) (port : Port) (status : Status) (payload : List Byte) :
    (s.answer port status payload).port port.other = s.port port.other := by
  cases port <;> rfl

theorem State.taken_other (s : State) (port : Port) (code : Byte) : (s.taken port code).port port.other = s.port port.other := by
  cases port <;> rfl

/-- A CONNECT that names no stream touches no stream player. -/
theorem State.connecting_touches_unnamed (s : State) (p t : Fin 64) (state : PositionState) :
    Touches [.positions, .highway, .suppress, .echo, .mixer, .events] s (s.connecting p t state none) :=
  (((s.linked_touches p t state none).mono (by decide)).trans ((State.dropListenerTaps_touches _ p).mono (by decide))).trans
    ((State.setFirstFrame_touches _ p).mono (by decide))

/-- The ANNOUNCE entry of a CONNECT with a prompt (R27, R157). -/
theorem State.newEntry_connecting (s : State) (p t : Fin 64) (stream : Option (Fin 16)) (c : Fin 256) (gain : Half)
    (port : Port) : (s.connecting p t .announce stream).newEntry c gain port .announce
      = ⟨c, min gain.toNat 32768, port, .announce, s.whisper.arrival, .waiting⟩ := by
  unfold State.newEntry
  rw [s.connecting_after_linked p t .announce stream .whisper (by decide),
    s.linked_touches p t .announce stream .whisper (by decide)]
  rfl

/-- CONNECT accepted with a prompt: the call's resources, the entry queued, and then the assignment of players. -/
theorem State.connect_prompt {s : State} {port : Port} {p u : Fin 64} {x : PromptArg} {stream : Option (Fin 16)}
    (room : (s.queue p).length < 4) (playable : ((s.clip (clipNumber x.clip)).check port .play none).found = false)
    (still : (s.clip (clipNumber x.clip)).writeBusy = 0) {e : Entry}
    (entry : e = ⟨clipNumber x.clip, min x.gain.toNat 32768, port, .announce, s.whisper.arrival, .waiting⟩) :
    s.connect port p u (some x) stream
      = (((s.connecting p u .announce stream).enqueued p port e (placeAnnounce e)).assignPlayers).answer port .ok [] := by
  show s.checkEntry port Code.connect p (clipNumber x.clip) _ = _
  rw [State.checkEntry_pass _ _ room playable still, entry, ← s.newEntry_connecting p u stream]
  rfl

/-- Settles O27: without a prompt the call's resources alone; with one, then the ANNOUNCE entry, and `u` is the state
before players are assigned. -/
theorem connect : Obligations.Connect := by
  intro s port position trunk p u takes named slotNamed idle owner free entriesOf cleared drops
  let v := s.taken port Code.connect
  refine ⟨?_, fun clip gain stream k streamNamed settled room waits playable still => ?_⟩
  · let w := v.connecting p u .connected none
    have ports : w.ports = v.ports := v.connecting_touches_unnamed p u .connected .ports (by decide)
    have port' : w.port = v.port := by unfold State.port; rw [ports]
    refine ⟨w.answer port .ok [], exec_connect takes named slotNamed idle owner free rfl rfl,
      ⟨v.connecting_highway p u _ _, v.connecting_echo p u _ _, v.connecting_tap p u _ _, v.connecting_coachDuck p u _ _,
        v.connecting_suppress p u _ _⟩, v.connecting_positions p u _ _, ?_, ?_, ?_, ?_⟩
    · exact (v.connecting_events p u .connected none).trans (State.filed_events (s := s) (t := v) rfl rfl rfl _)
    · exact (((s.taken_touches port _).mono (by decide)).trans ((v.connecting_touches_unnamed p u _).mono (by decide))).trans
        ((w.answer_touches port _ _).mono (by decide))
    · rw [State.answer_other, port']
      exact s.taken_other port _
    · rw [State.answer_port, port', State.taken_port]
      rfl
  · intro e
    let w := v.connecting p u .announce k
    let U := w.enqueued p port e (placeAnnounce e)
    let t := U.assignPlayers.answer port .ok []
    have run : exec (.connect port position trunk (some ⟨clip, gain⟩) stream) s = .next t :=
      (exec_connect takes named slotNamed idle owner free (announceStream_of_named _ streamNamed) settled).trans
        (congrArg _ (State.connect_prompt (s := v) (x := ⟨clip, gain⟩) room playable still rfl))
    have linked : Touches [.positions, .highway, .suppress, .echo, .mixer, .streams, .events] v w :=
      ((v.linked_touches p u _ _).mono (by decide)).trans ((v.connecting_after_linked p u _ _).mono (by decide))
    have queued : Touches [.whisper, .clipStore, .events] w U := w.enqueued_touches p port e _
    have assigned : Touches grantParts U t := U.assigned_answer_touches port .ok []
    have clips : w.clip = s.clip := by
      unfold State.clip
      rw [linked .clipStore (by decide)]
      rfl
    have queues : w.queue = s.queue := by
      unfold State.queue
      rw [linked .whisper (by decide)]
      rfl
    have whisper : U.whisper = { s.whisper with
        queues := s.whisper.queues.put p (placeAnnounce e (s.queue p)), arrival := s.whisper.arrival + 1 } := by
      rw [w.enqueued_whisper p port e, linked .whisper (by decide), queues]
      rfl
    have queue : U.queue p = placeAnnounce e (s.queue p) := by
      unfold State.queue
      rw [whisper, Table.cell_put, if_pos rfl]
      rfl
    have streams : U.streams = (s.addListener k).streams :=
      (queued .streams (by decide)).trans ((v.connecting_streams p u _ k).trans (State.addListener_streams (s := s) (t := v) rfl k))
    have arbiter : U.arbiter = s.arbiter := (queued .arbiter (by decide)).trans (linked .arbiter (by decide))
    have ports : U.ports = v.ports := (queued .ports (by decide)).trans (linked .ports (by decide))
    have through : Touches grantParts w t := (queued.mono (by decide)).trans assigned
    have tapTable : t.mixer = w.mixer := through .mixer (by decide)
    have port' : U.port port = v.port port := congrArg (·.cell port) ports
    have events : U.events = (s.filed (drops ++ if (s.clip (clipNumber clip)).keys.cell port = .playNote then
        [((s.clip (clipNumber clip)).owner, .clipPlayed, (clipNumber clip).val, Port.number port + 256)] else [])).events := by
      have before : w.events = (s.filed drops).events :=
        (v.connecting_events p u .announce k).trans (State.filed_events (s := s) (t := v) rfl rfl rfl _)
      have stamp : w.highway.stamp = s.highway.stamp := by
        rw [v.connecting_highway p u .announce k]
        rfl
      rw [w.enqueued_events p port e, clips]
      exact State.filed_after before (linked .startUp (by decide)) stamp _
    refine ⟨t, run, ⟨(through .highway (by decide)).trans (v.connecting_highway p u _ _),
      (through .echo (by decide)).trans (v.connecting_echo p u _ _),
      fun x => (congrArg (fun m : Mixer => m.taps.cell x) tapTable).trans (v.connecting_tap p u _ _ x),
      (congrArg Mixer.coachDuck tapTable).trans (v.connecting_coachDuck p u _ _),
      (through .suppress (by decide)).trans (v.connecting_suppress p u _ _)⟩,
      (through .positions (by decide)).trans (v.connecting_positions p u _ _), ?_, ?_, ?_, ?_, fun i => ?_, ?_,
      U, rfl, ?_, U.assignPlayers_done, queue, fun q other => ?_, ?_, ?_, streams, ?_, fun d other => ?_, ?_, ports, ?_,
      fun busy => ?_⟩
    · exact U.assignPlayers_arrival.trans (congrArg Whisper.arrival whisper)
    · exact (U.assignPlayers_queue p).trans (congrArg (List.map Entry.asWaiting) queue)
    · intro empty
      rw [empty, placeAnnounce_nil]
    · intro h rest cons
      rw [cons, placeAnnounce_cons]
    · rw [← State.addListener_listeners s k i]
      exact (U.assignPlayers_stream i).listeners.trans (congrArg (fun x => (x.cell i).listeners) streams)
    · rw [State.assigned_answer_port (by rw [arbiter]; exact waits), port', State.taken_port]
      rfl
    · exact (((s.taken_touches port _).mono (by decide)).trans (linked.mono (by decide))).trans (queued.mono (by decide))
    · unfold State.queue
      rw [whisper, Table.cell_put, if_neg (Ne.symm other)]
    · rw [whisper]
    · rw [whisper]
    · rw [w.enqueued_clip p port e, if_pos rfl, clips]
    · rw [w.enqueued_clip p port e, if_neg (Ne.symm other), clips]
    · rw [w.enqueued_faults p port e, linked .clipStore (by decide)]
      rfl
    · exact events
    · exact (State.assigned_answer_events (by rw [arbiter]; exact busy) port _ _)

end Sys2Proof.Machine
end


section
/-! PROOFS. What a request's checks lead to (R22): a refusal changes nothing but the reply and, on CLIP_FAULT, the fault
record; a request whose checks pass is not refused. -/

namespace Sys2Proof.Machine

/-! ## The outcome that a list of checks leaves -/

/-- No reply but an OK one stands on a port. -/
def State.repliesOk (t : State) (port : Port) : Prop := ∀ r, (t.port port).lastReply = some r → r.status = .ok

/-- The state after a request whose checks are `checks`, and whose references find `fault`. -/
def State.Concluded (s : State) (port : Port) (code : Byte) (checks : List Check) (fault : Option FaultFound)
    (t : State) : Prop :=
  match firstRefusal checks with
  | none => t.repliesOk port
  | some status =>
    if status = .clipFault then ∃ kinds clip index, fault = some (kinds, clip, index)
      ∧ t = (s.recordFault port kinds clip index code).replied port code .clipFault []
    else t = s.replied port code status []

/-- The two checks that only the owner of an open position passes (R22). -/
def State.openOwned (s : State) (port : Port) (p : Fin 64) : List Check :=
  [((s.pos p).state = .closed, .state), ((s.pos p).owner ≠ some port, .notOwner)]

theorem State.ownerChecks_eq (s : State) (port : Port) (p : Fin 64) (badArg : Bool) (own : List Check) :
    s.ownerChecks port p badArg own = (badArg, .badArg) :: (s.openOwned port p ++ own) := rfl

section
variable {s t : State} {port : Port} {code : Byte} {fault : Option FaultFound} {checks own : List Check}

theorem State.Concluded.of_pass (h : t.repliesOk port) : s.Concluded port code [] fault t := h

theorem State.Concluded.of_eq {other : List Check} (h : s.Concluded port code other fault t)
    (same : firstRefusal checks = firstRefusal other) : s.Concluded port code checks fault t := by
  unfold State.Concluded at h ⊢
  rwa [same]

theorem State.Concluded.refused (s : State) (port : Port) (code : Byte) (fault : Option FaultFound) (own : List Check)
    {status : Status} (plain : status ≠ .clipFault) :
    s.Concluded port code ((true, status) :: own) fault ((s.taken port code).refuse port status) := by
  unfold State.Concluded
  rw [firstRefusal_true]
  dsimp only
  rw [if_neg plain]
  exact s.taken_refuse port code status

/-- One check, which refuses or passes. -/
theorem State.Concluded.check {fails : Bool} {status : Status}
    (refused : fails = true → s.Concluded port code ((true, status) :: own) fault t)
    (passed : fails = false → s.Concluded port code own fault t) :
    s.Concluded port code ((fails, status) :: own) fault t := by
  cases fails
  · exact passed rfl
  · exact refused rfl

/-- A chain of checks, and what follows when they pass. -/
theorem State.Concluded.checked {effect : State → State} (plain : ∀ c ∈ checks, c.2 ≠ .clipFault)
    (rest : firstRefusal checks = none → s.Concluded port code own fault (effect (s.taken port code))) :
    s.Concluded port code (checks ++ own) fault ((s.taken port code).checked port checks effect) := by
  induction checks with
  | nil => exact rest rfl
  | cons c checks ih =>
    obtain ⟨fails, status⟩ := c
    obtain ⟨here, later⟩ := List.forall_mem_cons.mp plain
    cases fails
    · exact ih later rest
    · exact .refused s port code fault _ here

/-- A chain of checks after which the request is accepted. -/
theorem State.Concluded.checked_last {effect : State → State} (plain : ∀ c ∈ checks, c.2 ≠ .clipFault)
    (accepted : firstRefusal checks = none → (effect (s.taken port code)).repliesOk port) :
    s.Concluded port code checks fault ((s.taken port code).checked port checks effect) := by
  have h := State.Concluded.checked (fault := fault) (own := []) plain accepted
  rwa [List.append_nil] at h

theorem State.Concluded.owned {p : Fin 64} {effect : State → State} (plain : ∀ c ∈ checks, c.2 ≠ .clipFault)
    (rest : (s.pos p).state ≠ .closed → (s.pos p).owner = some port → firstRefusal checks = none →
      s.Concluded port code own fault (effect (s.taken port code))) :
    s.Concluded port code (s.openOwned port p ++ checks ++ own) fault ((s.taken port code).owned port p checks effect) := by
  refine State.Concluded.checked (checks := s.openOwned port p ++ checks) ?_ fun passed => ?_
  · refine List.forall_mem_cons.mpr ⟨Status.noConfusion, List.forall_mem_cons.mpr ⟨Status.noConfusion, plain⟩⟩
  · rw [firstRefusal_eq_none] at passed
    have opened : decide ((s.pos p).state = .closed) = false := passed _ (List.mem_cons_self ..)
    have owner : decide ((s.pos p).owner ≠ some port) = false := passed _ (List.mem_cons_of_mem _ (List.mem_cons_self ..))
    have passes : ∀ c ∈ checks, c.1 = false := fun c member => passed c (List.mem_append_right _ member)
    exact rest (of_decide_eq_false opened) (by simpa using owner) (firstRefusal_eq_none.mpr passes)

theorem State.Concluded.owned_last {p : Fin 64} {effect : State → State} (plain : ∀ c ∈ checks, c.2 ≠ .clipFault)
    (accepted : (effect (s.taken port code)).repliesOk port) :
    s.Concluded port code (s.openOwned port p ++ checks) fault ((s.taken port code).owned port p checks effect) := by
  have h := State.Concluded.owned (fault := fault) (own := []) (p := p) plain fun _ _ _ => accepted
  rwa [List.append_nil] at h

/-! ## Numbers -/

theorem number?_eq {n : Nat} [NeZero n] (b : Byte) :
    number? n b = if n - 1 < b.toNat then none else some (objectAt n b) := by
  have positive := NeZero.pos n
  unfold number? objectAt
  split
  · next h =>
    rw [if_neg (by omega)]
    exact congrArg some (Fin.ext (Nat.mod_eq_of_lt h).symm)
  · rw [if_pos (by omega)]

/-- The number of the request's object, the first check. -/
theorem State.Concluded.numbered {n : Nat} [NeZero n] {b : Byte} {body : Fin n → State → State}
    (rest : ¬n - 1 < b.toNat → s.Concluded port code own fault (body (objectAt n b) (s.taken port code))) :
    s.Concluded port code ((n - 1 < b.toNat, .badArg) :: own) fault ((s.taken port code).withNumber port b body) := by
  unfold State.withNumber
  rw [number?_eq]
  by_cases outside : n - 1 < b.toNat
  · rw [if_pos outside, decide_eq_true outside]
    exact .refused s port code fault own (by decide)
  · rw [if_neg outside, decide_eq_false outside]
    exact rest outside

/-- The first check in two parts. -/
theorem firstRefusal_or (a b : Bool) (status : Status) (rest : List Check) :
    firstRefusal ((a || b, status) :: rest) = firstRefusal ((a, status) :: (b, status) :: rest) := by
  cases a
  · rfl
  · rfl

end

/-! ## Replies -/

theorem State.answer_repliesOk (t : State) (port : Port) (payload : List Byte) : (t.answer port .ok payload).repliesOk port :=
  fun r reply => by
    rw [State.answer_port] at reply
    cases reply
    rfl

/-- Replies stay OK through the assignment of players and a grant, which make none but OK ones (R130). -/
theorem State.repliesOk_of_ports {t u : State} {port : Port} (h : t.repliesOk port) (same : u.ports = t.ports) :
    u.repliesOk port := fun r reply => h r (by unfold State.port at reply ⊢; rwa [same] at reply)

theorem State.answer_repliesOk_other {t : State} {port : Port} (h : t.repliesOk port) (q : Port) (payload : List Byte) :
    (t.answer q .ok payload).repliesOk port := by
  by_cases same : q = port
  · rw [same]
    exact t.answer_repliesOk port payload
  · intro r reply
    refine h r ?_
    rwa [show (t.answer q .ok payload).port port = t.port port from PerPort.cell_put_other _ _ _ _ same] at reply

theorem State.grant_repliesOk {t : State} {port : Port} (h : t.repliesOk port) : t.grant.repliesOk port := by
  refine State.grantRounds_keeps (P := fun u => u.repliesOk port) (fun u hu _ => hu) (fun u f rest hu _ _ => ?_)
    (fun u f rest hu _ _ => hu) (fun u p clip index page hu _ _ => ?_) (fun u p op hu _ _ => hu) _ t h
  · exact State.repliesOk_of_ports hu (State.deliver_touches u.unqueue f _ .ports (by decide))
  · exact State.answer_repliesOk_other (t := u.grantPort p) hu p _

/-- What passes the port's checks has no reply yet. -/
theorem State.taken_repliesOk (s : State) (port : Port) (code : Byte) : (s.taken port code).repliesOk port :=
  fun r reply => by
    rw [State.taken_port] at reply
    exact nomatch reply

/-! ## Clip faults (R113, R114, R121) -/

theorem State.taken_refuseFault (s : State) (port : Port) (code : Byte) (kinds : FaultKinds) (clip : Fin 256)
    (index : Option Nat) : (s.taken port code).refuseFault port kinds clip index code
      = (s.recordFault port kinds clip index code).replied port code .clipFault [] := by
  refine Eq.trans ?_ (State.taken_refuse (s.recordFault port kinds clip index code) port code .clipFault)
  unfold State.refuseFault State.recordFault State.fault
  rw [State.taken_clipStore]
  split
  · rfl
  · rfl

theorem State.Concluded.faulted {s : State} {port : Port} {code : Byte} {fault : Option FaultFound} {kinds : FaultKinds}
    {clip : Fin 256} {index : Option Nat} (found : fault = some (kinds, clip, index)) (own : List Check) :
    s.Concluded port code ((true, .clipFault) :: own) fault ((s.taken port code).refuseFault port kinds clip index code) :=
  ⟨kinds, clip, index, found, s.taken_refuseFault port code kinds clip index⟩

/-- The fault of the first item that finds one. -/
def State.itemsFault (s : State) (port : Port) (items : List Item) : Option FaultFound :=
  (s.faultyItem port items).map fun x => (x.2, x.1, none)

theorem State.itemsFault_cons (s : State) (port : Port) (i : Item) (items : List Item) :
    s.itemsFault port (i :: items) = (s.referenceFault port .play i.clip none).or (s.itemsFault port items) := by
  have step : s.faultyItem port (i :: items) = if ((s.clip i.clip).check port .play none).found then
      some (i.clip, (s.clip i.clip).check port .play none) else s.faultyItem port items := rfl
  unfold State.itemsFault State.referenceFault
  rw [step]
  split
  · rfl
  · rfl

theorem State.itemsFault_single (s : State) (port : Port) (c : Fin 256) (gain : Nat) :
    s.itemsFault port [⟨c, gain⟩] = s.referenceFault port .play c none := by
  rw [State.itemsFault_cons]
  exact Option.or_none

theorem State.itemsFault_stored (s : State) (port : Port) (l : PlaylistArg) :
    s.itemsFault port (storedPlaylist l).items = s.playlistFault port l := by
  show s.itemsFault port (l.items.map storedItem) = l.items.findSome? _
  induction l.items with
  | nil => rfl
  | cons i items ih =>
    rw [List.map_cons, State.itemsFault_cons, ih, List.findSome?_cons]
    show (s.referenceFault port .play (clipNumber i.clip) none).or _ = _
    cases s.referenceFault port .play (clipNumber i.clip) none <;> rfl

/-- The clip checks of a request that names items for play (R114, R115). -/
theorem State.Concluded.items {s : State} {port : Port} {code : Byte} {items : List Item} {effect : State → State}
    (accepted : (effect (s.taken port code)).repliesOk port) :
    s.Concluded port code [((s.itemsFault port items).isSome, .clipFault), (s.itemsBusy items, .inUse)]
      (s.itemsFault port items) ((s.taken port code).checkItems port code items effect) := by
  have same : ∀ l : List Item, (s.taken port code).faultyItem port l = s.faultyItem port l := fun l => by
    induction l with
    | nil => rfl
    | cons i l ih =>
      unfold State.faultyItem
      rw [ih]
      rfl
  unfold State.checkItems
  rw [same]
  cases found : s.faultyItem port items with
  | some x =>
    have fault : s.itemsFault port items = some (x.2, x.1, none) := by rw [State.itemsFault, found]; rfl
    rw [fault]
    exact .faulted rfl _
  | none =>
    have fault : s.itemsFault port items = none := by rw [State.itemsFault, found]; rfl
    rw [fault]
    dsimp only
    cases busy : s.itemsBusy items with
    | true =>
      rw [if_pos (show (s.taken port code).itemsBusy items = true from busy)]
      exact .refused s port code none [] (by decide)
    | false =>
      rw [if_neg (by rw [show (s.taken port code).itemsBusy items = false from busy]; decide)]
      exact accepted

/-- The checks of a new whisper entry (R158). -/
theorem State.Concluded.entry {s : State} {port : Port} {code : Byte} {p : Fin 64} {c : Fin 256} {effect : State → State}
    (accepted : (effect (s.taken port code)).repliesOk port) :
    s.Concluded port code (s.entryChecks port p c) (s.referenceFault port .play c none)
      ((s.taken port code).checkEntry port code p c effect) := by
  refine State.Concluded.check (fun full => ?_) fun room => ?_
  · unfold State.checkEntry
    rw [if_pos (show 4 ≤ ((s.taken port code).queue p).length from of_decide_eq_true full)]
    exact .refused s port code _ _ (by decide)
  · unfold State.checkEntry
    rw [if_neg (show ¬4 ≤ ((s.taken port code).queue p).length from of_decide_eq_false room)]
    have h := State.Concluded.items (s := s) (code := code) (items := [⟨c, 0⟩]) accepted
    rw [State.itemsFault_single] at h
    refine h.of_eq ?_
    unfold State.itemsBusy
    simp

/-- The clip checks of a CONNECT, by its prompt (R26). -/
theorem State.connect_concluded (s : State) (port : Port) (p t : Fin 64) (prompt : Option PromptArg)
    (stream : Option (Fin 16)) (position trunk : Byte) (named : Option Byte) : s.Concluded port Code.connect
      (match prompt with | some x => s.entryChecks port p (clipNumber x.clip) | none => [])
      (s.faultOf port (.connect port position trunk prompt named))
      ((s.taken port Code.connect).connect port p t prompt stream) := by
  cases prompt with
  | none => exact .of_pass (State.answer_repliesOk _ _ _)
  | some x => exact .entry (State.answer_repliesOk _ _ _)

/-! ## Codes out of range -/

/-- An optional code names no EC mode when it is above 2 (R34). -/
theorem namedMode_eq (mode : Option Byte) :
    namedMode mode = none ∧ mode.any (fun b => 2 < b.toNat) = true
      ∨ ∃ m, namedMode mode = some m ∧ mode.any (fun b => 2 < b.toNat) = false := by
  cases mode with
  | none => exact .inr ⟨none, rfl, rfl⟩
  | some b =>
    show (ecMode? b).map some = none ∧ _ ∨ ∃ m, (ecMode? b).map some = some m ∧ _
    have code : ecMode? b = if b = 0 then some .adapt else if b = 1 then some .frozen else
      if b = 2 then some .bypass else none := rfl
    rw [code, Option.any_some]
    by_cases adapt : b = 0
    · subst adapt; exact .inr ⟨_, rfl, rfl⟩
    by_cases frozen : b = 1
    · subst frozen; exact .inr ⟨_, rfl, rfl⟩
    by_cases bypass : b = 2
    · subst bypass; exact .inr ⟨_, rfl, rfl⟩
    rw [if_neg adapt, if_neg frozen, if_neg bypass]
    exact .inl ⟨rfl, decide_eq_true (by bv_omega)⟩

/-- A key code names no key when it is above 4 (R178). -/
theorem key?_eq (b : Byte) : key? b = none ∧ badKey b = true ∨ ∃ k, key? b = some k ∧ badKey b = false := by
  unfold key? badKey
  by_cases outside : 4 < b.toNat
  · rw [if_neg (by bv_omega), if_neg (by bv_omega), if_neg (by bv_omega), if_neg (by bv_omega), if_neg (by bv_omega)]
    exact .inl ⟨rfl, decide_eq_true outside⟩
  · have cases : b = 0 ∨ b = 1 ∨ b = 2 ∨ b = 3 ∨ b = 4 := by bv_omega
    rcases cases with e | e | e | e | e <;> subst e <;> exact .inr ⟨_, rfl, rfl⟩


/-- A tap kind code names no kind when it is above 1 (R178). -/
theorem tapKind?_eq (b : Byte) : tapKind? b = none ∧ 1 < b.toNat
    ∨ ∃ k, tapKind? b = some k ∧ ¬1 < b.toNat ∧ decide (k = .coach) = decide (b = 1) := by
  unfold tapKind?
  by_cases monitor : b = 0
  · subst monitor; exact .inr ⟨_, rfl, by decide, rfl⟩
  by_cases coach : b = 1
  · subst coach; exact .inr ⟨_, rfl, by decide, rfl⟩
  · rw [if_neg monitor, if_neg coach]
    exact .inl ⟨rfl, by bv_omega⟩

/-- Two numbers in range name one object when they are one. -/
theorem objectAt_eq_iff {b c : Byte} (hb : ¬63 < b.toNat) (hc : ¬63 < c.toNat) :
    decide (objectAt 64 b = objectAt 64 c) = decide (b = c) := by
  refine decide_eq_decide.mpr ⟨fun same => BitVec.eq_of_toNat_eq ?_, fun same => by rw [same]⟩
  have values : b.toNat % 64 = c.toNat % 64 := congrArg Fin.val same
  omega

/-- The tap table has no free entry exactly when all 16 are in use (R97). -/
theorem State.freeTap_isNone (s : State) : s.freeTap.isNone = decide (16 ≤ s.tapsInUse.length) := by
  have used : s.tapsInUse.length = ((List.finRange 16).filter fun t => (s.tap t).isSome).length := by
    unfold State.tapsInUse
    rw [List.length_filterMap_eq_countP, List.countP_eq_length_filter]
    simp only [Option.isSome_map]
  have most := List.length_filter_le (fun t => (s.tap t).isSome) (List.finRange 16)
  rw [List.length_finRange] at most
  have full : 16 ≤ s.tapsInUse.length ↔ ∀ t ∈ List.finRange 16, (s.tap t).isSome = true := by
    rw [← List.length_filter_eq_length_iff, List.length_finRange, used]
    omega
  rw [Bool.eq_iff_iff, decide_eq_true_iff, full, Option.isNone_iff_eq_none, State.freeTap, List.find?_eq_none]
  simp [Option.isSome_iff_ne_none]

theorem State.tapLimit_eq (s : State) (l t : Fin 64) (k : TapKind) : s.tapLimit l t k
    = (s.tapsInUse.any (fun x => x.2.listener = l) || 3 ≤ (s.tapsInUse.filter fun x => x.2.target = t).length
      || (k = .coach && s.tapsInUse.any fun x => x.2.target = t && x.2.kind = .coach)
      || 16 ≤ s.tapsInUse.length) := by
  unfold State.tapLimit State.listenerTap State.coachTap
  rw [State.freeTap_isNone, Option.isSome_map, Option.isSome_map, List.isSome_find?, List.isSome_find?]

theorem State.addTapAccepted_repliesOk {t : State} {port : Port} (h : t.repliesOk port) (x : Tap) :
    (t.addTapAccepted port x).repliesOk port := by
  unfold State.addTapAccepted
  split
  · exact State.answer_repliesOk _ _ _
  · exact h

theorem State.loadAccepted_repliesOk (t : State) (port : Port) (k : Fin 16) (l : Playlist) :
    (t.loadAccepted port k l).repliesOk port := by
  unfold State.loadAccepted
  dsimp only
  split
  · exact State.answer_repliesOk _ _ _
  · split
    · exact State.answer_repliesOk _ _ _
    · exact State.answer_repliesOk _ _ _
  · exact State.answer_repliesOk _ _ _

/-- A record is picked exactly when one of an unmasked class is stored (R183). -/
theorem EventState.pick_isSome (e : EventState) : e.pick.isSome = e.unmaskedPresent := by
  unfold EventState.pick EventState.unmaskedPresent
  rw [Bool.eq_iff_iff, List.findSome?_isSome_iff, List.any_eq_true]
  constructor
  · rintro ⟨c, -, picked⟩
    split at picked
    · exact nomatch picked
    · next unmasked =>
      obtain ⟨r, stored, class'⟩ := List.find?_isSome.mp picked
      exact ⟨r, stored, by rw [of_decide_eq_true class']; simpa using unmasked⟩
  · rintro ⟨r, stored, unmasked⟩
    refine ⟨r.cls, List.mem_finRange _, ?_⟩
    rw [if_neg (by simpa using unmasked)]
    exact List.find?_isSome.mpr ⟨r, stored, decide_eq_true rfl⟩

/-- The clip reference of a page request (R113, R117, R119). -/
theorem State.Concluded.reference {s : State} {port : Port} {code : Byte} {kind : RefKind} {clip : Fin 256}
    {index : Option Nat} {own : List Check} {t : State}
    (rest : ((s.clip clip).check port kind index).found = false →
      s.Concluded port code own (s.referenceFault port kind clip index) t) :
    s.Concluded port code (((s.referenceFault port kind clip index).isSome, .clipFault) :: own)
      (s.referenceFault port kind clip index)
      (if ((s.clip clip).check port kind index).found then
        (s.taken port code).refuseFault port ((s.clip clip).check port kind index) clip index code else t) := by
  by_cases found : ((s.clip clip).check port kind index).found = true
  · have fault : s.referenceFault port kind clip index = some ((s.clip clip).check port kind index, clip, index) := if_pos found
    rw [if_pos found, fault]
    exact .faulted rfl own
  · have fault : s.referenceFault port kind clip index = none := if_neg found
    have passed := rest (Bool.eq_false_iff.mpr found)
    rw [if_neg found]
    rw [fault] at passed ⊢
    exact passed

/-- The clip checks of a playlist (R114). -/
theorem State.Concluded.playlist {s : State} {port : Port} {code : Byte} {l : PlaylistArg} {effect : State → State}
    (accepted : (effect (s.taken port code)).repliesOk port) :
    s.Concluded port code (s.playlistChecks port l) (s.playlistFault port l)
      ((s.taken port code).checkItems port code (storedPlaylist l).items effect) := by
  have h := State.Concluded.items (s := s) (code := code) (items := (storedPlaylist l).items) accepted
  have busy : s.itemsBusy (storedPlaylist l).items = l.items.any fun i => 0 < (s.clip (clipNumber i.clip)).writeBusy :=
    List.any_map
  rwa [State.itemsFault_stored, busy] at h

theorem firstRefusal_congr {c : Check} {first other : List Check}
    (h : c.1 = false → firstRefusal first = firstRefusal other) : firstRefusal (c :: first) = firstRefusal (c :: other) := by
  obtain ⟨fails, status⟩ := c
  cases fails
  · exact h rfl
  · rfl

/-- NOT_OWNER before STATE, in the order in which START STREAM tells them apart (R142). -/
theorem firstRefusal_owner_first (busy owned : Bool) (rest : List Check) :
    firstRefusal ((busy && !owned, .notOwner) :: (busy, .state) :: rest)
      = firstRefusal ((busy && owned, .state) :: (busy, .notOwner) :: rest) := by
  cases busy
  · rfl
  · cases owned
    · rfl
    · rfl

/-! ## Commands, one by one -/

/-- The command leads to the state its checks say. -/
def State.Concludes (s : State) (port : Port) (code : Byte) (c : Instr) : Prop :=
  ∃ t, exec c s = .next t ∧ s.Concluded port code (s.checksOf port c) (s.faultOf port c) t

theorem State.concludes {s : State} {port : Port} {code : Byte} {c : Instr} (body : State → State) (takes : s.takes port)
    (run : exec c s = .next (s.request port code body))
    (concluded : s.Concluded port code (s.checksOf port c) (s.faultOf port c) (body (s.taken port code))) :
    s.Concludes port code c :=
  ⟨_, run, by rwa [State.request_of_takes takes]⟩

/-- A refusal at the first check. -/
theorem State.Concluded.first {s : State} {port : Port} {code : Byte} {fault : Option FaultFound} {fails : Bool}
    {status : Status} {own : List Check} (failed : fails = true) (plain : status ≠ .clipFault) :
    s.Concluded port code ((fails, status) :: own) fault ((s.taken port code).refuse port status) := by
  rw [failed]
  exact .refused s port code fault own plain

section
variable {s : State} {port : Port} (takes : s.takes port)
include takes

theorem openPosition_concludes (position slot tail profile : Byte) :
    s.Concludes port Code.openPosition (.openPosition port position slot tail profile) := by
  refine State.concludes _ takes rfl ?_
  rw [number?_eq, number?_eq]
  by_cases outside : 63 < position.toNat
  · rw [if_pos outside]
    exact .first (by simp [outside]) (by decide)
  by_cases slotOutside : 63 < slot.toNat
  · rw [if_neg outside, if_pos slotOutside]
    exact .first (by simp [slotOutside]) (by decide)
  rw [if_neg outside, if_neg slotOutside]
  refine (State.Concluded.checked_last (by simp) fun _ => State.answer_repliesOk _ _ _).of_eq ?_
  show firstRefusal ((_ || _ || _ || _, _) :: _) = _
  rw [decide_eq_false outside, decide_eq_false slotOutside]
  rfl

theorem closePosition_concludes (position : Byte) : s.Concludes port Code.closePosition (.closePosition port position) := by
  refine State.concludes _ takes rfl ?_
  refine (State.Concluded.numbered fun _ => State.Concluded.owned_last (by simp) (State.answer_repliesOk _ _ _)).of_eq ?_
  simp only [State.checksOf, State.ownerChecks_eq, State.openOwned]
  cases e : (s.pos (objectAt 64 position)).state <;> simp [e, firstRefusal, PositionState.inCall]

theorem connect_concludes (position trunk : Byte) (prompt : Option PromptArg) (stream : Option Byte) :
    s.Concludes port Code.connect (.connect port position trunk prompt stream) := by
  refine State.concludes _ takes rfl ?_
  rw [number?_eq, number?_eq]
  by_cases outside : 63 < position.toNat
  · rw [if_pos outside]
    exact .first (by simp [outside]) (by decide)
  by_cases slotOutside : 63 < trunk.toNat
  · rw [if_neg outside, if_pos slotOutside]
    exact .first (by simp [slotOutside]) (by decide)
  rw [if_neg outside, if_neg slotOutside]
  cases stream with
  | none =>
    refine State.Concluded.check (fun bad => ?_) fun _ => ?_
    · simp [outside, slotOutside] at bad
    · exact State.Concluded.owned (by simp) fun _ _ _ => State.connect_concluded s port _ _ prompt none _ _ _
  | some k =>
    unfold announceStream
    cases prompt with
    | none => exact .first (by simp) (by decide)
    | some x =>
      dsimp only
      rw [number?_eq]
      by_cases streamOutside : 15 < k.toNat
      · rw [if_pos streamOutside]
        exact .first (by simp [streamOutside]) (by decide)
      · rw [if_neg streamOutside]
        refine State.Concluded.check (fun bad => ?_) fun _ => ?_
        · simp [outside, slotOutside, streamOutside] at bad
        · exact State.Concluded.owned (by simp) fun _ _ _ => State.connect_concluded s port _ _ (some x) _ _ _ _

theorem hold_concludes (position : Byte) (stream : Option Byte) :
    s.Concludes port Code.hold (.hold port position stream) := by
  refine State.concludes _ takes rfl ?_
  rw [number?_eq]
  by_cases outside : 63 < position.toNat
  · rw [if_pos outside]
    exact .first (by simp [outside]) (by decide)
  rw [if_neg outside]
  cases stream with
  | none =>
    refine State.Concluded.check (fun bad => ?_) fun _ => ?_
    · simp [outside] at bad
    · exact State.Concluded.owned_last (by simp) (State.answer_repliesOk _ _ _)
  | some k =>
    unfold holdStream
    dsimp only
    rw [number?_eq]
    by_cases streamOutside : 15 < k.toNat
    · rw [if_pos streamOutside]
      exact .first (by simp [streamOutside]) (by decide)
    · rw [if_neg streamOutside]
      refine State.Concluded.check (fun bad => ?_) fun _ => ?_
      · simp [outside, streamOutside] at bad
      · exact State.Concluded.owned_last (by simp) (State.answer_repliesOk _ _ _)

theorem retrieve_concludes (position : Byte) : s.Concludes port Code.retrieve (.retrieve port position) := by
  refine State.concludes _ takes rfl ?_
  refine (State.Concluded.numbered fun _ => State.Concluded.owned_last (by simp) ?_).of_eq rfl
  unfold State.retrieveAccepted
  dsimp only
  split
  · exact State.answer_repliesOk _ _ _
  · exact State.answer_repliesOk _ _ _

theorem release_concludes (position : Byte) : s.Concludes port Code.release (.release port position) := by
  refine State.concludes _ takes rfl ?_
  exact (State.Concluded.numbered fun _ => State.Concluded.owned_last (by simp) (State.answer_repliesOk _ _ _)).of_eq rfl

theorem setTail_concludes (position tail : Byte) : s.Concludes port Code.setTail (.setTail port position tail) := by
  refine State.concludes _ takes rfl ?_
  refine (State.Concluded.numbered fun _ => State.Concluded.checked (by simp) fun _ =>
    State.Concluded.owned_last (by simp) (State.answer_repliesOk _ _ _)).of_eq ?_
  show firstRefusal ((_ || _ || _, _) :: _) = _
  rw [Bool.or_assoc, firstRefusal_or]
  rfl

theorem setPosition_concludes (position : Byte) (params : ParamsArg) :
    s.Concludes port Code.setPosition (.setPosition port position params) := by
  refine State.concludes _ takes rfl ?_
  rw [number?_eq]
  by_cases outside : 63 < position.toNat
  · rw [if_pos outside]
    exact .first (by simp [outside]) (by decide)
  rw [if_neg outside]
  rcases namedMode_eq params.mode with ⟨unread, bad⟩ | ⟨m, read, good⟩
  · rw [unread]
    exact .first (by simp [bad]) (by decide)
  · rw [read]
    refine State.Concluded.check (fun bad => ?_) fun _ => ?_
    · simp [outside, good] at bad
    · exact State.Concluded.owned_last (by simp) (State.answer_repliesOk _ _ _)

theorem offerPositionOffer_concludes (position choice : Byte) :
    s.Concludes port Code.offerPosition (.offerPositionOffer port position choice) := by
  refine State.concludes _ takes rfl ?_
  refine (State.Concluded.numbered fun _ => State.Concluded.checked (by simp) fun _ =>
    State.Concluded.owned_last (by simp) (State.answer_repliesOk _ _ _)).of_eq ?_
  show firstRefusal ((_ || _, _) :: _) = _
  rw [firstRefusal_or, State.taken_enabled]
  rfl

theorem offerPositionWithdraw_concludes (position : Byte) :
    s.Concludes port Code.offerPosition (.offerPositionWithdraw port position) := by
  refine State.concludes _ takes rfl ?_
  refine State.Concluded.numbered (n := 64) fun _ => ?_
  exact State.Concluded.owned_last (by simp) (State.answer_repliesOk _ _ _)

theorem acceptPosition_concludes (position : Byte) :
    s.Concludes port Code.acceptPosition (.acceptPosition port position) := by
  refine State.concludes _ takes rfl ?_
  refine State.Concluded.numbered (n := 64) fun _ => ?_
  exact State.Concluded.checked_last (by simp) fun _ => State.answer_repliesOk _ _ _

theorem positionInfo_concludes (position : Byte) :
    s.Concludes port Code.positionInfo (.positionInfo port position) := by
  refine State.concludes _ takes rfl ?_
  refine State.Concluded.numbered (n := 64) fun _ => ?_
  exact .of_pass (State.answer_repliesOk _ _ _)

theorem positionStats_concludes (position : Byte) (clear : Bool) :
    s.Concludes port Code.positionStats (.positionStats port position clear) := by
  refine State.concludes _ takes rfl ?_
  refine State.Concluded.numbered (n := 64) fun _ => ?_
  exact State.Concluded.owned_last (by simp) (State.answer_repliesOk _ _ _)

/-! ### Profiles and taps -/

theorem writeProfile_concludes (profile : Byte) (gains : Table 16 Half) (threshold : Byte) (nmin : Wide) :
    s.Concludes port Code.writeProfile (.writeProfile port profile gains threshold nmin) := by
  refine State.concludes _ takes rfl ?_
  rw [number?_eq]
  by_cases outside : 3 < profile.toNat
  · rw [if_pos outside]
    exact .first (decide_eq_true outside) (by decide)
  · rw [if_neg outside]
    refine State.Concluded.check (fun bad => absurd (of_decide_eq_true bad) outside) fun _ => ?_
    exact .of_pass (State.answer_repliesOk _ _ _)

theorem removeTap_concludes (tap : Byte) : s.Concludes port Code.removeTap (.removeTap port tap) := by
  refine State.concludes _ takes rfl ?_
  rw [number?_eq]
  by_cases outside : 15 < tap.toNat
  · rw [if_pos outside]
    exact .first (decide_eq_true outside) (by decide)
  · rw [if_neg outside]
    refine State.Concluded.check (fun bad => absurd (of_decide_eq_true bad) outside) fun _ => ?_
    dsimp only
    rw [show (s.taken port Code.removeTap).tap (objectAt 16 tap) = s.tap (objectAt 16 tap) from rfl]
    cases used : s.tap (objectAt 16 tap) with
    | none => exact .first rfl (by decide)
    | some x =>
      refine State.Concluded.check (fun bad => nomatch bad) fun _ => ?_
      exact State.Concluded.checked_last (by simp) fun _ => State.answer_repliesOk _ _ _

theorem addTap_concludes (listener target kind : Byte) (gain : Half) :
    s.Concludes port Code.addTap (.addTap port listener target kind gain) := by
  refine State.concludes _ takes rfl ?_
  rw [number?_eq, number?_eq]
  by_cases outside : 63 < listener.toNat
  · rw [if_pos outside]
    exact .first (by simp [outside]) (by decide)
  by_cases targetOutside : 63 < target.toNat
  · rw [if_neg outside, if_pos targetOutside]
    exact .first (by simp [targetOutside]) (by decide)
  rw [if_neg outside, if_neg targetOutside]
  rcases tapKind?_eq kind with ⟨unread, bad⟩ | ⟨k, read, good, coach⟩
  · rw [unread]
    exact .first (by simp [bad]) (by decide)
  rw [read]
  refine (State.Concluded.checked_last (by simp) fun _ => State.addTapAccepted_repliesOk (s.taken_repliesOk port _) _).of_eq ?_
  show firstRefusal ((_ || _ || _ || _, _) :: _) = firstRefusal [_, _, _, _, _, (s.tapLimit _ _ _, _)]
  rw [decide_eq_false outside, decide_eq_false targetOutside, decide_eq_false good, State.tapLimit_eq, coach,
    objectAt_eq_iff outside targetOutside]
  rfl

/-! ### The clip store -/

theorem defineClip_concludes (clip : Byte) (base length fill : Half) (key0 key1 : Byte) :
    s.Concludes port Code.defineClip (.defineClip port clip base length fill key0 key1) := by
  refine State.concludes _ takes rfl ?_
  rcases key?_eq key0 with ⟨unread, bad⟩ | ⟨k0, read0, good0⟩
  · rw [unread]
    exact .first (by simp [bad]) (by decide)
  rcases key?_eq key1 with ⟨unread, bad⟩ | ⟨k1, read1, good1⟩
  · rw [read0, unread]
    exact .first (by simp [bad]) (by decide)
  rw [read0, read1]
  refine (State.Concluded.checked_last (by simp) fun _ => State.answer_repliesOk _ _ _).of_eq ?_
  simp only [State.checksOf, good0, good1, Bool.or_false]
  rfl

theorem setKeys_concludes (clip key0 key1 : Byte) : s.Concludes port Code.setKeys (.setKeys port clip key0 key1) := by
  refine State.concludes _ takes rfl ?_
  rcases key?_eq key0 with ⟨unread, bad⟩ | ⟨k0, read0, good0⟩
  · rw [unread]
    exact .first (by simp [bad]) (by decide)
  rcases key?_eq key1 with ⟨unread, bad⟩ | ⟨k1, read1, good1⟩
  · rw [read0, unread]
    exact .first (by simp [bad]) (by decide)
  rw [read0, read1]
  refine State.Concluded.check (fun bad => ?_) fun _ => ?_
  · simp [good0, good1] at bad
  · exact State.Concluded.checked_last (by simp) fun _ => State.answer_repliesOk _ _ _

theorem freeClip_concludes (clip : Byte) : s.Concludes port Code.freeClip (.freeClip port clip) := by
  refine State.concludes _ takes rfl ?_
  exact (State.Concluded.checked_last (by simp) fun _ => State.answer_repliesOk _ _ _).of_eq rfl

theorem writePage_concludes (clip : Byte) (index : Half) (codes : PageCodes) :
    s.Concludes port Code.writePage (.writePage port clip index codes) := by
  refine State.concludes _ takes rfl ?_
  dsimp only
  by_cases outside : 4095 < index.toNat
  · rw [if_pos outside]
    exact .first (decide_eq_true outside) (by decide)
  rw [if_neg outside]
  refine State.Concluded.check (fun bad => absurd (of_decide_eq_true bad) outside) fun _ => ?_
  refine State.Concluded.reference fun _ => ?_
  by_cases played : 0 < (s.clip (clipNumber clip)).plays
  · rw [if_pos (show 0 < ((s.taken port Code.writePage).clip (clipNumber clip)).plays from played)]
    exact .first (decide_eq_true played) (by decide)
  · rw [if_neg (show ¬0 < ((s.taken port Code.writePage).clip (clipNumber clip)).plays from played)]
    refine State.Concluded.check (fun bad => absurd (of_decide_eq_true bad) played) fun _ => ?_
    exact .of_pass (State.grant_repliesOk (s.taken_repliesOk port _))

theorem readPage_concludes (clip : Byte) (index : Half) :
    s.Concludes port Code.readPage (.readPage port clip index) := by
  refine State.concludes _ takes rfl ?_
  dsimp only
  by_cases outside : 4095 < index.toNat
  · rw [if_pos outside]
    exact .first (decide_eq_true outside) (by decide)
  rw [if_neg outside]
  refine State.Concluded.check (fun bad => absurd (of_decide_eq_true bad) outside) fun _ => ?_
  refine State.Concluded.reference fun _ => ?_
  have noted : ((s.taken port Code.readPage).note port .pageRead (clipNumber clip)).repliesOk port :=
    State.repliesOk_of_ports (s.taken_repliesOk port _) (State.note_touches _ _ _ _ .ports (by decide))
  exact .of_pass (State.grant_repliesOk noted)

theorem readFault_concludes : s.Concludes port Code.readFault (.readFault port) := by
  refine State.concludes _ takes rfl ?_
  rw [show (s.taken port Code.readFault).fault port = s.fault port from rfl]
  cases empty : (s.fault port).record with
  | none => exact .first (by rw [empty]; rfl) (by decide)
  | some r =>
    refine State.Concluded.check (fun bad => ?_) fun _ => .of_pass (State.answer_repliesOk _ _ _)
    rw [empty] at bad
    exact nomatch bad

/-! ### Streams, whispers and events -/

theorem startStream_concludes (stream : Byte) (l : PlaylistArg) :
    s.Concludes port Code.startStream (.startStream port stream l) := by
  refine State.concludes _ takes rfl ?_
  refine (State.Concluded.numbered (n := 16) fun _ => ?_).of_eq (firstRefusal_or _ _ _ _)
  let x := s.stream (objectAt 16 stream)
  refine (State.Concluded.checked (checks := [(!playlistLegal l, .badArg),
    (x.state ≠ .stopped && x.owner = some port, .state), (x.state ≠ .stopped, .notOwner)]) (by simp) fun _ =>
    State.Concluded.playlist (State.answer_repliesOk _ _ _)).of_eq ?_
  refine firstRefusal_congr fun _ => ?_
  rw [show decide (x.owner ≠ some port) = !decide (x.owner = some port) from decide_not]
  exact firstRefusal_owner_first _ _ _

theorem loadStream_concludes (stream : Byte) (l : PlaylistArg) :
    s.Concludes port Code.loadStream (.loadStream port stream l) := by
  refine State.concludes _ takes rfl ?_
  refine (State.Concluded.numbered (n := 16) fun _ => ?_).of_eq (firstRefusal_or _ _ _ _)
  let x := s.stream (objectAt 16 stream)
  exact State.Concluded.checked (checks := [(!playlistLegal l, .badArg), (x.state = .stopped, .state),
    (x.owner ≠ some port, .notOwner)]) (by simp) fun _ =>
      State.Concluded.playlist (State.loadAccepted_repliesOk _ _ _ _)

theorem stopStream_concludes (stream : Byte) : s.Concludes port Code.stopStream (.stopStream port stream) := by
  refine State.concludes _ takes rfl ?_
  refine State.Concluded.numbered (n := 16) fun _ => ?_
  exact State.Concluded.checked_last (by simp) fun _ => State.answer_repliesOk _ _ _

theorem streamInfo_concludes (stream : Byte) (clear : Bool) :
    s.Concludes port Code.streamInfo (.streamInfo port stream clear) := by
  refine State.concludes _ takes rfl ?_
  refine State.Concluded.numbered (n := 16) fun _ => ?_
  exact State.Concluded.checked_last (by simp) fun _ => State.answer_repliesOk _ _ _

theorem whisper_concludes (position clip : Byte) (gain : Half) :
    s.Concludes port Code.whisper (.whisper port position clip gain) := by
  refine State.concludes _ takes rfl ?_
  refine State.Concluded.numbered (n := 64) fun _ => ?_
  exact State.Concluded.checked (checks := [((s.pos (objectAt 64 position)).state = .closed, .state)]) (by simp) fun _ =>
    State.Concluded.entry (State.answer_repliesOk _ _ _)

theorem cancelWhisper_concludes (position : Byte) :
    s.Concludes port Code.cancelWhisper (.cancelWhisper port position) := by
  refine State.concludes _ takes rfl ?_
  refine State.Concluded.numbered (n := 64) fun _ => ?_
  exact State.Concluded.checked_last (by simp) fun _ => State.answer_repliesOk _ _ _

theorem readEvent_concludes : s.Concludes port Code.readEvent (.readEvent port) := by
  refine State.concludes _ takes rfl ?_
  have present := (s.eventsOf port).pick_isSome
  unfold State.readEvent
  rw [show (s.taken port Code.readEvent).eventsOf port = s.eventsOf port from rfl]
  dsimp only
  cases picked : (s.eventsOf port).pick with
  | none =>
    rw [picked] at present
    exact .first (by rw [← present]; rfl) (by decide)
  | some r =>
    rw [picked] at present
    refine State.Concluded.check (fun bad => ?_) fun _ => .of_pass (State.answer_repliesOk _ _ _)
    rw [← present] at bad
    exact nomatch bad

theorem routeEvent_concludes (kind cls : Byte) : s.Concludes port Code.routeEvent (.routeEvent port kind cls) := by
  refine State.concludes _ takes rfl ?_
  rw [number?_eq]
  by_cases outside : 1 ≤ kind.toNat ∧ kind.toNat ≤ 21
  · unfold kindPlace?
    rw [dif_pos outside]
    by_cases classOutside : 7 < cls.toNat
    · rw [if_pos classOutside]
      exact .first (by simp [classOutside]) (by decide)
    · rw [if_neg classOutside]
      refine State.Concluded.check (fun bad => ?_) fun _ => .of_pass (State.answer_repliesOk _ _ _)
      simp only [Bool.or_eq_true, decide_eq_true_iff] at bad
      omega
  · unfold kindPlace?
    rw [dif_neg outside]
    exact .first (by simp only [Bool.or_eq_true, decide_eq_true_iff]; omega) (by decide)

/-- Every request concludes as its checks say. -/
theorem concludes_of_codeAndPayload {c : Instr} {code : Byte} {payload : List Byte}
    (named : c.codeAndPayload = some (port, code, payload)) : s.Concludes port code c := by
  cases c <;> cases named
  case portStatus => exact State.concludes _ takes rfl (.of_pass (State.answer_repliesOk _ _ _))
  case resetPort => exact State.concludes _ takes rfl (.of_pass (State.answer_repliesOk _ _ _))
  case listTaps => exact State.concludes _ takes rfl (.of_pass (State.answer_repliesOk _ _ _))
  case clipInfo => exact State.concludes _ takes rfl (.of_pass (State.answer_repliesOk _ _ _))
  case clearFault => exact State.concludes _ takes rfl (.of_pass (State.answer_repliesOk _ _ _))
  case memoryStatus => exact State.concludes _ takes rfl (.of_pass (State.answer_repliesOk _ _ _))
  case maskEvents => exact State.concludes _ takes rfl (.of_pass (State.answer_repliesOk _ _ _))
  case openPosition position slot tail profile => exact openPosition_concludes takes position slot tail profile
  case closePosition position => exact closePosition_concludes takes position
  case connect position trunk prompt stream => exact connect_concludes takes position trunk prompt stream
  case hold position stream => exact hold_concludes takes position stream
  case retrieve position => exact retrieve_concludes takes position
  case release position => exact release_concludes takes position
  case setPosition position params => exact setPosition_concludes takes position params
  case setTail position tail => exact setTail_concludes takes position tail
  case offerPositionOffer position choice => exact offerPositionOffer_concludes takes position choice
  case offerPositionWithdraw position => exact offerPositionWithdraw_concludes takes position
  case acceptPosition position => exact acceptPosition_concludes takes position
  case positionInfo position => exact positionInfo_concludes takes position
  case positionStats position clear => exact positionStats_concludes takes position clear
  case writeProfile profile gains threshold nmin => exact writeProfile_concludes takes profile gains threshold nmin
  case addTap listener target kind gain => exact addTap_concludes takes listener target kind gain
  case removeTap tap => exact removeTap_concludes takes tap
  case defineClip clip base length fill key0 key1 => exact defineClip_concludes takes clip base length fill key0 key1
  case setKeys clip key0 key1 => exact setKeys_concludes takes clip key0 key1
  case freeClip clip => exact freeClip_concludes takes clip
  case writePage clip index codes => exact writePage_concludes takes clip index codes
  case readPage clip index => exact readPage_concludes takes clip index
  case readFault => exact readFault_concludes takes
  case startStream stream l => exact startStream_concludes takes stream l
  case loadStream stream l => exact loadStream_concludes takes stream l
  case stopStream stream => exact stopStream_concludes takes stream
  case streamInfo stream clear => exact streamInfo_concludes takes stream clear
  case whisper position clip gain => exact whisper_concludes takes position clip gain
  case cancelWhisper position => exact cancelWhisper_concludes takes position
  case readEvent => exact readEvent_concludes takes
  case routeEvent kind cls => exact routeEvent_concludes takes kind cls

end

/-! ## The statement -/

/-- A fault that is entered is a fault found. -/
theorem State.referenceFault_found {s : State} {port : Port} {kind : RefKind} {clip : Fin 256} {index : Option Nat}
    {x : FaultFound} (h : s.referenceFault port kind clip index = some x) : x.1.found = true := by
  unfold State.referenceFault at h
  split at h
  · next found =>
    cases h
    exact found
  · exact nomatch h

theorem State.playlistFault_found {s : State} {port : Port} {l : PlaylistArg} {x : FaultFound}
    (h : s.playlistFault port l = some x) : x.1.found = true := by
  obtain ⟨i, -, fault⟩ := List.exists_of_findSome?_eq_some h
  exact State.referenceFault_found fault

theorem State.faultOf_found {s : State} {port : Port} {c : Instr} {x : FaultFound} (h : s.faultOf port c = some x) :
    x.1.found = true := by
  unfold State.faultOf at h
  split at h
  · exact State.referenceFault_found h
  · exact State.referenceFault_found h
  · exact State.playlistFault_found h
  · exact State.playlistFault_found h
  · exact State.referenceFault_found h
  · exact State.referenceFault_found h
  · exact nomatch h

theorem State.replied_lastReply {s : State} {port : Port} {code : Byte} {status : Status} {payload : List Byte} {r : Reply}
    (h : ((s.replied port code status payload).port port).lastReply = some r) : r.status = status := by
  have reply : ((s.replied port code status payload).port port).lastReply = some ⟨status, code, payload⟩ := by
    unfold State.replied State.setPort State.port
    dsimp only
    rw [PerPort.cell_put_same]
  rw [reply] at h
  cases h
  rfl

theorem State.verdict_eq (s : State) (port : Port) (c : Instr) : s.verdict port c = firstRefusal (s.checksOf port c) :=
  (firstRefusal_eq _).symm

/-- Settles O4: the outcome follows the first check that fails, command by command. -/
theorem refusedRequestsChangeNothingElse : Obligations.RefusedRequestsChangeNothingElse := by
  refine ⟨fun c s t port code payload r takes named run reply refused => ?_, fun c s port code payload takes named =>
    ⟨fun status verdict plain => ?_, fun verdict => ?_, fun verdict => ?_⟩⟩
  all_goals
    obtain ⟨u, next, concluded⟩ := concludes_of_codeAndPayload takes named
    unfold State.Concluded at concluded
  · obtain rfl : u = t := by rw [next] at run; exact Host.Outcome.next.inj run
    split at concluded
    · exact absurd (concluded r reply) refused
    · next status _ =>
      split at concluded
      · next isFault =>
        obtain ⟨kinds, clip, index, found, same⟩ := concluded
        have status : r.status = .clipFault := State.replied_lastReply (same ▸ reply)
        exact .inr ⟨status, kinds, clip, index, State.faultOf_found found, same⟩
      · have status : r.status = status := State.replied_lastReply (concluded ▸ reply)
        exact .inl (by rw [status]; exact concluded)
  · rw [State.verdict_eq] at verdict
    rw [verdict] at concluded
    dsimp only at concluded
    rw [if_neg plain] at concluded
    rw [next, concluded]
  · rw [State.verdict_eq] at verdict
    rw [verdict] at concluded
    obtain ⟨kinds, clip, index, found, same⟩ := concluded
    exact ⟨kinds, clip, index, found, by rw [next, same]⟩
  · rw [State.verdict_eq] at verdict
    rw [verdict] at concluded
    exact ⟨u, next, concluded⟩

end Sys2Proof.Machine
end


section
/-! PROOFS. The canceller's run over one frame keeps its ranges, and the power and the window maximum stay those of the newest
entries (R62, R66, R69 to R77). -/

namespace Sys2Proof.Machine

/-! ## Energies and magnitudes -/

/-- The sum of squares of a list of samples (R66). -/
def squares (l : List Int) : Nat := (l.map fun x => x.natAbs ^ 2).sum

theorem squares_cons (x : Int) (l : List Int) : squares (x :: l) = x.natAbs ^ 2 + squares l := List.sum_cons ..

theorem squares_append (l m : List Int) : squares (l ++ m) = squares l + squares m := by
  unfold squares
  rw [List.map_append, List.sum_append]

theorem squares_le {bound : Nat} {l : List Int} (h : ∀ x ∈ l, x.natAbs ≤ bound) : squares l ≤ l.length * bound ^ 2 := by
  have each : ∀ y ∈ l.map fun x => x.natAbs ^ 2, y ≤ bound ^ 2 := by
    simp only [List.mem_map]
    rintro y ⟨x, member, rfl⟩
    exact Nat.pow_le_pow_left (h x member) 2
  have sum := List.sum_le_card_nsmul _ _ each
  rwa [List.length_map, smul_eq_mul] at sum

theorem foldl_peak_le {bound : Nat} {l : List Int} (h : ∀ x ∈ l, x.natAbs ≤ bound) {w : Nat} (start : w ≤ bound) :
    l.foldl (fun w x => max w x.natAbs) w ≤ bound := by
  induction l generalizing w with
  | nil => exact start
  | cons x l ih =>
    obtain ⟨here, later⟩ := List.forall_mem_cons.mp h
    exact ih later (Nat.max_le.mpr ⟨start, here⟩)

theorem peak_le {bound : Nat} {l : List Int} (h : ∀ x ∈ l, x.natAbs ≤ bound) : peak l ≤ bound :=
  foldl_peak_le h (Nat.zero_le bound)

/-! ## The invariant of a run -/

/-- What holds of a run with `n` taps before and after each sample. -/
structure EchoRun.Sound (n : Nat) (r : EchoRun) : Prop where
  history_length : r.history.length = 512
  history_range : ∀ x ∈ r.history, x.natAbs ≤ 32256
  taps_length : r.taps.length = n
  taps_range : ∀ h ∈ r.taps, -32768 ≤ h ∧ h ≤ 32767
  power : r.power = squares (r.history.take n)
  window : r.window = peak (r.history.take n)
  hangover : r.hangover ≤ 15

theorem EchoRun.Sound.newest_range {n : Nat} {r : EchoRun} (h : r.Sound n) : ∀ x ∈ r.history.take n, x.natAbs ≤ 32256 :=
  fun x member => h.history_range x (List.mem_of_mem_take member)

theorem EchoRun.Sound.window_le {n : Nat} {r : EchoRun} (h : r.Sound n) : r.window ≤ 32256 := by
  rw [h.window]
  exact peak_le h.newest_range

theorem EchoRun.Sound.power_le {n : Nat} {r : EchoRun} (h : r.Sound n) : r.power ≤ 512 * 32256 ^ 2 := by
  have most : (r.history.take n).length ≤ 512 := (List.length_take_le' n _).trans h.history_length.le
  rw [h.power]
  exact (squares_le h.newest_range).trans (Nat.mul_le_mul_right _ most)

/-- The sum follows the sample that enters and the one that leaves (R69). -/
theorem squares_enter (x : Int) {history : List Int} {n : Nat} (short : n < history.length) :
    squares ((x :: history).take (n + 1))
      = squares (history.take (n + 1)) + x.natAbs * x.natAbs - (history.getD n 0).natAbs * (history.getD n 0).natAbs := by
  have last : history.take (n + 1) = history.take n ++ [history.getD n 0] := by
    rw [List.take_add_one, List.getElem?_eq_getElem short, List.getD_eq_getElem _ _ short]
    rfl
  rw [List.take_succ_cons, squares_cons, last, squares_append, squares_cons, Nat.pow_two, Nat.pow_two]
  show _ = _ + (_ + 0) + _ - _
  omega

theorem EchoRun.enter_sound {n : Nat} (small : n ≤ 512) {r : EchoRun} (h : r.Sound n) {x : Int}
    (range : x.natAbs ≤ 32256) : (r.enter x).Sound n where
  history_length := by
    show ((x :: r.history).take 512).length = 512
    rw [List.length_take, List.length_cons, h.history_length]
    rfl
  history_range := fun y member => by
    rcases List.mem_cons.mp (List.mem_of_mem_take member) with rfl | member
    · exact range
    · exact h.history_range y member
  taps_length := h.taps_length
  taps_range := h.taps_range
  power := by
    show r.power + x.natAbs * x.natAbs - (if r.taps.length = 0 then x else r.history.getD (r.taps.length - 1) 0).natAbs
        * (if r.taps.length = 0 then x else r.history.getD (r.taps.length - 1) 0).natAbs
      = squares (((x :: r.history).take 512).take n)
    rw [List.take_take, Nat.min_eq_left small, h.taps_length, h.power]
    cases n with
    | zero =>
      rw [if_pos rfl]
      exact Nat.add_sub_cancel_right ..
    | succ k =>
      rw [if_neg (Nat.succ_ne_zero k), squares_enter x (by rw [h.history_length]; omega)]
      rfl
  window := by
    show peak (((x :: r.history).take 512).take r.taps.length) = _
    rw [h.taps_length]
    rfl
  hangover := h.hangover

theorem EchoRun.doubleTalk_sound {n : Nat} {r : EchoRun} (h : r.Sound n) (mode : EcMode) {hang : Nat} (small : hang ≤ 15)
    (d : Int) : (r.doubleTalk mode hang d).Sound n := by
  have raised : ({ r with hangover := hang } : EchoRun).Sound n := { h with hangover := small }
  unfold EchoRun.doubleTalk
  cases mode with
  | bypass => exact h
  | adapt => dsimp only; split; exacts [raised, h]
  | frozen => dsimp only; split; exacts [raised, h]

theorem EchoRun.adapt_sound {n : Nat} (small : n ≤ 512) {r : EchoRun} (h : r.Sound n) (allowed : Bool) (reg step : Nat)
    (e : Int) : (r.adapt allowed reg step e).Sound n := by
  unfold EchoRun.adapt
  split
  · refine { h with taps_length := ?_, taps_range := fun y member => ?_ }
    · show (List.zipWith _ r.taps r.history).length = n
      rw [List.length_zipWith, h.taps_length, h.history_length]
      exact Nat.min_eq_left small
    · obtain ⟨i, inside, rfl⟩ := List.mem_iff_getElem.mp member
      rw [List.getElem_zipWith]
      exact saturate_range _
  · exact h

theorem EchoRun.sample_sound {n : Nat} (small : n ≤ 512) {rec : Position} (hang : rec.hang ≤ 15) (allowed : Bool)
    {r : EchoRun} (h : r.Sound n) {dx : Int × Int} (range : dx.2.natAbs ≤ 32256) :
    (EchoRun.sample rec allowed r dx).Sound n := by
  have entered := EchoRun.enter_sound small h range
  have adapted := EchoRun.adapt_sound small (EchoRun.doubleTalk_sound entered rec.mode hang dx.1) allowed rec.reg rec.step
    (saturate (dx.1 - (r.enter dx.2).estimate rec.mode))
  exact { adapted with }

theorem EchoRun.samples_sound {n : Nat} (small : n ≤ 512) {rec : Position} (hang : rec.hang ≤ 15) (allowed : Bool)
    {l : List (Int × Int)} (range : ∀ dx ∈ l, dx.2.natAbs ≤ 32256) {r : EchoRun} (h : r.Sound n) :
    (l.foldl (EchoRun.sample rec allowed) r).Sound n := by
  induction l generalizing r with
  | nil => exact h
  | cons dx l ih =>
    obtain ⟨here, later⟩ := List.forall_mem_cons.mp range
    exact ih later (EchoRun.sample_sound small hang allowed h here)

/-! ## Tables as lists -/

theorem Table.mem_toList {n : Nat} {α : Type} {t : Table n α} {x : α} : x ∈ t.toList ↔ ∃ i, t.cell i = x := by
  rw [Vector.mem_toList_iff, Vector.mem_iff_getElem]
  exact ⟨fun ⟨i, inside, same⟩ => ⟨⟨i, inside⟩, same⟩, fun ⟨i, same⟩ => ⟨i.val, i.isLt, same⟩⟩

/-- A table made of a list holds its members and, beyond them, the filler. -/
theorem Table.cell_ofList_mem {n : Nat} {α : Type} (d : α) (l : List α) (i : Fin n) :
    (Table.ofList n d l).cell i = d ∨ (Table.ofList n d l).cell i ∈ l := by
  rw [Table.cell_ofList]
  by_cases inside : i.val < l.length
  · rw [List.getD_eq_getElem _ _ inside]
    exact .inr (List.getElem_mem inside)
  · rw [List.getD_eq_default _ _ (Nat.not_lt.mp inside)]
    exact .inl rfl

theorem Table.toList_ofList {n : Nat} {α : Type} (d : α) {l : List α} (full : l.length = n) :
    (Table.ofList n d l).toList = l := by
  refine List.ext_getElem (by rw [Vector.length_toList, full]) fun i h k => ?_
  have cell := Table.cell_ofList (n := n) d l ⟨i, by omega⟩
  rw [List.getD_eq_getElem _ _ k] at cell
  rw [Vector.getElem_toList]
  exact cell

/-! ## The transmitted frame (R67) -/

theorem expand_natAbs (l : Law) (c : Byte) : (expand l c).natAbs ≤ 32256 := by
  cases l with
  | mu =>
    have range := muExpand_range c
    show (muExpand c).natAbs ≤ 32256
    omega
  | a =>
    have range := aExpand_range c
    show (aExpand c).natAbs ≤ 32256
    omega

theorem State.echoInput_sent (s : State) (p : Fin 64) (x : Int) (member : x ∈ (s.echoInput p).2.toList) :
    x.natAbs ≤ 32256 := by
  have zero : x ∈ Frame.zero.toList → x.natAbs ≤ 32256 := fun member => by
    obtain ⟨i, rfl⟩ := Table.mem_toList.mp member
    rw [show Frame.zero.cell i = 0 from Table.cell_fill 0 i]
    decide
  unfold State.echoInput State.lineFrames at member
  split at member
  · next line _ =>
    split at member
    · obtain ⟨i, rfl⟩ := Table.mem_toList.mp member
      show ((Table.ofList 32 0 (line.sent.map (expand s.law))).cell i).natAbs ≤ 32256
      rcases Table.cell_ofList_mem 0 (line.sent.map (expand s.law)) i with filler | sent
      · rw [filler]
        decide
      · obtain ⟨c, -, same⟩ := List.mem_map.mp sent
        rw [← same]
        exact expand_natAbs s.law c
    · exact zero member
  · exact zero member

/-! ## The canceller at a frame completion (R62, R66, R75, R76) -/

/-- The canceller's part of what stays within its ranges (R62, R66). -/
def State.echoLegal (s : State) : Prop :=
  (∀ p, (s.canceller p).legal)
    ∧ ∀ g i, -32768 ≤ (s.echo.coefficients.cell g).cell i ∧ (s.echo.coefficients.cell g).cell i ≤ 32767

/-- A position in a call holds at most four segments, and its double-talk hangover is in range. -/
def State.echoRoom (s : State) (p : Fin 64) : Prop :=
  (s.segments p).length ≤ 4 ∧ (s.pos p).hang ≤ 15

theorem State.taps_length (s : State) (p : Fin 64) : (s.taps p).length = 128 * (s.segments p).length := by
  unfold State.taps
  induction s.segments p with
  | nil => rfl
  | cons g gs ih =>
    rw [List.flatMap_cons, List.length_append, ih, Vector.length_toList, List.length_cons]
    omega

theorem State.taps_range {s : State} (h : s.echoLegal) (p : Fin 64) : ∀ x ∈ s.taps p, -32768 ≤ x ∧ x ≤ 32767 := by
  intro x member
  obtain ⟨g, -, held⟩ := List.mem_flatMap.mp member
  obtain ⟨i, rfl⟩ := Table.mem_toList.mp held
  exact h.2 g i

/-- The run of a position in a call, over its frame. -/
theorem State.echoSamples_sound {s : State} (legal : s.echoLegal) (sound : s.powerSound) {p : Fin 64}
    (called : (s.pos p).state.inCall = true) (room : s.echoRoom p) :
    (s.echoSamples p).Sound (128 * (s.segments p).length) := by
  obtain ⟨segments, hang⟩ := room
  obtain ⟨history, -, -, hangover, -⟩ := legal.1 p
  obtain ⟨power, window⟩ := sound p called
  refine EchoRun.samples_sound (by omega) hang _ (fun dx member => ?_) ⟨Vector.length_toList, fun x member => ?_,
    s.taps_length p, s.taps_range legal p, power, window, ?_⟩
  · exact s.echoInput_sent p _ (List.of_mem_zip member).2
  · obtain ⟨i, rfl⟩ := Table.mem_toList.mp member
    exact history i
  · dsimp only
    split
    · exact Nat.zero_le 15
    · exact hangover

theorem divergenceAfter_le (guarded : Bool) (ed ee : Nat) {counter : Nat} (h : counter ≤ 3) :
    divergenceAfter guarded ed ee counter ≤ 4 := by
  unfold divergenceAfter
  split
  · omega
  · exact Nat.zero_le 4

theorem Canceller.afterFrame_legal {c : Canceller} {f : EchoFrame} {n : Nat} (run : f.run.Sound n)
    (divergence : f.divergence ≤ 4) : (c.afterFrame f).legal := by
  refine ⟨fun i => ?_, run.power_le, run.window_le, ?_, ?_⟩
  · show ((Table.ofList 512 0 f.run.history).cell i).natAbs ≤ 32256
    rcases Table.cell_ofList_mem 0 f.run.history i with filler | kept
    · rw [filler]
      decide
    · exact run.history_range _ kept
  · exact (Nat.sub_le _ 1).trans run.hangover
  · show (if f.diverged then 0 else f.divergence) ≤ 3
    unfold EchoFrame.diverged
    split
    · exact Nat.zero_le 3
    · next other =>
      rw [decide_eq_true_iff] at other
      omega

theorem EchoFrame.tapsAfter_range {f : EchoFrame} {n : Nat} (run : f.run.Sound n) :
    ∀ x ∈ f.tapsAfter, -32768 ≤ x ∧ x ≤ 32767 := by
  unfold EchoFrame.tapsAfter
  split
  · intro x member
    obtain ⟨-, -, rfl⟩ := List.mem_map.mp member
    exact ⟨by decide, by decide⟩
  · exact run.taps_range

theorem writeTaps_range {gs : List (Fin 128)} {taps : List Int} {m : Table 128 (Table 128 Int)}
    (list : ∀ x ∈ taps, -32768 ≤ x ∧ x ≤ 32767)
    (table : ∀ g i, -32768 ≤ (m.cell g).cell i ∧ (m.cell g).cell i ≤ 32767) (g i : Fin 128) :
    -32768 ≤ ((writeTaps gs taps m).cell g).cell i ∧ ((writeTaps gs taps m).cell g).cell i ≤ 32767 := by
  induction gs generalizing taps m with
  | nil => exact table g i
  | cons a gs ih =>
    refine ih (fun x member => list x (List.mem_of_mem_drop member)) fun b j => ?_
    rw [Table.cell_put]
    split
    · rcases Table.cell_ofList_mem 0 (taps.take 128) j with filler | kept
      · rw [filler]
        exact ⟨by decide, by decide⟩
      · exact list _ (List.mem_of_mem_take kept)
    · exact table b j

/-! ### One position -/

theorem State.afterEcho_echo (s : State) (p : Fin 64) (f : EchoFrame) : (s.afterEcho p f).echo = { s.echo with
    coefficients := writeTaps (s.segments p) f.tapsAfter s.echo.coefficients
    positions := s.echo.positions.put p ((s.canceller p).afterFrame f) } := by
  unfold State.afterEcho
  dsimp only
  split
  · exact State.fileOwner_touches _ _ _ _ _ .echo (by decide)
  · rfl

theorem State.afterEcho_canceller (s : State) (p q : Fin 64) (f : EchoFrame) :
    (s.afterEcho p f).canceller q = if p = q then (s.canceller p).afterFrame f else s.canceller q := by
  unfold State.canceller
  rw [State.afterEcho_echo, Table.cell_put]
  rfl

theorem Canceller.afterFrame_segments (c : Canceller) (f : EchoFrame) : (c.afterFrame f).segments = c.segments := by
  simp only [Canceller.afterFrame]

theorem State.afterEcho_segments (s : State) (p q : Fin 64) (f : EchoFrame) :
    (s.afterEcho p f).segments q = s.segments q := by
  unfold State.segments
  rw [State.afterEcho_canceller]
  split
  · next here => rw [Canceller.afterFrame_segments, here]
  · rfl

/-- Along the completion of a frame: the ranges, and the power of every position in a call (R66). -/
def State.echoSound (s : State) : Prop := s.echoLegal ∧ s.powerSound

theorem State.powerSound_at {s : State} {p : Fin 64} {run : EchoRun} (sound : run.Sound (128 * (s.segments p).length))
    (history : (s.canceller p).history = Table.ofList 512 0 run.history) (power : (s.canceller p).power = run.power)
    (window : (s.canceller p).window = run.window) :
    (s.canceller p).power = squares (s.newest p) ∧ (s.canceller p).window = peak (s.newest p) := by
  unfold State.newest
  rw [history, power, window, Table.toList_ofList 0 sound.history_length]
  exact ⟨sound.power, sound.window⟩

theorem State.echo1_sound {s : State} (sound : s.echoSound) {p : Fin 64} (room : s.echoRoom p) :
    (s.echo1 p).2.echoSound := by
  obtain ⟨legal, power⟩ := sound
  have stats := s.echo1_statsOnly p
  unfold State.echo1 at stats ⊢
  split at stats
  · next called =>
    rw [if_pos called]
    have run := State.echoSamples_sound legal power called room
    have divergence : (s.echoFrame p).divergence ≤ 4 := divergenceAfter_le _ _ _ (legal.1 p).2.2.2.2
    refine ⟨⟨fun q => ?_, fun g i => ?_⟩, fun q calledAfter => ?_⟩
    · show ((s.afterEcho p (s.echoFrame p)).canceller q).legal
      rw [State.afterEcho_canceller]
      split
      · exact Canceller.afterFrame_legal run divergence
      · exact legal.1 q
    · show -32768 ≤ ((s.afterEcho p (s.echoFrame p)).echo.coefficients.cell g).cell i ∧ _
      rw [State.afterEcho_echo]
      exact writeTaps_range (EchoFrame.tapsAfter_range run) legal.2 g i
    · have calledBefore : (s.pos q).state.inCall = true := by
        obtain ⟨x, same⟩ := stats q
        rw [same] at calledAfter
        exact calledAfter
      have canceller := s.afterEcho_canceller p q (s.echoFrame p)
      by_cases same : p = q
      · subst same
        rw [if_pos rfl] at canceller
        rw [← s.afterEcho_segments p p (s.echoFrame p)] at run
        exact State.powerSound_at run (by rw [canceller]; rfl) (by rw [canceller]; rfl) (by rw [canceller]; rfl)
      · rw [if_neg same] at canceller
        have before := power q calledBefore
        unfold State.newest State.segments at before ⊢
        dsimp only
        rw [canceller]
        exact before
  · next idle =>
    rw [if_neg idle]
    exact ⟨legal, power⟩

theorem State.echo1_room (s : State) (p q : Fin 64) (room : s.echoRoom q) : (s.echo1 p).2.echoRoom q := by
  obtain ⟨segments, hang⟩ := room
  obtain ⟨x, same⟩ := s.echo1_statsOnly p q
  refine ⟨?_, by rw [same]; exact hang⟩
  unfold State.echo1
  split
  · exact (congrArg List.length (s.afterEcho_segments p q (s.echoFrame p))).trans_le segments
  · exact segments

theorem State.echoFrames_sound {s : State} (sound : s.echoSound) (room : ∀ p, s.echoRoom p) : s.echoFrames.2.echoSound := by
  unfold State.echoFrames
  generalize Table.fill 64 Frame.zero = frames
  generalize List.finRange 64 = l
  induction l generalizing s frames with
  | nil => exact sound
  | cons p l ih => exact ih (State.echo1_sound sound (room p)) (fun q => s.echo1_room p q (room q)) _

end Sys2Proof.Machine
end


section
/-! PROOFS. Every step keeps what the suppressor, the canceller and the mixer keep within their ranges, and the canceller's
power exact (R46, R57, R62, R66, R93). -/

namespace Sys2Proof.Machine

/-! ## The suppressor (R46, R57) -/

/-- The suppressor's part of what stays within its ranges. -/
def State.suppressorsLegal (s : State) : Prop := (∀ n, (s.profile n).legal) ∧ ∀ p, (s.suppressor p).legal

theorem State.suppressorsLegal_of_eq {s t : State} (h : s.suppressorsLegal) (same : t.suppress = s.suppress) :
    t.suppressorsLegal := by
  unfold State.suppressorsLegal State.profile State.suppressor at h ⊢
  rwa [same]

theorem State.suppressorsLegal_put {s t : State} (h : s.suppressorsLegal) {p : Fin 64} {x : Suppressor}
    (suppress : t.suppress = { s.suppress with positions := s.suppress.positions.put p x }) (legal : x.legal) :
    t.suppressorsLegal := by
  obtain ⟨profiles, suppressors⟩ := h
  unfold State.suppressorsLegal State.profile State.suppressor
  rw [suppress]
  refine ⟨profiles, fun q => ?_⟩
  dsimp only
  rw [Table.cell_put]
  split
  · exact legal
  · exact suppressors q

theorem Suppressor.fresh_legal {x : Profile} (h : x.legal) : (Suppressor.fresh x).legal := by
  obtain ⟨gains, -, -, least, most⟩ := h
  exact ⟨least, most.trans (by decide), Nat.zero_le _, gains 0⟩

theorem Suppressor.atLeast_legal {x : Suppressor} (h : x.legal) {nmin : Nat} (small : nmin ≤ 2 ^ 30) :
    (x.atLeast nmin).legal := by
  obtain ⟨least, most, rest⟩ := h
  exact ⟨least.trans (Nat.le_max_left _ _), Nat.max_le.mpr ⟨most, small.trans (by decide)⟩, rest⟩

theorem frameEnergy_le {m : Frame} (h : ∀ i, -32768 ≤ m.cell i ∧ m.cell i ≤ 32767) : frameEnergy m ≤ 2 ^ 35 := by
  have each : ∀ y ∈ m.toList.map fun x => x.natAbs * x.natAbs, y ≤ 2 ^ 30 := by
    simp only [List.mem_map]
    rintro y ⟨x, member, rfl⟩
    obtain ⟨i, rfl⟩ := Table.mem_toList.mp member
    have range := h i
    calc (m.cell i).natAbs * (m.cell i).natAbs ≤ 32768 * 32768 := Nat.mul_le_mul (by omega) (by omega)
      _ = 2 ^ 30 := by decide
  have sum := List.sum_le_card_nsmul _ _ each
  rwa [List.length_map, Vector.length_toList, smul_eq_mul] at sum

theorem Suppressor.begun_legal {x : Suppressor} (h : x.legal) {profile : Profile} (k : profile.legal) {energy : Nat}
    (small : energy ≤ 2 ^ 35) : (x.begun profile energy).legal := by
  obtain ⟨gains, -, -, least, most⟩ := k
  unfold Suppressor.begun
  split
  · exact ⟨least.trans (Nat.le_max_right _ _), Nat.max_le.mpr ⟨small, most.trans (by decide)⟩, Nat.zero_le _, gains 0⟩
  · exact h

theorem Suppressor.stages_legal {x : Suppressor} (h : x.legal) {profile : Profile} (k : profile.legal) {energy : Nat}
    (small : energy ≤ 2 ^ 35) (m : Frame) : (x.stages profile energy m).legal := by
  obtain ⟨-, -, index, -⟩ := h
  obtain ⟨gains, -, -, least, most⟩ := k
  refine ⟨?_, ?_, ?_, ?_⟩
  · show 1 ≤ nextFloor _ _ _
    exact least.trans (Nat.le_max_left _ _)
  · show nextFloor _ _ _ ≤ 2 ^ 35
    unfold nextFloor
    omega
  · show nextIndex (speechClass energy x.floor) x.index ≤ 15
    unfold nextIndex speechClass
    split
    · omega
    · omega
  · show profile.gains.nth _ 0 ≤ 32768
    unfold Table.nth
    split
    · exact gains _
    · exact Nat.zero_le _

theorem Suppressor.silent_legal {x : Suppressor} (h : x.legal) : x.silent.legal := h

theorem State.microphone_range {s : State} {p : Fin 64} {m : Frame} (h : s.microphone p = some m) (i : Fin 32) :
    -32768 ≤ m.cell i ∧ m.cell i ≤ 32767 := by
  unfold State.microphone at h
  split at h
  · exact heard_range h i
  · exact nomatch h

theorem State.suppressed_legal {s : State} (h : s.suppressorsLegal) (p : Fin 64) : (s.suppressed p).legal := by
  obtain ⟨profiles, suppressors⟩ := h
  unfold State.suppressed
  split
  · next m handed =>
    have small := frameEnergy_le (State.microphone_range handed)
    have run : ((s.suppressor p).run (s.profile (s.pos p).profile) m).legal :=
      Suppressor.stages_legal (Suppressor.begun_legal (suppressors p) (profiles _) small) (profiles _) small m
    split
    · dsimp only
      split
      · exact Suppressor.silent_legal run
      · exact run
    · exact Suppressor.silent_legal (suppressors p)
  · exact Suppressor.silent_legal (suppressors p)

theorem State.completeFrame_suppressorsLegal {s : State} (h : s.suppressorsLegal) : s.completeFrame.suppressorsLegal := by
  refine ⟨fun n => ?_, fun p => ?_⟩
  · unfold State.profile
    rw [s.completeFrame_profiles]
    exact h.1 n
  · rw [s.completeFrame_suppressor]
    unfold State.suppress1
    split
    · exact h.2 p
    all_goals exact State.suppressed_legal h p

theorem storedProfile_legal (gains : Table 16 Half) (threshold : Byte) (nmin : Wide) :
    (storedProfile gains threshold nmin).legal := by
  have least := clampTo_range (low := 1) (high := 15) (by decide) threshold.toNat
  have noise := clampTo_range (low := 1) (high := 1073741824) (by decide) nmin.toNat
  refine ⟨fun i => ?_, least.1, least.2, noise.1, noise.2⟩
  show (Table.build _).cell i ≤ 32768
  rw [Table.cell_build]
  exact clampGain_le _

theorem State.replaceProfile_suppressorsLegal {s : State} (h : s.suppressorsLegal) (n : Fin 4) {x : Profile} (k : x.legal) :
    (s.replaceProfile n x).suppressorsLegal := by
  obtain ⟨profiles, suppressors⟩ := h
  refine ⟨fun m => ?_, fun p => ?_⟩
  · show ((s.suppress.profiles.put n x).cell m).legal
    rw [Table.cell_put]
    split
    · exact k
    · exact profiles m
  · show ((Table.build fun q => if (s.pos q).profile = n then (s.suppressor q).atLeast x.nmin else s.suppressor q).cell p).legal
    rw [Table.cell_build]
    split
    · exact Suppressor.atLeast_legal (suppressors p) k.2.2.2.2
    · exact suppressors p

theorem State.setFirstFrames_suppressorsLegal {s : State} (h : s.suppressorsLegal) : s.setFirstFrames.suppressorsLegal := by
  refine ⟨h.1, fun p => ?_⟩
  rw [State.setFirstFrames_suppressor]
  split
  · exact h.2 p
  · exact h.2 p

theorem State.pulsed_suppressorsLegal {s : State} (h : s.suppressorsLegal) (bit : Nat) : (s.pulsed bit).suppressorsLegal := by
  unfold State.pulsed
  split
  · split
    · exact h
    · exact State.suppressorsLegal_of_eq h (s.loseSync_touches _ _ .suppress (by decide))
  · split
    · have relocked := State.suppressorsLegal_of_eq h (s.relocked_touches bit .suppress (by decide))
      exact State.suppressorsLegal_of_eq (State.setFirstFrames_suppressorsLegal relocked)
        (State.fileBoth_touches _ _ _ _ .suppress (by decide))
    · exact h

/-! ## The mixer (R93) -/

/-- The mixer's part of what stays within its ranges. -/
def State.ducksLegal (s : State) : Prop := ∀ p, s.coachDuck p ≤ 8

theorem State.ducksLegal_of_eq {s t : State} (h : s.ducksLegal) (same : t.mixer.coachDuck = s.mixer.coachDuck) :
    t.ducksLegal := by
  unfold State.ducksLegal State.coachDuck at h ⊢
  rwa [same]

theorem State.ducksLegal_put {s t : State} (h : s.ducksLegal) {p : Fin 64}
    (zeroed : t.mixer.coachDuck = s.mixer.coachDuck.put p 0) : t.ducksLegal := fun q => by
  unfold State.coachDuck
  rw [zeroed, Table.cell_put]
  split
  · exact Nat.zero_le 8
  · exact h q

theorem State.completeFrame_ducksLegal {s : State} (h : s.ducksLegal) : s.completeFrame.ducksLegal := fun p => by
  rw [s.completeFrame_coachDuck]
  unfold State.coachDuckAfter
  split
  · exact h p
  · split
    · exact Nat.le_refl 8
    · exact (Nat.sub_le _ 1).trans (h p)

/-! ## The canceller (R62, R66) -/

/-- The power and the window maximum of a canceller are those of its newest entries (R66). -/
def Canceller.exact (c : Canceller) : Prop :=
  c.power = squares (c.history.toList.take (128 * c.segments.length))
    ∧ c.window = peak (c.history.toList.take (128 * c.segments.length))

theorem State.powerSound_iff {s : State} : s.powerSound ↔ ∀ p, (s.pos p).state.inCall = true → (s.canceller p).exact := Iff.rfl

theorem Canceller.zeroed_exact (segments : List (Fin 128)) : (Canceller.zeroed segments).exact := by
  have zero : ∀ x ∈ (Table.fill 512 (0 : Int)).toList.take (128 * segments.length), x.natAbs ≤ 0 := fun x member => by
    obtain ⟨i, rfl⟩ := Table.mem_toList.mp (List.mem_of_mem_take member)
    rw [Table.cell_fill]
    exact Nat.le_refl 0
  have sum := squares_le zero
  rw [Nat.zero_pow (by decide), Nat.mul_zero] at sum
  exact ⟨(Nat.le_zero.mp sum).symm, (Nat.le_zero.mp (peak_le zero)).symm⟩

theorem State.echoSound_of_eq {s t : State} (h : s.echoSound) (same : t.echo = s.echo)
    (calls : ∀ p, (t.pos p).state.inCall = true → (s.pos p).state.inCall = true) : t.echoSound := by
  have cancellers : t.canceller = s.canceller := by unfold State.canceller; rw [same]
  refine ⟨?_, fun p called => ?_⟩
  · unfold State.echoLegal
    rw [same, cancellers]
    exact h.1
  · have before := State.powerSound_iff.mp h.2 p (calls p called)
    rw [← cancellers] at before
    exact before

/-- One position's canceller replaced, and perhaps some segments' taps cleared. -/
theorem State.echoSound_put {s t : State} (h : s.echoSound) {p : Fin 64} {c : Canceller}
    (positions : t.echo.positions = s.echo.positions.put p c) (legal : c.legal)
    (coefficients : ∀ g, t.echo.coefficients.cell g = s.echo.coefficients.cell g ∨ t.echo.coefficients.cell g = Table.fill 128 0)
    (here : (t.pos p).state.inCall = true → c.exact)
    (calls : ∀ q, q ≠ p → (t.pos q).state.inCall = true → (s.pos q).state.inCall = true) : t.echoSound := by
  obtain ⟨⟨cancellers, taps⟩, power⟩ := h
  have canceller : ∀ q, t.canceller q = if p = q then c else s.canceller q := fun q => by
    unfold State.canceller
    rw [positions, Table.cell_put]
  refine ⟨⟨fun q => ?_, fun g i => ?_⟩, State.powerSound_iff.mpr fun q called => ?_⟩
  · rw [canceller]
    split
    · exact legal
    · exact cancellers q
  · rcases coefficients g with kept | cleared
    · rw [kept]
      exact taps g i
    · rw [cleared, Table.cell_fill]
      exact ⟨by decide, by decide⟩
  · rw [canceller]
    split
    · next same =>
      rw [← same] at called
      exact here called
    · next other => exact State.powerSound_iff.mp power q (calls q (Ne.symm other) called)

theorem State.preMix_echo (s : State) : s.preMix.echo = s.stamped.echoFrames.2.echo := by
  unfold State.preMix
  rw [State.whisperFrames_touches _ .echo (by decide), State.soundHeads_touches _ .echo (by decide),
    State.streamFrames_touches _ .echo (by decide), State.suppressFrames_touches _ .echo (by decide)]

theorem State.mixed_echo (s : State) (m : MixInputs) :
    (s.updateCoachDuck.mix m).beginFrame.pastFirstFrame.completeHeads.echo = s.echo :=
  State.completeHeads_touches _ .echo (by decide)

theorem State.completeFrame_echo (s : State) : s.completeFrame.echo = s.stamped.echoFrames.2.echo :=
  (State.mixed_echo s.preMix _).trans s.preMix_echo

theorem State.completeFrame_echoSound {s : State} (h : s.echoSound) (room : ∀ p, s.echoRoom p) : s.completeFrame.echoSound := by
  have sound := State.echoFrames_sound (s := s.stamped) h room
  refine State.echoSound_of_eq sound s.completeFrame_echo fun p called => ?_
  rw [s.completeFrame_slotsKept.inCall] at called
  obtain ⟨x, same⟩ := s.stamped.echoFrames_statsOnly p
  rw [same]
  exact called

/-! ## All three blocks -/

/-- What ParametersStayLegal says of the blocks. -/
def State.blocksSound (s : State) : Prop := s.suppressorsLegal ∧ s.ducksLegal ∧ s.echoSound

theorem State.blocksSound_iff {s : State} : s.blocksSound ↔ s.blocksLegal ∧ s.powerSound := by
  constructor
  · rintro ⟨⟨profiles, suppressors⟩, ducks, ⟨cancellers, taps⟩, power⟩
    exact ⟨⟨profiles, fun p => ⟨suppressors p, cancellers p, ducks p⟩, taps⟩, power⟩
  · rintro ⟨⟨profiles, positions, taps⟩, power⟩
    exact ⟨⟨profiles, fun p => (positions p).1⟩, fun p => (positions p).2.2, ⟨fun p => (positions p).2.1, taps⟩, power⟩

theorem State.blocksSound_of_touches {parts : List Part} {s t : State} (h : s.blocksSound) (touched : Touches parts s t)
    (suppress : .suppress ∉ parts) (mixer : .mixer ∉ parts) (echo : .echo ∉ parts)
    (calls : ∀ p, (t.pos p).state.inCall = true → (s.pos p).state.inCall = true) : t.blocksSound :=
  ⟨State.suppressorsLegal_of_eq h.1 (touched .suppress suppress),
    State.ducksLegal_of_eq h.2.1 (congrArg Mixer.coachDuck (touched .mixer mixer)),
    State.echoSound_of_eq h.2.2 (touched .echo echo) calls⟩

/-- Positions that are not touched stay in the calls they are in. -/
theorem calls_of_touches {parts : List Part} {s t : State} (touched : Touches parts s t) (positions : .positions ∉ parts) :
    ∀ p, (t.pos p).state.inCall = true → (s.pos p).state.inCall = true := fun p called => by
  rwa [(SlotsKept.of_touches touched positions).inCall] at called

theorem calls_of_kept {s t : State} (kept : SlotsKept s t) :
    ∀ p, (t.pos p).state.inCall = true → (s.pos p).state.inCall = true := fun p called => by
  rwa [kept.inCall] at called

theorem State.settle_blocksSound {s : State} (h : s.blocksSound) (room : ∀ p, s.echoRoom p) : s.settle.blocksSound := by
  have touched := s.settleDebounce_touches
  have debounced : s.settleDebounce.blocksSound := State.blocksSound_of_touches h touched (by decide) (by decide) (by decide)
    (calls_of_touches touched (by decide))
  have roomy : ∀ p, s.settleDebounce.echoRoom p := fun p => by
    unfold State.echoRoom State.segments State.canceller State.pos
    rw [touched .echo (by decide), touched .positions (by decide)]
    exact room p
  unfold State.settle State.settleFrame
  split
  · exact ⟨State.completeFrame_suppressorsLegal debounced.1, State.completeFrame_ducksLegal debounced.2.1,
      State.completeFrame_echoSound debounced.2.2 roomy⟩
  · exact debounced

theorem State.pulsed_blocksSound {s : State} (h : s.blocksSound) (bit : Nat) : (s.pulsed bit).blocksSound := by
  have touched := s.pulsed_touches bit
  exact ⟨State.pulsed_suppressorsLegal h.1 bit, State.ducksLegal_of_eq h.2.1 (congrArg Mixer.coachDuck (touched .mixer (by decide))),
    State.echoSound_of_eq h.2.2 (touched .echo (by decide)) (calls_of_touches touched (by decide))⟩

theorem reset_blocksSound : State.reset.blocksSound := State.blocksSound_iff.mpr ⟨reset_blocksLegal, reset_powerSound⟩

end Sys2Proof.Machine
end


section
/-! PROOFS. Every command keeps what the blocks keep within their ranges (R46, R57, R62, R66, R93), and with it the
parameters and the floors (R21, R59). -/

namespace Sys2Proof.Machine

/-! ## Position requests -/

theorem State.setFirstFrame_legal {s t : State} (h : s.suppressorsLegal) {p : Fin 64}
    (suppress : t.suppress = { s.suppress with positions := s.suppress.positions.put p { s.suppressor p with firstFrame := true } }) :
    t.suppressorsLegal := State.suppressorsLegal_put h suppress (h.2 p)

/-- The segments OPEN POSITION and CONNECT clear, seen in the coefficient memory. -/
theorem zeroTaps_cell (gs : List (Fin 128)) (m : Table 128 (Table 128 Int)) (g : Fin 128) :
    (zeroTaps gs m).cell g = m.cell g ∨ (zeroTaps gs m).cell g = Table.fill 128 0 := by
  rw [zeroTaps_eq, Table.cell_build]
  split
  · exact .inr rfl
  · exact .inl rfl

theorem State.openEffect_blocksSound {s : State} (h : s.blocksSound) (port : Port) (p slot : Fin 64) (tail : Nat)
    (profile : Fin 4) : (s.openEffect port p slot tail profile).blocksSound := by
  obtain ⟨suppressors, ducks, echo⟩ := h
  have record : ∀ q, (s.openEffect port p slot tail profile).pos q
      = if p = q then Position.opened port slot tail profile else s.pos q := fun q => Table.cell_put _ _ _ _
  refine ⟨State.suppressorsLegal_put suppressors rfl (Suppressor.fresh_legal (suppressors.1 profile)),
    State.ducksLegal_put ducks rfl, State.echoSound_put echo rfl (zeroed_legal _) (zeroTaps_cell _ _) (fun _ =>
      Canceller.zeroed_exact _) fun q other called => ?_⟩
  rwa [record, if_neg (Ne.symm other)] at called

theorem State.openAccepted_blocksSound {s : State} (h : s.blocksSound) (port : Port) (p slot : Fin 64) (tail : Nat)
    (profile : Fin 4) : (s.openAccepted port p slot tail profile).blocksSound := by
  rw [State.openAccepted_eq]
  exact State.blocksSound_of_touches (State.openEffect_blocksSound h port p slot tail profile) (State.answer_touches _ port _ _)
    (by decide) (by decide) (by decide) fun _ called => called

theorem State.closing_blocksSound {s : State} (h : s.blocksSound) {cause : FlushCause} (other : cause ≠ .cancel)
    (p : Fin 64) : (s.closing p cause).blocksSound := by
  obtain ⟨suppressors, ducks, echo⟩ := h
  have closed := s.closing_echo other p
  refine ⟨State.suppressorsLegal_put suppressors (s.closing_suppress other p) (Suppressor.fresh_legal (suppressors.1 2)),
    State.ducksLegal_put ducks (s.closing_coachDuck other p), State.echoSound_put echo (by rw [closed]) (zeroed_legal [])
      (fun g => .inl (by rw [closed])) (fun _ => Canceller.zeroed_exact []) fun q away called => ?_⟩
  rwa [s.closing_pos other, if_neg (Ne.symm away)] at called

theorem State.releasing_blocksSound {s : State} (h : s.blocksSound) {cause : FlushCause} (other : cause ≠ .cancel)
    (p : Fin 64) : (s.releasing p cause).blocksSound := by
  refine State.blocksSound_of_touches h (s.releasing_releaseParts other p) (by decide) (by decide) (by decide)
    fun q called => ?_
  rw [s.releasing_pos other] at called
  split at called
  · exact nomatch called
  · exact called

/-- What the assignment of players and the reply leave of the blocks. -/
theorem State.assigned_blocksSound {u : State} (h : u.blocksSound) (port : Port) (payload : List Byte) :
    (u.assignPlayers.answer port .ok payload).blocksSound :=
  State.blocksSound_of_touches h (u.assigned_answer_touches port .ok payload) (by decide) (by decide) (by decide)
    (calls_of_touches (u.assigned_answer_touches port .ok payload) (by decide))

theorem State.connecting_blocksSound {s : State} (h : s.blocksSound) (p t : Fin 64) (state : PositionState)
    (stream : Option (Fin 16)) : (s.connecting p t state stream).blocksSound := by
  obtain ⟨suppressors, ducks, echo⟩ := h
  have cleared := s.connecting_echo p t state stream
  refine ⟨State.setFirstFrame_legal suppressors (s.connecting_suppress p t state stream),
    State.ducksLegal_of_eq ducks (s.connecting_coachDuck p t state stream),
    State.echoSound_put echo (c := Canceller.zeroed (s.segments p)) (by rw [cleared]; rfl) (zeroed_legal _) (fun g => ?_)
      (fun _ => Canceller.zeroed_exact _) fun q away called => ?_⟩
  · rw [cleared, Table.cell_build]
    split
    · exact .inr rfl
    · exact .inl rfl
  · rwa [State.connecting_pos, if_neg (Ne.symm away)] at called

theorem State.connect_blocksSound {s : State} (h : s.blocksSound) (port : Port) (p t : Fin 64) (prompt : Option PromptArg)
    (stream : Option (Fin 16)) : (s.connect port p t prompt stream).blocksSound := by
  have through : ∀ {u v : State} {parts : List Part}, u.blocksSound → Touches parts u v → .suppress ∉ parts →
      .mixer ∉ parts → .echo ∉ parts → .positions ∉ parts → v.blocksSound := fun hu touched suppress mixer echo positions =>
    State.blocksSound_of_touches hu touched suppress mixer echo (calls_of_touches touched positions)
  refine State.connect_keeps (P := State.blocksSound) (fun status => ?_) (fun kinds c i => ?_) (fun _ => ?_) (fun x _ => ?_)
  · exact through h (s.answer_touches port status []) (by decide) (by decide) (by decide) (by decide)
  · exact through h (s.refuseFault_touches port kinds c i _) (by decide) (by decide) (by decide) (by decide)
  · exact through (State.connecting_blocksSound h p t _ _) (State.answer_touches _ port _ _) (by decide) (by decide)
      (by decide) (by decide)
  · exact through (through (State.connecting_blocksSound h p t _ _) (State.queueEntry_touches _ p port _ _) (by decide)
      (by decide) (by decide) (by decide)) (State.answer_touches _ port _ _) (by decide) (by decide) (by decide) (by decide)

theorem State.setAccepted_blocksSound {s : State} (h : s.blocksSound) (port : Port) (p : Fin 64) (a : ParamsArg)
    (mode : Option EcMode) : (s.setAccepted port p a mode).blocksSound := by
  obtain ⟨suppressors, ducks, echo⟩ := h
  have touched := s.setAccepted_touches port p a mode
  refine ⟨State.suppressorsLegal_put suppressors (s.setAccepted_suppress port p a mode)
    (Suppressor.atLeast_legal (suppressors.2 p) ?_), State.ducksLegal_of_eq ducks (congrArg Mixer.coachDuck
      (touched .mixer (by decide))), State.echoSound_of_eq echo (touched .echo (by decide))
        (calls_of_kept (s.setAccepted_slotsKept port p a mode))⟩
  split
  · exact (suppressors.1 _).2.2.2.2
  · exact Nat.zero_le _

/-- SET TAIL changes the segments of a position that is in no call (R35). -/
theorem State.tailAccepted_blocksSound {s : State} (h : s.blocksSound) (port : Port) {p : Fin 64} (tail : Nat)
    (idle : (s.pos p).state = .idle) : (s.tailAccepted port p tail).blocksSound := by
  obtain ⟨suppressors, ducks, echo⟩ := h
  have touched := s.tailAccepted_touches port p tail
  have kept := s.tailAccepted_slotsKept port p tail
  have here : ((s.tailAccepted port p tail).pos p).state.inCall ≠ true := by
    rw [kept.inCall, idle]
    decide
  have allotted : (s.tailAccepted port p tail).echo = s.tailEcho p tail := by
    unfold State.tailAccepted State.tailEcho
    dsimp only
    split
    · rfl
    · split
      · rfl
      · rfl
  refine ⟨State.suppressorsLegal_of_eq suppressors (touched .suppress (by decide)), State.ducksLegal_of_eq ducks
    (congrArg Mixer.coachDuck (touched .mixer (by decide))), ?_⟩
  by_cases larger : (s.pos p).tail < tail
  · have taken : s.tailEcho p tail = (s.allocate p (tail - (s.pos p).tail)).echo := by rw [State.tailEcho, if_pos larger]
    refine State.echoSound_put echo (c := { s.canceller p with
      segments := (s.canceller p).segments ++ s.echo.free.take (tail - (s.pos p).tail) }) (by rw [allotted, taken]; rfl) (echo.1.1 p) (fun g => ?_) (fun called => absurd called here)
      fun q _ => calls_of_kept kept q
    rw [allotted, taken]
    exact zeroTaps_cell _ _ g
  · by_cases smaller : tail < (s.pos p).tail
    · have given : s.tailEcho p tail = (s.keepSegments p tail).echo := by
        rw [State.tailEcho, if_neg larger, if_pos smaller]
      exact State.echoSound_put echo (c := { s.canceller p with segments := (s.canceller p).segments.take tail })
        (by rw [allotted, given]; rfl) (echo.1.1 p) (fun g => .inl (by rw [allotted, given]; rfl))
        (fun called => absurd called here) fun q _ => calls_of_kept kept q
    · refine State.echoSound_of_eq echo ?_ (calls_of_kept kept)
      rw [allotted, State.tailEcho, if_neg larger, if_neg smaller]

/-! ## Taps (R97, R99) -/

theorem State.addTapAccepted_coachDuck (s : State) (port : Port) (x : Tap) :
    (s.addTapAccepted port x).mixer.coachDuck = s.mixer.coachDuck := by
  unfold State.addTapAccepted
  split
  · dsimp only
    rw [State.answer_mixer]
    split
    · rw [State.file_touches _ _ _ _ _ .mixer (by decide)]
      rfl
    · rfl
  · rfl

theorem State.removeTapAccepted_coachDuck (s : State) (port : Port) (t : Fin 16) (x : Tap) :
    (s.removeTapAccepted port t x).mixer.coachDuck = s.mixer.coachDuck := by
  unfold State.removeTapAccepted
  rw [State.answer_mixer]
  split
  · rfl
  · rw [State.dropTap_mixer]

/-- A change of the tap table leaves every block as it was. -/
theorem State.blocksSound_of_taps {s t : State} (h : s.blocksSound) (touched : Touches [.ports, .mixer, .events] s t)
    (ducks : t.mixer.coachDuck = s.mixer.coachDuck) : t.blocksSound :=
  ⟨State.suppressorsLegal_of_eq h.1 (touched .suppress (by decide)), State.ducksLegal_of_eq h.2.1 ducks,
    State.echoSound_of_eq h.2.2 (touched .echo (by decide)) (calls_of_touches touched (by decide))⟩

/-! ## RESET PORT (R176) -/

theorem State.resetTeardown_blocksSound {s : State} (h : s.blocksSound) (port : Port) : (s.resetTeardown port).blocksSound := by
  have kept : ∀ {u v : State} {parts : List Part}, u.blocksSound → Touches parts u v → SlotsKept u v → .suppress ∉ parts →
      .mixer ∉ parts → .echo ∉ parts → v.blocksSound := fun hu touched slots suppress mixer echo =>
    State.blocksSound_of_touches hu touched suppress mixer echo (calls_of_kept slots)
  refine State.resetTeardown_keeps (P := State.blocksSound) ?_ ?_ ?_ ?_ ?_ ?_ ?_ h
  · exact fun t p ht => kept ht (t.inherit_touches port p) (t.inherit_slotsKept port p) (by decide) (by decide) (by decide)
  · exact fun t ht => kept ht (t.clearOffersTo_touches port) (t.clearOffersTo_slotsKept port) (by decide) (by decide) (by decide)
  · exact fun t p ht => State.tearDown_keeps (P := State.blocksSound) (fun u q hu => State.releasing_blocksSound hu (by decide) q)
      (fun u q hu => State.closing_blocksSound hu (by decide) q) ht p
  · exact fun t k ht => kept ht (t.resetStream_touches k) (t.resetStream_slotsKept k) (by decide) (by decide) (by decide)
  · exact fun t p ht => kept ht (t.flush_touches p _ _) (t.flush_slotsKept p _ _) (by decide) (by decide) (by decide)
  · exact fun t ht => kept ht t.assignPlayers_touches t.assignPlayers_slotsKept (by decide) (by decide) (by decide)
  · exact fun t u touched ducks ht => ⟨State.suppressorsLegal_of_eq ht.1 (touched .suppress (by decide)),
      State.ducksLegal_of_eq ht.2.1 ducks, State.echoSound_of_eq ht.2.2 (touched .echo (by decide))
        (calls_of_touches touched (by decide))⟩

/-! ## Every command -/

/-- Whether a command leaves the suppressor, the canceller and the mixer alone. -/
def sparesBlocks (c : Instr) : Prop := .suppress ∉ commandParts c ∧ .mixer ∉ commandParts c ∧ .echo ∉ commandParts c

/-- A command that leaves them alone moves no position into a call. -/
theorem exec_calls {c : Instr} {s t : State} (spares : sparesBlocks c) (h : exec c s = .next t) :
    ∀ p, (t.pos p).state.inCall = true → (s.pos p).state.inCall = true := by
  by_cases untouched : .positions ∉ commandParts c
  · exact calls_of_touches (exec_touches h) untouched
  · obtain ⟨suppress, mixer, echo⟩ := spares
    refine calls_of_kept (exec_slotsKept h ?_ ?_) <;> cases c <;> simp_all [commandParts, frameParts, closeParts, grantParts]

theorem State.checked_blocksSound {s : State} (h : s.blocksSound) {p : Port} {checks : List (Bool × Status)}
    {effect : State → State} (passed : (∀ c ∈ checks, c.1 = false) → (effect s).blocksSound) :
    (s.checked p checks effect).blocksSound :=
  State.checked_keeps (fun _ => State.blocksSound_of_touches h (s.answer_touches p _ []) (by decide) (by decide) (by decide)
    fun _ called => called) fun none => passed (firstRefusal_eq_none.mp none)

theorem exec_blocksSound {c : Instr} {s t : State} (sound : s.blocksSound) (room : ∀ p, s.echoRoom p)
    (h : exec c s = .next t) : t.blocksSound := by
  by_cases spares : sparesBlocks c
  · exact State.blocksSound_of_touches sound (exec_touches h) spares.1 spares.2.1 spares.2.2 (exec_calls spares h)
  have request := fun {p code body} (h : (Host.Outcome.next (s.request p code body) : Host.Outcome State Fault Refusal)
    = .next t) => exec_request_keeps (P := State.blocksSound) h sound fun _ _ hu => hu
  have settled := State.settle_blocksSound sound room
  cases c with
  | pinReset => cases h; exact reset_blocksSound
  | cycle trunkRx agentRx agentSig =>
    obtain e | ⟨-, e⟩ := cycle_next h <;> rw [e]
    · exact sound
    · have touched := s.settle.cycled_touches trunkRx agentRx agentSig
      exact State.blocksSound_of_touches settled touched (by decide) (by decide) (by decide)
        (calls_of_touches touched (by decide))
  | frameCompletion =>
    cases h
    split
    · exact settled
    · exact sound
  | syncLossMissingPulse =>
    obtain e | e := syncLossMissingPulse_next h <;> rw [e]
    · exact sound
    · have touched := s.settle.loseSync_touches none 1
      exact State.blocksSound_of_touches settled touched (by decide) (by decide) (by decide)
        (calls_of_touches touched (by decide))
  | fsPulse bit =>
    obtain e | ⟨-, e⟩ := fsPulse_next h <;> rw [e]
    · exact sound
    · exact State.pulsed_blocksSound settled bit
  | resetPort port =>
    exact request h fun u hu => State.resetTeardown_blocksSound hu port
  | openPosition port position slot tail profile =>
    refine request h fun u hu => ?_
    split
    · exact State.checked_blocksSound hu fun _ => State.openAccepted_blocksSound hu port _ _ _ _
    · exact hu
  | closePosition port position =>
    exact request h fun u hu => State.withNumber_keeps (fun _ => hu) fun p => State.checked_blocksSound hu fun _ =>
      State.assigned_blocksSound (State.closing_blocksSound hu (by decide) p) port []
  | connect port position trunk prompt stream =>
    refine request h fun u hu => ?_
    split
    · exact State.checked_blocksSound hu fun _ => State.connect_blocksSound hu port _ _ _ _
    · exact hu
  | release port position =>
    exact request h fun u hu => State.withNumber_keeps (fun _ => hu) fun p => State.checked_blocksSound hu fun _ =>
      State.assigned_blocksSound (State.releasing_blocksSound hu (by decide) p) port []
  | setPosition port position params =>
    refine request h fun u hu => ?_
    split
    · exact State.checked_blocksSound hu fun _ => State.setAccepted_blocksSound hu port _ _ _
    · exact hu
  | setTail port position tail =>
    refine request h fun u hu => State.withNumber_keeps (fun _ => hu) fun p => State.checked_blocksSound hu fun _ =>
      State.checked_blocksSound hu fun passed => State.tailAccepted_blocksSound hu port _ ?_
    simp only [List.forall_mem_cons, decide_eq_false_iff_not, not_not] at passed
    exact passed.2.2.1
  | writeProfile port profile gains threshold nmin =>
    refine request h fun u hu => ?_
    split
    · exact ⟨State.replaceProfile_suppressorsLegal hu.1 _ (storedProfile_legal gains threshold nmin), hu.2.1, hu.2.2⟩
    · exact hu
  | addTap port listener target kind gain =>
    refine request h fun u hu => ?_
    split
    · exact State.checked_blocksSound hu fun _ =>
        State.blocksSound_of_taps hu (u.addTapAccepted_touches port _) (u.addTapAccepted_coachDuck port _)
    · exact hu
  | removeTap port tap =>
    refine request h fun u hu => ?_
    split
    · split
      · exact State.checked_blocksSound hu fun _ =>
          State.blocksSound_of_taps hu (u.removeTapAccepted_touches port _ _) (u.removeTapAccepted_coachDuck port _ _)
      · exact hu
    · exact hu
  | _ => exact absurd ⟨by simp [commandParts, grantParts], by simp [commandParts, grantParts], by simp [commandParts, grantParts]⟩ spares

/-- Room for the run: an open position holds as many segments as its tail, a CLOSED one none. -/
theorem State.echoRoom_of_sound {s : State} (legal : s.parametersLegal) (segments : s.segmentsSound) (p : Fin 64) :
    s.echoRoom p := by
  obtain ⟨-, -, -, -, -, opened, closed⟩ := segments
  obtain ⟨-, -, most, -, -, -, hang, -⟩ := legal p
  refine ⟨?_, hang⟩
  by_cases shut : (s.pos p).state = .closed
  · rw [closed p shut]
    exact Nat.zero_le 4
  · rw [opened p shut]
    exact most

/-- Settles O54: each command keeps the parameters, the floors and what the blocks keep. -/
theorem parametersStayLegal : Obligations.ParametersStayLegal := by
  intro s t h
  unfold step at h
  split at h
  · cases h
    exact ⟨id, id, fun _ _ blocks power => ⟨blocks, power⟩⟩
  · next c rest _ =>
    refine ⟨fun legal => exec_parametersLegal (s := { s with pending := rest }) legal h,
      fun sound => exec_floorsSound (s := { s with pending := rest }) sound h, fun legal segments blocks power => ?_⟩
    exact State.blocksSound_iff.mp (exec_blocksSound (s := { s with pending := rest })
      (State.blocksSound_iff.mpr ⟨blocks, power⟩) (fun p => State.echoRoom_of_sound legal segments p) h)

end Sys2Proof.Machine
end


section
/-! PROOFS. Heads and prompt players: every PRIMING or SOUNDING head holds exactly one player (R157, R161 to R163, R166). -/

namespace Sys2Proof.Machine

/-! ## What a head holds -/

/-- The phases of a position's queue. -/
def State.phases (s : State) (p : Fin 64) : List EntryPhase := (s.queue p).map Entry.phase

/-- Every PRIMING or SOUNDING head holds exactly one player, and only heads are PRIMING or SOUNDING: what holds also while a
player is free and a head waits for it. -/
structure State.PlayersHeld (s : State) : Prop where
  head : ∀ w p, (s.player w).assigned = some p → ∃ x, (s.phases p).head? = some x ∧ x ≠ .waiting
  held : ∀ p x, (s.phases p).head? = some x → x ≠ .waiting → ∃ w, (s.player w).assigned = some p
  one : ∀ v w p, (s.player v).assigned = some p → (s.player w).assigned = some p → v = w
  tail : ∀ p, ∀ x ∈ (s.phases p).tail, x = .waiting

/-- No player is free while a head waits (R163). -/
def State.noHeadWaits (s : State) : Prop := ∀ w p, (s.player w).assigned = none → (s.phases p).head? ≠ some .waiting

theorem State.phases_head (s : State) (p : Fin 64) (x : EntryPhase) :
    (s.phases p).head? = some x ↔ ∃ e, (s.queue p).head? = some e ∧ e.phase = x := by
  unfold State.phases
  rw [List.head?_map, Option.map_eq_some_iff]

theorem State.playersSound_iff (s : State) : s.playersSound ↔ s.PlayersHeld ∧ s.noHeadWaits := by
  have tails : ∀ p, (∀ x ∈ (s.phases p).tail, x = .waiting) ↔ ∀ e ∈ (s.queue p).tail, e.phase = .waiting := fun p => by
    unfold State.phases
    rw [← List.map_tail, List.forall_mem_map]
  constructor
  · rintro ⟨head, held, one, tail, none⟩
    refine ⟨⟨fun w p assigned => ?_, fun p x first begun => ?_, one, fun p => (tails p).mpr (tail p)⟩, fun w p free waits => ?_⟩
    · obtain ⟨e, first, begun⟩ := head w p assigned
      exact ⟨e.phase, (s.phases_head p _).mpr ⟨e, first, rfl⟩, begun⟩
    · obtain ⟨e, entry, rfl⟩ := (s.phases_head p _).mp first
      exact held p e entry begun
    · obtain ⟨e, first, waiting⟩ := (s.phases_head p _).mp waits
      exact none w p e free first waiting
  · rintro ⟨h, none⟩
    refine ⟨fun w p assigned => ?_, fun p e first => ?_, h.one, fun p => (tails p).mp (h.tail p), fun w p e free first waiting => ?_⟩
    · obtain ⟨x, first, begun⟩ := h.head w p assigned
      obtain ⟨e, entry, rfl⟩ := (s.phases_head p _).mp first
      exact ⟨e, entry, begun⟩
    · exact h.held p e.phase ((s.phases_head p _).mpr ⟨e, first, rfl⟩)
    · exact none w p free ((s.phases_head p _).mpr ⟨e, first, waiting⟩)

section
variable {s t : State} {p : Fin 64} {w : Fin 16}

theorem State.phases_of_queue (h : t.queue p = s.queue p) : t.phases p = s.phases p := congrArg (List.map Entry.phase) h

theorem State.PlayersHeld.of_same (h : s.PlayersHeld) (phases : ∀ p, t.phases p = s.phases p)
    (assigned : ∀ w, (t.player w).assigned = (s.player w).assigned) : t.PlayersHeld := by
  refine ⟨fun w p => ?_, fun p x => ?_, fun v w p => ?_, fun p => ?_⟩
  · rw [assigned, phases]; exact h.head w p
  · rw [phases]; simp only [assigned]; exact h.held p x
  · rw [assigned, assigned]; exact h.one v w p
  · rw [phases]; exact h.tail p

theorem State.playersSound_of_same (h : s.playersSound) (phases : ∀ p, t.phases p = s.phases p)
    (assigned : ∀ w, (t.player w).assigned = (s.player w).assigned) : t.playersSound := by
  rw [State.playersSound_iff] at h ⊢
  refine ⟨h.1.of_same phases assigned, fun w p => ?_⟩
  rw [assigned, phases]
  exact h.2 w p

theorem State.PlayersHeld.of_whisper (h : s.PlayersHeld) (same : t.whisper = s.whisper) : t.PlayersHeld :=
  h.of_same (fun p => State.phases_of_queue (by unfold State.queue; rw [same])) fun w => by unfold State.player; rw [same]

theorem State.playersSound_of_whisper (h : s.playersSound) (same : t.whisper = s.whisper) : t.playersSound :=
  State.playersSound_of_same h (fun p => State.phases_of_queue (by unfold State.queue; rw [same])) fun w => by
    unfold State.player; rw [same]

/-- One queue changes behind a head that is PRIMING or SOUNDING, or while its head is WAITING. -/
theorem State.PlayersHeld.requeued (h : s.PlayersHeld) (others : ∀ q, q ≠ p → t.phases q = s.phases q)
    (head : ∀ x, x ≠ .waiting → ((t.phases p).head? = some x ↔ (s.phases p).head? = some x))
    (tail : ∀ x ∈ (t.phases p).tail, x = .waiting) (assigned : ∀ w, (t.player w).assigned = (s.player w).assigned) :
    t.PlayersHeld := by
  have heads : ∀ q x, x ≠ .waiting → ((t.phases q).head? = some x ↔ (s.phases q).head? = some x) := fun q x begun => by
    by_cases same : q = p
    · rw [same]; exact head x begun
    · rw [others q same]
  refine ⟨fun w q => ?_, fun q x first begun => ?_, fun v w q => ?_, fun q => ?_⟩
  · rw [assigned]
    intro own
    obtain ⟨x, first, begun⟩ := h.head w q own
    exact ⟨x, (heads q x begun).mpr first, begun⟩
  · simp only [assigned]
    exact h.held q x ((heads q x begun).mp first) begun
  · rw [assigned, assigned]
    exact h.one v w q
  · by_cases same : q = p
    · rw [same]; exact tail
    · rw [others q same]; exact h.tail q

theorem head_of_all_waiting {l : List EntryPhase} (h : ∀ x ∈ l, x = .waiting) {x : EntryPhase} (begun : x ≠ .waiting) :
    l.head? ≠ some x := fun first => begun (h x (List.mem_of_head? first))

/-- A head leaves its queue and its player is free. -/
theorem State.PlayersHeld.freed (h : s.PlayersHeld) (own : (s.player w).assigned = some p)
    (others : ∀ q, q ≠ p → t.phases q = s.phases q) (waiting : ∀ x ∈ t.phases p, x = .waiting)
    (assigned : ∀ v, (t.player v).assigned = if w = v then none else (s.player v).assigned) : t.PlayersHeld := by
  have keeps : ∀ v q, (t.player v).assigned = some q → w ≠ v ∧ q ≠ p ∧ (s.player v).assigned = some q := fun v q other => by
    rw [assigned] at other
    split at other
    · exact nomatch other
    · next apart => exact ⟨apart, fun same => apart (h.one w v p own (same ▸ other)), other⟩
  refine ⟨fun v q other => ?_, fun q x first begun => ?_, fun v u q hv hu => ?_, fun q => ?_⟩
  · obtain ⟨-, apart, other⟩ := keeps v q other
    rw [others q apart]
    exact h.head v q other
  · by_cases same : q = p
    · rw [same] at first
      exact absurd first (head_of_all_waiting waiting begun)
    · rw [others q same] at first
      obtain ⟨v, other⟩ := h.held q x first begun
      have apart : w ≠ v := fun equal => same (Option.some.inj (other.symm.trans (equal ▸ own)))
      exact ⟨v, by rw [assigned, if_neg apart, other]⟩
  · exact h.one v u q (keeps v q hv).2.2 (keeps u q hu).2.2
  · by_cases same : q = p
    · rw [same]
      exact fun x member => waiting x (List.mem_of_mem_tail member)
    · rw [others q same]
      exact h.tail q

/-- A free player takes a WAITING head, which no longer waits. -/
theorem State.PlayersHeld.taken (h : s.PlayersHeld) (free : (s.player w).assigned = none)
    (waits : (s.phases p).head? = some .waiting) (others : ∀ q, q ≠ p → t.phases q = s.phases q) {x : EntryPhase}
    (begun : x ≠ .waiting) (phases : t.phases p = x :: (s.phases p).tail)
    (assigned : ∀ v, (t.player v).assigned = if w = v then some p else (s.player v).assigned) : t.PlayersHeld := by
  have unheld : ∀ v, (s.player v).assigned ≠ some p := fun v own => by
    obtain ⟨y, first, other⟩ := h.head v p own
    exact other (Option.some.inj (first.symm.trans waits))
  refine ⟨fun v q own => ?_, fun q y first other => ?_, fun v u q hv hu => ?_, fun q => ?_⟩
  · rw [assigned] at own
    split at own
    · rw [← Option.some.inj own, phases]
      exact ⟨x, rfl, begun⟩
    · next apart =>
      have elsewhere : q ≠ p := fun same => unheld v (same ▸ own)
      rw [others q elsewhere]
      exact h.head v q own
  · by_cases same : q = p
    · exact ⟨w, by rw [assigned, if_pos rfl, same]⟩
    · rw [others q same] at first
      obtain ⟨v, own⟩ := h.held q y first other
      have apart : w ≠ v := fun equal => by rw [← equal, free] at own; exact nomatch own
      exact ⟨v, by rw [assigned, if_neg apart, own]⟩
  · rw [assigned] at hv hu
    split at hv <;> split at hu
    · next same same' => exact same.symm.trans same'
    · exact absurd (hu.trans hv.symm |>.trans rfl) (Option.some.inj hv ▸ unheld u)
    · exact absurd hv (Option.some.inj hu ▸ unheld v)
    · exact h.one v u q hv hu
  · by_cases same : q = p
    · rw [same, phases]
      exact h.tail p
    · rw [others q same]
      exact h.tail q

end

/-! ## The assignment of players (R163) -/

theorem State.phases_withHeadPhase {s : State} {p : Fin 64} {y : EntryPhase} (first : (s.phases p).head? = some y)
    (x : EntryPhase) : (withHeadPhase x (s.queue p)).map Entry.phase = x :: (s.phases p).tail := by
  unfold State.phases at first ⊢
  cases h : s.queue p with
  | nil => rw [h] at first; exact nomatch first
  | cons e rest => rfl

theorem State.assign_playersHeld {s : State} (h : s.PlayersHeld) {w : Fin 16} {p : Fin 64} (free : s.freePlayer = some w)
    (oldest : s.oldestHead = some p) : (s.assign w p).PlayersHeld := by
  have waits : (s.phases p).head? = some .waiting := (s.phases_head p _).mpr (State.oldestHead_some oldest)
  refine h.taken (State.freePlayer_some free) waits (fun q apart => ?_) (x := .priming) (by decide) ?_
    fun v => s.assign_assigned w v p
  · exact State.phases_of_queue (by rw [State.assign_queue, if_neg (Ne.symm apart)])
  · unfold State.phases
    rw [State.assign_queue, if_pos rfl]
    exact State.phases_withHeadPhase waits .priming

theorem State.assignPlayers_playersHeld {s : State} (h : s.PlayersHeld) : s.assignPlayers.PlayersHeld :=
  State.assignPlayers_keeps (P := State.PlayersHeld) (fun _ _ _ ht free oldest => State.assign_playersHeld ht free oldest) s h

/-- After the assignment of players none is free while a head waits. -/
theorem State.assignPlayers_playersSound {s : State} (h : s.PlayersHeld) : s.assignPlayers.playersSound := by
  rw [State.playersSound_iff]
  refine ⟨State.assignPlayers_playersHeld h, fun w p free waits => ?_⟩
  rcases s.assignPlayers_done with none | none
  · exact State.freePlayer_none.mp none w free
  · obtain ⟨e, first, waiting⟩ := (State.phases_head _ p _).mp waits
    have age := (State.waitingAge_isSome _ p).mpr ⟨e, first, waiting⟩
    rw [State.oldestHead_none.mp none p] at age
    exact nomatch age

/-! ## Flushes (R161) -/

theorem State.PlayersHeld.tail_waiting {s : State} (h : s.PlayersHeld) {p : Fin 64} {e : Entry} {rest : List Entry}
    (queue : s.queue p = e :: rest) : ∀ f ∈ rest, f.phase = .waiting := fun f member =>
  h.tail p f.phase (by unfold State.phases; rw [queue]; exact List.mem_map_of_mem member)

theorem State.playerOf_of_assigned {s : State} {p : Fin 64} {w : Fin 16} (own : (s.player w).assigned = some p) :
    ∃ v, s.playerOf p = some v := by
  cases h : s.playerOf p with
  | none => exact absurd own (State.playerOf_none h w)
  | some v => exact ⟨v, rfl⟩

theorem phase_waiting_of_filter {l : List Entry} (h : ∀ e ∈ l, e.phase = .waiting) (chosen : Entry → Bool) :
    (l.filter chosen).all (fun e => e.phase = .waiting) = true :=
  List.all_eq_true.mpr fun e member => decide_eq_true (h e (List.mem_filter.mp member).1)

/-- The head of a queue whose tail waits is PRIMING or SOUNDING only where the queue has an entry that does not wait. -/
theorem State.flush_playersHeld_of_waiting {s : State} (h : s.PlayersHeld) {p : Fin 64} {cause : FlushCause}
    {chosen : Entry → Bool} (waiting : ((s.queue p).filter chosen).all (fun e => e.phase = .waiting) = true) :
    (s.flush p cause chosen).PlayersHeld := by
  obtain ⟨queue, others, -, -, -, quiet, -⟩ := s.flush_leaves p cause chosen
  obtain ⟨players, -⟩ := quiet waiting
  refine h.requeued (p := p) (fun q apart => State.phases_of_queue (others q apart)) (fun x begun => ?_) ?_ fun w => by
    unfold State.player; rw [players]
  · unfold State.phases
    rw [queue]
    cases line : s.queue p with
    | nil => rfl
    | cons e rest =>
      have behind := h.tail_waiting line
      cases flushed : chosen e with
      | false => rw [List.filter_cons_of_pos (by rw [flushed]; rfl)]; rfl
      | true =>
        rw [line, List.filter_cons_of_pos flushed, List.all_cons, Bool.and_eq_true, decide_eq_true_eq] at waiting
        have before : ∀ y ∈ (e :: rest).map Entry.phase, y = .waiting :=
          List.forall_mem_map.mpr (List.forall_mem_cons.mpr ⟨waiting.1, behind⟩)
        have after : ∀ y ∈ ((e :: rest).filter fun e => !chosen e).map Entry.phase, y = .waiting := fun y member =>
          before y (List.map_subset _ (List.filter_sublist).subset member)
        exact iff_of_false (head_of_all_waiting after begun) (head_of_all_waiting before begun)
  · unfold State.phases
    rw [queue]
    cases line : s.queue p with
    | nil => exact fun x member => nomatch member
    | cons e rest =>
      have behind : ∀ y ∈ (rest.filter fun e => !chosen e).map Entry.phase, y = .waiting :=
        List.forall_mem_map.mpr fun f member => h.tail_waiting line f (List.mem_filter.mp member).1
      cases flushed : chosen e with
      | false => rw [List.filter_cons_of_pos (by rw [flushed]; rfl)]; exact behind
      | true =>
        rw [List.filter_cons_of_neg (by rw [flushed]; decide)]
        exact fun x member => behind x (List.mem_of_mem_tail member)

theorem State.flush_playersHeld {s : State} (h : s.PlayersHeld) (p : Fin 64) (cause : FlushCause) (chosen : Entry → Bool) :
    (s.flush p cause chosen).PlayersHeld := by
  by_cases waiting : ((s.queue p).filter chosen).all (fun e => e.phase = .waiting) = true
  · exact State.flush_playersHeld_of_waiting h waiting
  obtain ⟨queue, others, -, -, -, -, begun⟩ := s.flush_leaves p cause chosen
  cases line : s.queue p with
  | nil => rw [line] at waiting; exact absurd rfl waiting
  | cons e rest =>
    have behind := h.tail_waiting line
    have restWaits := phase_waiting_of_filter behind chosen
    have flushed : chosen e = true := by
      by_contra kept
      rw [line, List.filter_cons_of_neg kept] at waiting
      exact waiting restWaits
    rw [line, List.filter_cons_of_pos flushed] at waiting begun
    have plays : e.phase ≠ .waiting := fun waits => waiting (by rw [List.all_cons, restWaits, waits]; rfl)
    have first : (s.phases p).head? = some e.phase := (s.phases_head p _).mpr ⟨e, by rw [line]; rfl, rfl⟩
    obtain ⟨v, own⟩ := h.held p e.phase first plays
    obtain ⟨w, player⟩ := State.playerOf_of_assigned own
    obtain ⟨players, -⟩ := begun e _ w rfl plays restWaits player
    refine h.freed (State.playerOf_some player) (fun q apart => State.phases_of_queue (others q apart)) ?_ fun u => ?_
    · unfold State.phases
      rw [queue, line, List.filter_cons_of_neg (by rw [flushed]; decide)]
      exact List.forall_mem_map.mpr fun f member => behind f (List.mem_filter.mp member).1
    · unfold State.player
      rw [players, Table.cell_put]
      split
      · rfl
      · rfl

/-! ## Entries that join a queue (R158, R159) -/

/-- A WAITING entry joins a queue behind a head that is PRIMING or SOUNDING, or at any place of a queue that waits. -/
theorem State.PlayersHeld.enqueued {s t : State} (h : s.PlayersHeld) {p : Fin 64} {l : List EntryPhase}
    (others : ∀ q, q ≠ p → t.phases q = s.phases q) (phases : t.phases p = l)
    (placed : l = s.phases p ++ [.waiting] ∨ (∃ rest, s.phases p = .waiting :: rest ∧ l = .waiting :: .waiting :: rest)
      ∨ ∃ x rest, s.phases p = x :: rest ∧ l = x :: .waiting :: rest)
    (assigned : ∀ w, (t.player w).assigned = (s.player w).assigned) : t.PlayersHeld := by
  have tail := h.tail p
  refine h.requeued others (fun x begun => ?_) ?_ assigned <;> rw [phases]
  · rcases placed with rfl | ⟨rest, old, rfl⟩ | ⟨y, rest, old, rfl⟩
    · cases s.phases p with
      | nil => exact iff_of_false (fun first => begun (Option.some.inj first).symm) nofun
      | cons y rest => rfl
    · rw [old]; rfl
    · rw [old]; rfl
  · rcases placed with rfl | ⟨rest, old, rfl⟩ | ⟨y, rest, old, rfl⟩
    · cases line : s.phases p with
      | nil => exact fun x member => nomatch member
      | cons y rest =>
        rw [line] at tail
        intro x member
        rcases List.mem_append.mp member with member | member
        · exact tail x member
        · exact List.mem_singleton.mp member
    · rw [old] at tail
      exact List.forall_mem_cons.mpr ⟨rfl, tail⟩
    · rw [old] at tail
      exact List.forall_mem_cons.mpr ⟨rfl, tail⟩

theorem State.enqueued_queue (s : State) (p q : Fin 64) (port : Port) (e : Entry) (place : List Entry → List Entry) :
    (s.enqueued p port e place).queue q = if p = q then place (s.queue p) else s.queue q := by
  unfold State.queue
  rw [State.enqueued_whisper]
  exact Table.cell_put ..

theorem State.enqueued_player (s : State) (p : Fin 64) (port : Port) (e : Entry) (place : List Entry → List Entry) :
    (s.enqueued p port e place).player = s.player := by
  unfold State.player
  rw [State.enqueued_whisper]

theorem State.enqueued_append_playersHeld {s : State} (h : s.PlayersHeld) (p : Fin 64) (port : Port) {e : Entry}
    (waiting : e.phase = .waiting) : (s.enqueued p port e fun q => q ++ [e]).PlayersHeld := by
  refine h.enqueued (p := p) (fun q apart => State.phases_of_queue ?_) rfl (.inl ?_) fun w => by rw [State.enqueued_player]
  · rw [State.enqueued_queue, if_neg (Ne.symm apart)]
  · unfold State.phases
    rw [State.enqueued_queue, if_pos rfl, List.map_append, List.map_singleton, waiting]

theorem State.enqueued_announce_playersHeld {s : State} (h : s.PlayersHeld) (p : Fin 64) (port : Port) {e : Entry}
    (waiting : e.phase = .waiting) : (s.enqueued p port e (placeAnnounce e)).PlayersHeld := by
  refine h.enqueued (p := p) (fun q apart => State.phases_of_queue ?_) rfl ?_ fun w => by rw [State.enqueued_player]
  · rw [State.enqueued_queue, if_neg (Ne.symm apart)]
  · unfold State.phases
    rw [State.enqueued_queue, if_pos rfl]
    cases s.queue p with
    | nil => exact .inl (by rw [placeAnnounce_nil, List.map_singleton, waiting]; rfl)
    | cons f rest =>
      rw [placeAnnounce_cons]
      split
      · next waits => exact .inr (.inl ⟨rest.map Entry.phase, by rw [List.map_cons, waits], by simp [waiting, waits]⟩)
      · exact .inr (.inr ⟨f.phase, rest.map Entry.phase, rfl, by simp [waiting]⟩)

/-! ## Heads that begin to sound, and entries that end (R164, R166) -/

theorem State.soundHeads_playersSound {s : State} (h : s.playersSound) : s.soundHeads.playersSound := by
  have players : s.soundHeads.player = s.player := by unfold State.player; rw [s.soundHeads_whisper]
  rw [State.playersSound_iff] at h ⊢
  obtain ⟨held, none⟩ := h
  have fresh : ∀ p, s.soundHeads.phases p = s.phases p ∨ ((s.phases p).head? = some .priming
      ∧ s.soundHeads.phases p = .sounding :: (s.phases p).tail) := fun p => by
    by_cases primed : s.primed p = true
    · obtain ⟨e, w, page, first, priming, -, -⟩ := (s.primed_iff p).mp primed
      have head : (s.phases p).head? = some .priming := (s.phases_head p _).mpr ⟨e, first, priming⟩
      refine .inr ⟨head, ?_⟩
      rw [State.phases, State.soundHeads_queue, if_pos primed]
      exact State.phases_withHeadPhase head .sounding
    · exact .inl (State.phases_of_queue (by rw [State.soundHeads_queue, if_neg primed]))
  refine ⟨⟨fun w p own => ?_, fun p x first begun => ?_, fun v w p => ?_, fun p => ?_⟩, fun w p free => ?_⟩
  · rw [players] at own
    obtain ⟨x, first, begun⟩ := held.head w p own
    rcases fresh p with same | ⟨-, sounds⟩
    · exact ⟨x, by rw [same, first], begun⟩
    · exact ⟨.sounding, by rw [sounds]; rfl, by decide⟩
  · rw [players]
    rcases fresh p with same | ⟨priming, -⟩
    · exact held.held p x (same ▸ first) begun
    · exact held.held p .priming priming (by decide)
  · rw [players]
    exact held.one v w p
  · rcases fresh p with same | ⟨-, sounds⟩
    · rw [same]; exact held.tail p
    · rw [sounds]; exact held.tail p
  · rw [players] at free
    rcases fresh p with same | ⟨-, sounds⟩
    · rw [same]; exact none w p free
    · rw [sounds]; exact fun waits => nomatch waits

theorem State.entryDone_whisper (s : State) (p : Fin 64) (w : Fin 16) (e : Entry) (rest : List Entry) :
    (s.entryDone p w e rest).whisper = { s.whisper with
      queues := s.whisper.queues.put p rest
      players := s.whisper.players.put w ⟨none, (s.player w).generation, .absent, .empty, none⟩ } :=
  State.file_touches _ _ _ _ _ .whisper (by decide)

theorem State.entryDone_playersHeld {s : State} (h : s.PlayersHeld) {p : Fin 64} {w : Fin 16} {e : Entry}
    {rest : List Entry} (queue : s.queue p = e :: rest) (player : s.playerOf p = some w) :
    (s.entryDone p w e rest).PlayersHeld := by
  refine h.freed (State.playerOf_some player) (fun q apart => State.phases_of_queue ?_) ?_ fun v => ?_
  · unfold State.queue
    rw [State.entryDone_whisper, Table.cell_put, if_neg (Ne.symm apart)]
  · unfold State.phases State.queue
    rw [State.entryDone_whisper, Table.cell_put, if_pos rfl]
    exact List.forall_mem_map.mpr (h.tail_waiting queue)
  · unfold State.player
    rw [State.entryDone_whisper, Table.cell_put]
    split
    · rfl
    · rfl

end Sys2Proof.Machine
end


section
/-! PROOFS. What a position's record says of its call, the listeners it gives a stream, and how far a change keeps them (R21,
R31, R33, R39, R152). -/

namespace Sys2Proof.Machine

/-! ## A record and its queue -/

/-- The origins of the ANNOUNCE entries of a queue. -/
def announceOrigins (q : List Entry) : List (Option Port) := (q.filter fun e => e.kind = .announce).map fun e => some e.origin

/-- A record and a queue agree on the position's call (R21, R31, R33, R39). -/
structure CallOf (x : Position) (q : List Entry) : Prop where
  closed : x.state = .closed → x = Position.closedContents ∧ q = []
  owned : x.state ≠ .closed → x.owner.isSome = true
  named : x.stream.isSome = true → x.state = .announce ∨ x.state = .held
  pending : x.announcePending = true → x.state = .held
  queued : announceOrigins q = if x.state = .announce ∨ x.announcePending = true then [x.owner] else []

theorem announceOrigins_eq_ite {q : List Entry} {owner : Option Port} {p : Prop} [Decidable p] :
    (announceOrigins q = if p then [owner] else []) ↔
      (q.filter fun e => e.kind = .announce).length = (if p then 1 else 0)
        ∧ ∀ e ∈ q.filter (fun e => e.kind = .announce), owner = some e.origin := by
  unfold announceOrigins
  generalize (q.filter fun e => e.kind = .announce) = l
  by_cases h : p
  · rw [if_pos h, if_pos h]
    constructor
    · intro same
      obtain ⟨e, rfl, origin⟩ := List.map_eq_singleton_iff.mp same
      exact ⟨rfl, List.forall_mem_singleton.mpr origin.symm⟩
    · rintro ⟨one, origins⟩
      obtain ⟨e, rfl⟩ := List.length_eq_one_iff.mp one
      rw [List.map_singleton, origins e (List.mem_singleton_self e)]
  · rw [if_neg h, if_neg h, List.map_eq_nil_iff, List.length_eq_zero_iff]
    exact ⟨fun none => ⟨none, by rw [none]; exact fun e member => nomatch member⟩, And.left⟩

theorem State.callSound_iff (s : State) (p : Fin 64) : s.callSound p ↔ CallOf (s.pos p) (s.queue p) := by
  unfold State.callSound State.announcements
  constructor
  · rintro ⟨closed, owned, named, pending, count, origins⟩
    exact ⟨closed, owned, named, pending, announceOrigins_eq_ite.mpr ⟨count, origins⟩⟩
  · rintro ⟨closed, owned, named, pending, queued⟩
    exact ⟨closed, owned, named, pending, announceOrigins_eq_ite.mp queued⟩

theorem State.callsSound_iff (s : State) : s.callsSound ↔ ∀ p, CallOf (s.pos p) (s.queue p) :=
  forall_congr' s.callSound_iff

/-- Two queues agree in everything but phases. -/
theorem announceOrigins_asWaiting (q : List Entry) : announceOrigins (q.map Entry.asWaiting) = announceOrigins q := by
  unfold announceOrigins
  rw [List.filter_map, List.map_map]
  rfl

theorem announceOrigins_congr {q r : List Entry} (same : r.map Entry.asWaiting = q.map Entry.asWaiting) :
    announceOrigins r = announceOrigins q := by
  rw [← announceOrigins_asWaiting r, same, announceOrigins_asWaiting]

/-- The part of a record that says what the position's call is at. -/
def Position.call (x : Position) : PositionState × Option Port × Option (Fin 16) × Bool :=
  (x.state, x.owner, x.stream, x.announcePending)

/-- A record changes in what does not concern its call, if it is open, and its queue in what concerns no announcement. -/
theorem CallOf.of_same {x y : Position} {q r : List Entry} (h : CallOf x q) (call : y.call = x.call)
    (closed : x.state = .closed → y = x ∧ r = []) (origins : announceOrigins r = announceOrigins q) : CallOf y r := by
  simp only [Position.call, Prod.mk.injEq] at call
  obtain ⟨state, owner, stream, announcePending⟩ := call
  refine ⟨fun shut => ?_, fun opened => ?_, fun named => ?_, fun pending => ?_, ?_⟩
  · rw [state] at shut
    obtain ⟨same, none⟩ := closed shut
    exact ⟨same.trans (h.closed shut).1, none⟩
  · rw [owner]; exact h.owned (state ▸ opened)
  · rw [state]; exact h.named (stream ▸ named)
  · rw [state]; exact h.pending (announcePending ▸ pending)
  · rw [origins, h.queued, state, owner, announcePending]

/-- What is not closed, holds an owner, names no stream and does not announce. -/
theorem CallOf.of_quiet {x : Position} {q : List Entry} (opened : x.state ≠ .closed) (owner : x.owner.isSome = true)
    (stream : x.stream = none) (pending : x.announcePending = false) (quiet : x.state ≠ .announce)
    (none : announceOrigins q = []) : CallOf x q := by
  refine ⟨fun shut => absurd shut opened, fun _ => owner, fun named => ?_, fun set => ?_, ?_⟩
  · rw [stream] at named; exact nomatch named
  · rw [pending] at set; exact nomatch set
  · rw [none, if_neg (by simp [pending, quiet])]

theorem CallOf.closedContents : CallOf Position.closedContents [] :=
  ⟨fun _ => ⟨rfl, rfl⟩, fun opened => absurd rfl opened, nofun, nofun, rfl⟩

theorem CallOf.opened_of_queue {x : Position} {q : List Entry} (h : CallOf x q) (some : q ≠ []) : x.state ≠ .closed :=
  fun shut => some (h.closed shut).2

theorem CallOf.no_origin {x : Position} {q : List Entry} (h : CallOf x q) (state : x.state ≠ .announce)
    (pending : x.announcePending = false) : announceOrigins q = [] := by
  rw [h.queued, if_neg (by simp [state, pending])]

theorem CallOf.pending_of_state {x : Position} {q : List Entry} (h : CallOf x q) (state : x.state ≠ .held) :
    x.announcePending = false := Bool.eq_false_iff.mpr fun set => state (h.pending set)

/-- The end of the announcement that is queued (R31, R33). -/
theorem CallOf.announced {x : Position} {q r : List Entry} (h : CallOf x q) (queued : announceOrigins q ≠ [])
    (none : announceOrigins r = []) : CallOf x.announced r := by
  have begun : x.state = .announce ∨ x.announcePending = true := by
    by_contra quiet
    exact queued (by rw [h.queued, if_neg quiet])
  unfold Position.announced
  rcases begun with state | pending
  · have quiet := h.pending_of_state (by rw [state]; decide)
    have owner := h.owned (by rw [state]; decide)
    simp only [state]
    exact .of_quiet nofun owner rfl quiet nofun none
  · have state := h.pending pending
    have owner := h.owned (by rw [state]; decide)
    simp only [state]
    refine ⟨nofun, fun _ => owner, fun _ => .inr rfl, nofun, ?_⟩
    rw [none, if_neg (by simp)]

/-! ## Listeners (R33, R152) -/

/-- The positions that name a stream. -/
def State.naming (s : State) (k : Fin 16) : List (Fin 64) := (List.finRange 64).filter fun p => (s.pos p).stream = some k

theorem State.mem_naming (s : State) (k : Fin 16) (p : Fin 64) : p ∈ s.naming k ↔ (s.pos p).stream = some k := by
  simp [State.naming]

/-- A test that changes at one element of a list changes the count by that element. -/
theorem countP_of_change {α : Type} [DecidableEq α] {l : List α} (distinct : l.Nodup) {a : α} (member : a ∈ l)
    {f g : α → Bool} (others : ∀ b, b ≠ a → g b = f b) :
    l.countP g + (if f a then 1 else 0) = l.countP f + if g a then 1 else 0 := by
  have apart : (l.erase a).countP g = (l.erase a).countP f :=
    List.countP_congr fun b rest => by rw [others b ((distinct.mem_erase_iff).mp rest).1]
  rw [(List.perm_cons_erase member).countP_eq g, (List.perm_cons_erase member).countP_eq f, List.countP_cons,
    List.countP_cons, apart]
  omega

theorem State.naming_of_change {s t : State} {p : Fin 64} (others : ∀ q, q ≠ p → (t.pos q).stream = (s.pos q).stream)
    (k : Fin 16) : (t.naming k).length + (if (s.pos p).stream = some k then 1 else 0)
      = (s.naming k).length + if (t.pos p).stream = some k then 1 else 0 := by
  have h := countP_of_change (List.nodup_finRange 64) (List.mem_finRange p)
    (f := fun q => decide ((s.pos q).stream = some k)) (g := fun q => decide ((t.pos q).stream = some k))
    fun q apart => by rw [others q apart]
  simpa only [State.naming, List.countP_eq_length_filter, decide_eq_true_eq] using h

theorem State.naming_pos {s : State} {k : Fin 16} {p : Fin 64} (named : (s.pos p).stream = some k) :
    1 ≤ (s.naming k).length := List.length_pos_of_mem ((s.mem_naming k p).mpr named)

/-- What changes when one position's call does: its own record and queue, and the listeners of the streams it names before
and after. -/
structure CallChange (s t : State) (p : Fin 64) : Prop where
  others : ∀ q, q ≠ p → t.pos q = s.pos q
  queues : ∀ q, q ≠ p → (t.queue q).map Entry.asWaiting = (s.queue q).map Entry.asWaiting
  listeners : ∀ k, ((s.pos p).stream = some k → 1 ≤ (s.stream k).listeners) →
    (t.stream k).listeners + (if (s.pos p).stream = some k then 1 else 0)
      = (s.stream k).listeners + if (t.pos p).stream = some k then 1 else 0

section
variable {s t u : State} {p : Fin 64}

theorem CallOf.requeued {x : Position} {q r : List Entry} (h : CallOf x q)
    (same : r.map Entry.asWaiting = q.map Entry.asWaiting) : CallOf x r := by
  refine h.of_same rfl (fun shut => ⟨rfl, ?_⟩) (announceOrigins_congr same)
  rw [(h.closed shut).2] at same
  exact List.map_eq_nil_iff.mp same

theorem CallChange.callsSound (h : CallChange s t p) (sound : s.callsSound) (own : CallOf (t.pos p) (t.queue p)) :
    t.callsSound := by
  rw [State.callsSound_iff] at sound ⊢
  intro q
  by_cases same : q = p
  · rw [same]; exact own
  · rw [h.others q same]
    exact (sound q).requeued (h.queues q same)

theorem CallChange.listenersCounted (h : CallChange s t p) (counted : s.listenersCounted) : t.listenersCounted := by
  intro k
  have before : (s.stream k).listeners = (s.naming k).length := counted k
  have change := State.naming_of_change (fun q apart => congrArg Position.stream (h.others q apart)) k
  have listeners := h.listeners k fun named => before ▸ State.naming_pos named
  show (t.stream k).listeners = (t.naming k).length
  omega

/-! ## What keeps all of it -/

/-- What every step keeps of the positions' calls, of the streams' listeners and of the prompt players. -/
def CallsStay (s t : State) : Prop :=
  (s.callsSound → t.callsSound ∧ (s.listenersCounted → t.listenersCounted))
    ∧ (s.stoppedUnheard → t.stoppedUnheard) ∧ (s.playersSound → t.playersSound)

theorem CallsStay.refl (s : State) : CallsStay s s := ⟨fun h => ⟨h, id⟩, id, id⟩

theorem CallsStay.trans (h : CallsStay s t) (k : CallsStay t u) : CallsStay s u := by
  obtain ⟨calls, unheard, players⟩ := h
  obtain ⟨calls', unheard', players'⟩ := k
  refine ⟨fun sound => ?_, unheard' ∘ unheard, players' ∘ players⟩
  obtain ⟨sound', counted⟩ := calls sound
  obtain ⟨sound'', counted'⟩ := calls' sound'
  exact ⟨sound'', counted' ∘ counted⟩

/-- No stream that stops has listeners, and none that is STOPPED gains any. -/
def UnheardStays (s t : State) : Prop := ∀ k, (t.stream k).state = .stopped →
  (t.stream k).listeners = 0 ∨ (s.stream k).state = .stopped ∧ (t.stream k).listeners ≤ (s.stream k).listeners

theorem UnheardStays.stoppedUnheard (h : UnheardStays s t) (unheard : s.stoppedUnheard) : t.stoppedUnheard :=
  fun k stopped => (h k stopped).elim id fun ⟨before, fewer⟩ => Nat.le_zero.mp (unheard k before ▸ fewer)

theorem UnheardStays.trans (h : UnheardStays s t) (k : UnheardStays t u) : UnheardStays s u := fun j stopped => by
  rcases k j stopped with none | ⟨before, fewer⟩
  · exact .inl none
  · rcases h j before with none | ⟨first, fewer'⟩
    · exact .inl (Nat.le_zero.mp (none ▸ fewer))
    · exact .inr ⟨first, fewer.trans fewer'⟩

theorem UnheardStays.of_same (h : ∀ k, (t.stream k).state = (s.stream k).state
    ∧ (t.stream k).listeners = (s.stream k).listeners) : UnheardStays s t := fun k stopped =>
  .inr ⟨(h k).1 ▸ stopped, (h k).2.le⟩

theorem UnheardStays.of_streams (h : t.streams = s.streams) : UnheardStays s t := .of_same fun k => by
  unfold State.stream
  rw [h]
  exact ⟨rfl, rfl⟩

theorem UnheardStays.of_fetch (h : ∀ k, (s.stream k).SameBeyondFetch (t.stream k)) : UnheardStays s t :=
  .of_same fun k => ⟨(h k).state, (h k).listeners⟩

/-- From `s` to `t` a record has changed in what does not concern its call, and a CLOSED one with an empty queue not at all;
queues, players' assignments and listener counts are the same, and no stream has stopped. -/
structure CallsKept (s t : State) : Prop where
  call : ∀ p, (t.pos p).call = (s.pos p).call
  closed : ∀ p, (s.pos p).state = .closed → s.queue p = [] → t.pos p = s.pos p
  queue : ∀ p, t.queue p = s.queue p
  assigned : ∀ w, (t.player w).assigned = (s.player w).assigned
  listeners : ∀ k, (t.stream k).listeners = (s.stream k).listeners
  stopped : ∀ k, (t.stream k).state = .stopped → (s.stream k).state = .stopped

theorem CallsKept.refl (s : State) : CallsKept s s :=
  ⟨fun _ => rfl, fun _ _ _ => rfl, fun _ => rfl, fun _ => rfl, fun _ => rfl, fun _ => id⟩

theorem Position.state_of_call {x y : Position} (h : y.call = x.call) : y.state = x.state := congrArg Prod.fst h

theorem Position.stream_of_call {x y : Position} (h : y.call = x.call) : y.stream = x.stream := congrArg (·.2.2.1) h

theorem CallsKept.trans (h : CallsKept s t) (k : CallsKept t u) : CallsKept s u where
  call p := (k.call p).trans (h.call p)
  closed p shut none := (k.closed p ((Position.state_of_call (h.call p)).trans shut) ((h.queue p).trans none)).trans
    (h.closed p shut none)
  queue p := (k.queue p).trans (h.queue p)
  assigned w := (k.assigned w).trans (h.assigned w)
  listeners j := (k.listeners j).trans (h.listeners j)
  stopped j := h.stopped j ∘ k.stopped j

theorem CallsKept.foldl {α : Type} {f : State → α → State} (h : ∀ s x, CallsKept s (f s x)) (l : List α) (s : State) :
    CallsKept s (l.foldl f s) := foldl_keeps (P := CallsKept s) (fun t x ht => ht.trans (h t x)) l s (.refl s)

theorem CallsStay.foldl {α : Type} {f : State → α → State} (h : ∀ s x, CallsStay s (f s x)) (l : List α) (s : State) :
    CallsStay s (l.foldl f s) := foldl_keeps (P := CallsStay s) (fun t x ht => ht.trans (h t x)) l s (.refl s)

theorem CallsKept.callsSound (h : CallsKept s t) (sound : s.callsSound) : t.callsSound := by
  rw [State.callsSound_iff] at sound ⊢
  intro p
  rw [h.queue]
  refine (sound p).of_same (h.call p) (fun shut => ?_) rfl
  obtain ⟨-, none⟩ := (sound p).closed shut
  exact ⟨h.closed p shut none, none⟩

theorem State.listenersCounted_of_same (streams : ∀ p, (t.pos p).stream = (s.pos p).stream)
    (listeners : ∀ k, (t.stream k).listeners = (s.stream k).listeners) (counted : s.listenersCounted) :
    t.listenersCounted := fun k => by
  simp only [listeners, streams]
  exact counted k

theorem CallsKept.listenersCounted (h : CallsKept s t) (counted : s.listenersCounted) : t.listenersCounted :=
  State.listenersCounted_of_same (fun p => Position.stream_of_call (h.call p)) h.listeners counted

theorem CallsKept.unheardStays (h : CallsKept s t) : UnheardStays s t := fun k stopped =>
  .inr ⟨h.stopped k stopped, (h.listeners k).le⟩

theorem CallsKept.stay (h : CallsKept s t) : CallsStay s t :=
  ⟨fun sound => ⟨h.callsSound sound, h.listenersCounted⟩, h.unheardStays.stoppedUnheard, fun players =>
    State.playersSound_of_same players (fun p => State.phases_of_queue (h.queue p)) h.assigned⟩

theorem CallsKept.of_fields (positions : t.positions = s.positions) (whisper : t.whisper = s.whisper)
    (streams : t.streams = s.streams) : CallsKept s t := by
  have pos : t.pos = s.pos := by unfold State.pos; rw [positions]
  have queue : t.queue = s.queue := by unfold State.queue; rw [whisper]
  have player : t.player = s.player := by unfold State.player; rw [whisper]
  have stream : t.stream = s.stream := by unfold State.stream; rw [streams]
  exact ⟨fun _ => by rw [pos], fun _ _ _ => by rw [pos], fun _ => by rw [queue], fun _ => by rw [player],
    fun _ => by rw [stream], fun _ => by rw [stream]; exact id⟩

theorem CallsKept.of_touches {parts : List Part} (h : Touches parts s t)
    (untouched : .positions ∉ parts ∧ .whisper ∉ parts ∧ .streams ∉ parts) : CallsKept s t :=
  .of_fields (h .positions untouched.1) (h .whisper untouched.2.1) (h .streams untouched.2.2)

/-- A record that keeps its call takes the place of an open one, or of one with a queue. -/
theorem State.setPos_callsKept (s : State) (p : Fin 64) {x : Position}
    (opened : (s.pos p).state ≠ .closed ∨ s.queue p ≠ []) (call : x.call = (s.pos p).call) : CallsKept s (s.setPos p x) := by
  refine ⟨fun q => ?_, fun q shut none => ?_, fun _ => rfl, fun _ => rfl, fun _ => rfl, fun _ => id⟩
  · rw [State.setPos_pos]
    split
    · next same => rw [← same]; exact call
    · rfl
  · have apart : p ≠ q := fun same => opened.elim (· (same ▸ shut)) (· (same ▸ none))
    rw [State.setPos_pos, if_neg apart]

/-- A stream that keeps its listeners and does not stop. -/
theorem State.setStream_callsKept (s : State) (k : Fin 16) {x : Stream} (listeners : x.listeners = (s.stream k).listeners)
    (going : x.state = .stopped → (s.stream k).state = .stopped) : CallsKept s (s.setStream k x) := by
  refine ⟨fun _ => rfl, fun _ _ _ => rfl, fun _ => rfl, fun _ => rfl, fun j => ?_, fun j => ?_⟩ <;>
    rw [State.setStream_stream]
  · split
    · next same => rw [← same]; exact listeners
    · rfl
  · split
    · next same => rw [← same]; exact going
    · exact id

theorem State.setPlayer_callsKept (s : State) (w : Fin 16) {x : PromptPlayer}
    (assigned : x.assigned = (s.player w).assigned) : CallsKept s (s.setPlayer w x) := by
  refine ⟨fun _ => rfl, fun _ _ _ => rfl, fun _ => rfl, fun v => ?_, fun _ => rfl, fun _ => id⟩
  rw [State.setPlayer_player]
  split
  · next same => rw [← same]; exact assigned
  · rfl

theorem CallsStay.answered (h : CallsStay s t) (port : Port) (status : Status) (payload : List Byte) :
    CallsStay s (t.answer port status payload) :=
  h.trans (CallsKept.of_touches (t.answer_touches port status payload) (by decide)).stay

end

/-! ## Grants, requests for pages and assignments (R126, R163) -/

theorem State.deliver_queue (s : State) (f : Fetch) (codes : PageCodes) (p : Fin 64) :
    (s.deliver f codes).queue p = s.queue p := by
  unfold State.deliver
  split
  · split
    · exact congrArg (fun x : Whisper => x.queues.cell p) (s.streamArrival_touches _ _ codes .whisper (by decide))
    · rfl
  · split
    · unfold State.promptArrival
      dsimp only
      split
      · rfl
      · rfl
    · rfl

theorem State.grant_queue (s : State) (p : Fin 64) : s.grant.queue p = s.queue p := by
  refine State.grantRounds_keeps (P := fun t => t.queue p = s.queue p) (fun t h _ => h) (fun t f rest h _ _ => ?_)
    (fun t f rest h _ _ => h) (fun t port clip index page h _ _ => h) (fun t port op h _ _ => h) _ s rfl
  exact (State.deliver_queue t.unqueue f _ p).trans h

theorem CallsKept.of_grantParts {s t : State} (positions : t.positions = s.positions) (queue : ∀ p, t.queue p = s.queue p)
    (player : ∀ w, (s.player w).SameBeyondFetch (t.player w)) (stream : ∀ k, (s.stream k).SameBeyondFetch (t.stream k)) :
    CallsKept s t := by
  have pos : t.pos = s.pos := by unfold State.pos; rw [positions]
  exact ⟨fun _ => by rw [pos], fun _ _ _ => by rw [pos], queue, fun w => (player w).assigned, fun k => (stream k).listeners,
    fun k stopped => (stream k).state ▸ stopped⟩

theorem State.grant_callsKept (s : State) : CallsKept s s.grant :=
  .of_grantParts (s.grant_touches .positions (by decide)) s.grant_queue s.grant_player s.grant_stream

theorem State.deliver_callsKept (s : State) (f : Fetch) (codes : PageCodes) : CallsKept s (s.deliver f codes) :=
  .of_grantParts (s.deliver_touches f codes .positions (by decide)) (s.deliver_queue f codes) (s.deliver_player f codes)
    (s.deliver_stream f codes)

theorem State.requestFetch_callsKept (s : State) (f : Fetch) : CallsKept s (s.requestFetch f) :=
  CallsKept.trans (t := s.setArbiter { s.arbiter with queue := s.arbiter.queue ++ [f] }) (.of_fields rfl rfl rfl)
    (State.grant_callsKept _)

theorem State.streamRequest_callsKept (s : State) (k : Fin 16) : CallsKept s (s.streamRequest k) := by
  unfold State.streamRequest
  dsimp only
  split
  · split
    · refine CallsKept.trans ?_ (State.requestFetch_callsKept _ _)
      exact s.setStream_callsKept k rfl id
    · exact .refl s
  · exact .refl s

theorem State.promptRequest_callsKept (s : State) (w : Fin 16) : CallsKept s (s.promptRequest w) := by
  unfold State.promptRequest
  dsimp only
  split
  · refine CallsKept.trans ?_ (State.requestFetch_callsKept _ _)
    exact s.setPlayer_callsKept w rfl
  · exact .refl s

theorem State.assignPlayers_pos (s : State) : s.assignPlayers.pos = s.pos := by
  unfold State.pos
  rw [s.assignPlayers_touches .positions (by decide)]

theorem State.assignPlayers_stay {s t : State} (calls : s.callsSound → t.callsSound ∧ (s.listenersCounted → t.listenersCounted))
    (unheard : UnheardStays s t) (players : s.playersSound → t.PlayersHeld) : CallsStay s t.assignPlayers := by
  refine ⟨fun sound => ?_, ?_, fun held => State.assignPlayers_playersSound (players held)⟩
  · obtain ⟨sound', counted⟩ := calls sound
    refine ⟨?_, fun before => ?_⟩
    · rw [State.callsSound_iff] at sound' ⊢
      intro p
      rw [State.assignPlayers_pos]
      exact (sound' p).requeued (t.assignPlayers_queue p)
    · refine State.listenersCounted_of_same (fun p => ?_) (fun k => (t.assignPlayers_stream k).listeners) (counted before)
      rw [State.assignPlayers_pos]
  · exact (unheard.trans (.of_fetch t.assignPlayers_stream)).stoppedUnheard

end Sys2Proof.Machine
end


section
/-! PROOFS. Frame completions, the memory bus and the stream players leave positions' calls, listeners and prompt players
sound (R4, R31, R147, R150, R165, R166). -/

namespace Sys2Proof.Machine

/-! ## Statistics (R45, R75, R89, R165) -/

theorem State.fileOwner_callsKept (s : State) (p : Option Port) (k : EventKind) (o d : Nat) :
    CallsKept s (s.fileOwner p k o d) := .of_touches (s.fileOwner_touches p k o d) (by decide)

theorem State.echo1_callsKept (s : State) (p : Fin 64) : CallsKept s (s.echo1 p).2 := by
  unfold State.echo1
  split
  · next called =>
    have opened : (s.pos p).state ≠ .closed := fun shut => by rw [shut] at called; exact nomatch called
    unfold State.afterEcho
    dsimp only
    generalize echo : ({ s.echo with coefficients := _, positions := _ } : Echo) = e
    generalize (s.pos p).stats.afterEcho (s.echoFrame p) = stats
    have counted : CallsKept s (State.setPos { s with echo := e } p { s.pos p with stats := stats }) :=
      CallsKept.trans (t := { s with echo := e }) (.of_fields rfl rfl rfl)
        (State.setPos_callsKept _ p (.inl opened) rfl)
    split
    · exact counted.trans (State.fileOwner_callsKept _ _ _ _ _)
    · exact counted
  · exact .refl s

theorem State.echoFrames_callsKept (s : State) : CallsKept s s.echoFrames.2 :=
  foldl_keeps (P := fun acc : Table 64 Frame × State => CallsKept s acc.2)
    (fun acc p h => h.trans (acc.2.echo1_callsKept p)) (List.finRange 64) _ (.refl s)

theorem State.mix_callsKept (s : State) (m : MixInputs) : CallsKept s (s.mix m) := by
  refine ⟨fun p => ?_, fun p shut _ => ?_, fun _ => rfl, fun _ => rfl, fun _ => rfl, fun _ => id⟩
  · simp only [State.mix, State.pos, State.clippedCounted, Table.cell_build]
    split
    · rfl
    · rfl
  · simp only [State.mix, State.pos, State.clippedCounted, Table.cell_build]
    exact if_pos shut

/-! ## Streams at a frame completion (R147, R150, R151) -/

theorem State.endIfDone_callsKept (s : State) (k : Fin 16) : CallsKept s (s.endIfDone k) := by
  unfold State.endIfDone
  dsimp only
  split
  · refine CallsKept.trans ?_ (State.fileOwner_callsKept _ _ _ _ _)
    exact s.setStream_callsKept k rfl fun stopped => nomatch stopped
  · exact .refl s

theorem State.streamPlay_callsKept (s : State) (k : Fin 16) (y : StreamPlaying) : CallsKept s (s.streamPlay k y).2 := by
  unfold State.streamPlay
  dsimp only
  split
  · exact s.setStream_callsKept k rfl id
  · refine CallsKept.trans ?_ (State.endIfDone_callsKept _ k)
    exact s.setStream_callsKept k rfl id

theorem State.streamTake_callsKept (s : State) (k : Fin 16) (page : StreamPage) : CallsKept s (s.streamTake k page) := by
  refine CallsKept.trans ?_ (State.streamRequest_callsKept _ k)
  exact s.setStream_callsKept k rfl id

theorem State.streamStarve_callsKept (s : State) (k : Fin 16) (item : Nat) : CallsKept s (s.streamStarve k item) := by
  unfold State.streamStarve
  dsimp only
  split
  · exact .refl s
  · generalize starved : s.setStream k _ = t
    have kept : CallsKept s t := by
      rw [← starved]
      exact s.setStream_callsKept k rfl id
    split
    · exact kept
    · exact kept.trans (State.fileOwner_callsKept _ _ _ _ _)

theorem State.streamSample_callsKept (s : State) (k : Fin 16) : CallsKept s (s.streamSample k).2 := by
  unfold State.streamSample
  split
  · split
    · exact s.streamPlay_callsKept k _
    · split
      · exact (s.streamTake_callsKept k _).trans (State.streamPlay_callsKept _ k _)
      · exact s.streamStarve_callsKept k _
      · exact s.endIfDone_callsKept k
  · exact .refl s
  · exact .refl s

theorem streamSamples_callsKept (k : Fin 16) (n : Nat) (s : State) : CallsKept s (State.streamSamples k n s).2 := by
  induction n generalizing s with
  | zero => exact .refl s
  | succ n ih => exact (s.streamSample_callsKept k).trans (ih _)

theorem State.streamFrame_callsKept (s : State) (k : Fin 16) : CallsKept s (s.streamFrame k).2 := by
  by_cases running : (s.stream k).state = .running
  · rw [State.streamFrame_of_running running]
    dsimp only
    exact streamSamples_callsKept k 32 s
  · rw [State.streamFrame_of_not_running running]
    exact .refl s

theorem State.streamFrames_callsKept (s : State) : CallsKept s s.streamFrames.2 :=
  foldl_keeps (P := fun acc : Table 16 Frame × State => CallsKept s acc.2)
    (fun acc k h => h.trans (acc.2.streamFrame_callsKept k)) (List.finRange 16) _ (.refl s)

/-! ## Whisper frames (R164, R165) -/

theorem State.promptPlay_callsKept (s : State) (w : Fin 16) (y : PromptPlaying) : CallsKept s (s.promptPlay w y).2 :=
  s.setPlayer_callsKept w rfl

theorem State.promptTake_callsKept (s : State) (w : Fin 16) (page : PromptPage) : CallsKept s (s.promptTake w page) := by
  refine CallsKept.trans ?_ (State.promptRequest_callsKept _ w)
  exact s.setPlayer_callsKept w rfl

/-- A position that starves has a head that sounds, so its queue is not empty. -/
theorem State.whisperSample_callsKept (s : State) {p : Fin 64} (queued : s.queue p ≠ []) (w : Fin 16) :
    CallsKept s (s.whisperSample p w).2 := by
  unfold State.whisperSample
  split
  · exact s.promptPlay_callsKept w _
  · exact (s.promptTake_callsKept w _).trans (State.promptPlay_callsKept _ w _)
  · exact s.setPos_callsKept p (.inr queued) rfl
  · exact .refl s

theorem whisperSamples_callsKept {p : Fin 64} (w : Fin 16) (n : Nat) (s : State) (queued : s.queue p ≠ []) :
    CallsKept s (State.whisperSamples p w n s).2 := by
  induction n generalizing s with
  | zero => exact .refl s
  | succ n ih =>
    have first := s.whisperSample_callsKept queued w
    exact first.trans (ih _ (by rw [first.queue]; exact queued))

theorem State.whisperFrame_of_unheld {s : State} {p : Fin 64} (none : s.playerOf p = none) :
    s.whisperFrame p = (Frame.zero, s) := by
  unfold State.whisperFrame
  rw [none]
  split
  · rfl
  · rfl

theorem State.whisperFrame_callsKept (s : State) (p : Fin 64) : CallsKept s (s.whisperFrame p).2 := by
  cases player : s.playerOf p with
  | none =>
    rw [State.whisperFrame_of_unheld player]
    exact .refl s
  | some w =>
    by_cases sounds : s.sounding p = true
    · have queued : s.queue p ≠ [] := fun none => by
        rw [State.sounding_iff, none] at sounds
        exact nomatch sounds
      rw [State.whisperFrame_of_sounding player sounds]
      dsimp only
      exact whisperSamples_callsKept w 32 s queued
    · rw [State.whisperFrame_of_silent (Bool.eq_false_iff.mpr sounds)]
      exact .refl s

theorem State.whisperFrames_callsKept (s : State) : CallsKept s s.whisperFrames.2 :=
  foldl_keeps (P := fun acc : Table 64 Frame × State => CallsKept s acc.2)
    (fun acc p h => h.trans (acc.2.whisperFrame_callsKept p)) (List.finRange 64) _ (.refl s)

/-- Heads that begin to sound change nothing of a queue but phases. -/
theorem State.soundHeads_stay (s : State) : CallsStay s s.soundHeads := by
  have streams : s.soundHeads.streams = s.streams := s.soundHeads_touches .streams (by decide)
  have pos : s.soundHeads.pos = s.pos := by
    unfold State.pos
    rw [s.soundHeads_touches .positions (by decide)]
  refine ⟨fun sound => ⟨?_, ?_⟩, (UnheardStays.of_streams streams).stoppedUnheard, State.soundHeads_playersSound⟩
  · rw [State.callsSound_iff] at sound ⊢
    intro p
    rw [pos]
    refine (sound p).requeued ?_
    rw [State.soundHeads_queue]
    split
    · exact withHeadPhase_asWaiting _ _
    · rfl
  · exact State.listenersCounted_of_same (fun p => by rw [pos]) fun k => by unfold State.stream; rw [streams]

/-! ## The end of an announcement (R31, R33) -/

theorem State.dropListener_state (s : State) (named : Option (Fin 16)) (k : Fin 16) :
    ((s.dropListener named).stream k).state = (s.stream k).state := by
  cases named with
  | none => rfl
  | some j =>
    unfold State.dropListener
    rw [State.setStream_stream]
    split
    · next same => rw [same]
    · rfl

theorem State.announceEnded_listeners (s : State) (p : Fin 64) (cancelled : Bool) (k : Fin 16) :
    ((s.announceEnded p cancelled).stream k).listeners = if (s.pos p).state = .announce ∧ (s.pos p).stream = some k
      then (s.stream k).listeners - 1 else (s.stream k).listeners := by
  unfold State.announceEnded
  dsimp only
  rw [State.fileOwner_stream]
  cases state : (s.pos p).state with
  | announce =>
    simp only [true_and]
    exact State.dropListener_listeners _ _ k
  | closed | idle | connected | held => exact (if_neg fun h => nomatch h.1).symm

theorem State.announceEnded_state (s : State) (p : Fin 64) (cancelled : Bool) (k : Fin 16) :
    ((s.announceEnded p cancelled).stream k).state = (s.stream k).state := by
  unfold State.announceEnded
  dsimp only
  rw [State.fileOwner_stream]
  cases state : (s.pos p).state with
  | announce => exact State.dropListener_state _ _ k
  | closed | idle | connected | held => rfl

theorem Position.announced_stream (x : Position) :
    x.announced.stream = if x.state = .announce then none else x.stream := by
  unfold Position.announced
  cases state : x.state with
  | announce => exact (if_pos rfl).symm
  | closed | idle | connected | held => exact (if_neg nofun).symm

/-- The end of an announcement gives up the stream that the position names while it announces. -/
theorem announced_listeners {x : Position} {k : Fin 16} {l l' : Nat} (counted : x.stream = some k → 1 ≤ l)
    (dropped : l' = if x.state = .announce ∧ x.stream = some k then l - 1 else l) :
    l' + (if x.stream = some k then 1 else 0) = l + if x.announced.stream = some k then 1 else 0 := by
  rw [dropped, Position.announced_stream]
  by_cases named : x.stream = some k
  · have some := counted named
    by_cases state : x.state = .announce
    · simp [named, state]; omega
    · simp [named, state]
  · simp [named]

theorem UnheardStays.of_fewer {s t : State} (state : ∀ k, (t.stream k).state = (s.stream k).state)
    (fewer : ∀ k, (t.stream k).listeners ≤ (s.stream k).listeners) : UnheardStays s t := fun k stopped =>
  .inr ⟨(state k).symm.trans stopped, fewer k⟩

/-! ## Entries that end (R166) -/

/-- An ended entry, and the announcement that ends with it, before players are assigned. -/
def State.entryEnded (s : State) (p : Fin 64) (w : Fin 16) (e : Entry) (rest : List Entry) : State :=
  if e.kind = .announce then (s.entryDone p w e rest).announceEnded p false else s.entryDone p w e rest

theorem State.entryDone_stream (s : State) (p : Fin 64) (w : Fin 16) (e : Entry) (rest : List Entry) :
    (s.entryDone p w e rest).stream = s.stream :=
  State.file_keeps State.stream (fun _ _ => rfl) _ _ _ _ _

section
variable {s : State} {p : Fin 64} {e : Entry} {rest : List Entry}

theorem State.entryEnded_pos (s : State) (p q : Fin 64) (w : Fin 16) (e : Entry) (rest : List Entry) :
    (s.entryEnded p w e rest).pos q = if p = q ∧ e.kind = .announce then (s.pos p).announced else s.pos q := by
  unfold State.entryEnded
  split
  · next announce => rw [State.announceEnded_pos, State.entryDone_pos, State.entryDone_pos]; simp [announce]
  · next prompt => rw [State.entryDone_pos]; simp [prompt]

theorem State.entryEnded_whisper (s : State) (p : Fin 64) (w : Fin 16) (e : Entry) (rest : List Entry) :
    (s.entryEnded p w e rest).whisper = (s.entryDone p w e rest).whisper := by
  unfold State.entryEnded
  split
  · exact State.announceEnded_touches _ p false .whisper (by decide)
  · rfl

theorem State.entryEnded_queue (s : State) (p q : Fin 64) (w : Fin 16) (e : Entry) (rest : List Entry) :
    (s.entryEnded p w e rest).queue q = if p = q then rest else s.queue q := by
  unfold State.queue
  rw [State.entryEnded_whisper, State.entryDone_whisper]
  exact Table.cell_put ..

theorem State.entryEnded_listeners (s : State) (p : Fin 64) (w : Fin 16) (e : Entry) (rest : List Entry) (k : Fin 16) :
    ((s.entryEnded p w e rest).stream k).listeners
      = if e.kind = .announce ∧ (s.pos p).state = .announce ∧ (s.pos p).stream = some k
        then (s.stream k).listeners - 1 else (s.stream k).listeners := by
  unfold State.entryEnded
  split
  · next announce => rw [State.announceEnded_listeners, State.entryDone_pos, State.entryDone_stream]; simp [announce]
  · next prompt => rw [State.entryDone_stream]; simp [prompt]

theorem State.entryEnded_state (s : State) (p : Fin 64) (w : Fin 16) (e : Entry) (rest : List Entry) (k : Fin 16) :
    ((s.entryEnded p w e rest).stream k).state = (s.stream k).state := by
  unfold State.entryEnded
  split
  · rw [State.announceEnded_state, State.entryDone_stream]
  · rw [State.entryDone_stream]

theorem announceOrigins_cons_announce (announce : e.kind = .announce) :
    announceOrigins (e :: rest) = some e.origin :: announceOrigins rest := by
  unfold announceOrigins
  rw [List.filter_cons_of_pos (by rw [announce]; rfl)]
  rfl

theorem announceOrigins_cons_prompt (prompt : e.kind ≠ .announce) : announceOrigins (e :: rest) = announceOrigins rest := by
  unfold announceOrigins
  rw [List.filter_cons_of_neg (by simpa using prompt)]

theorem CallOf.single {x : Position} {q : List Entry} (h : CallOf x q) {o : Option Port} {l : List (Option Port)}
    (more : announceOrigins q = o :: l) : l = [] := by
  have queued := h.queued
  rw [more] at queued
  split at queued
  · exact (List.cons.inj queued).2
  · exact nomatch queued

theorem State.entryEnded_change (s : State) (p : Fin 64) (w : Fin 16) (e : Entry) (rest : List Entry) :
    CallChange s (s.entryEnded p w e rest) p where
  others q apart := by rw [State.entryEnded_pos, if_neg fun h => apart h.1.symm]
  queues q apart := by rw [State.entryEnded_queue, if_neg (Ne.symm apart)]
  listeners k counted := by
    rw [State.entryEnded_listeners]
    by_cases announce : e.kind = .announce
    · rw [State.entryEnded_pos, if_pos (And.intro rfl announce)]
      exact announced_listeners counted (by simp [announce])
    · rw [State.entryEnded_pos, if_neg fun h => announce (And.right h), if_neg fun h => announce (And.left h)]

theorem CallOf.entryEnded (h : CallOf (s.pos p) (s.queue p)) (queue : s.queue p = e :: rest) (w : Fin 16) :
    CallOf ((s.entryEnded p w e rest).pos p) ((s.entryEnded p w e rest).queue p) := by
  have opened := h.opened_of_queue (by rw [queue]; exact List.cons_ne_nil e rest)
  rw [State.entryEnded_pos, State.entryEnded_queue, if_pos rfl]
  rw [queue] at h
  by_cases announce : e.kind = .announce
  · have origins := announceOrigins_cons_announce (rest := rest) announce
    rw [if_pos ⟨rfl, announce⟩]
    exact h.announced (by rw [origins]; exact List.cons_ne_nil _ _) (h.single origins)
  · rw [if_neg fun k => announce k.2]
    exact h.of_same rfl (fun shut => absurd shut opened) (announceOrigins_cons_prompt announce).symm

theorem State.entryEnded_unheardStays (s : State) (p : Fin 64) (w : Fin 16) (e : Entry) (rest : List Entry) :
    UnheardStays s (s.entryEnded p w e rest) := .of_fewer (s.entryEnded_state p w e rest) fun k => by
  rw [State.entryEnded_listeners]
  split
  · exact Nat.sub_le _ 1
  · exact Nat.le_refl _

theorem State.completeEntry_stay {w : Fin 16} (queue : s.queue p = e :: rest) (player : s.playerOf p = some w) :
    CallsStay s (s.completeEntry p w e) := by
  rw [State.completeEntry_eq queue]
  refine State.assignPlayers_stay (t := s.entryEnded p w e rest) (fun sound => ?_)
    (s.entryEnded_unheardStays p w e rest) fun players => ?_
  · have change := s.entryEnded_change p w e rest
    exact ⟨change.callsSound sound (((State.callsSound_iff s).mp sound p).entryEnded queue w), change.listenersCounted⟩
  · exact (State.entryDone_playersHeld ((State.playersSound_iff s).mp players).1 queue player).of_whisper
      (s.entryEnded_whisper p w e rest)

end

theorem State.completeHead_stay (s : State) (p : Fin 64) : CallsStay s (s.completeHead p) := by
  cases queue : s.queue p with
  | nil =>
    have idle : s.completeHead p = s := by unfold State.completeHead; rw [queue]; rfl
    rw [idle]
    exact .refl s
  | cons e rest =>
    cases player : s.playerOf p with
    | none =>
      have idle : s.completeHead p = s := by unfold State.completeHead; rw [queue, player]; rfl
      rw [idle]
      exact .refl s
    | some w =>
      rw [State.completeHead_eq player queue]
      split
      · exact State.completeEntry_stay queue player
      · exact .refl s

/-! ## Frame completions and due effects (R4, R18) -/

theorem State.framed_stay (s : State) : CallsStay s s.framed := by
  have streams : CallsKept s s.stamped.echoFrames.2.suppressFrames.streamFrames.2 :=
    ((CallsKept.trans (s := s) (t := s.stamped) (.of_fields rfl rfl rfl) s.stamped.echoFrames_callsKept).trans
      (.of_touches (State.suppressFrames_touches _) (by decide))).trans (State.streamFrames_callsKept _)
  have whisper : CallsStay s s.preMix :=
    (streams.stay.trans (State.soundHeads_stay _)).trans (State.whisperFrames_callsKept _).stay
  have ducked := whisper.trans (CallsKept.of_touches s.preMix.updateCoachDuck_touches (by decide)).stay
  exact (ducked.trans (State.mix_callsKept _ _).stay).trans (CallsKept.of_touches
    ((State.beginFrame_touches _).trans (State.pastFirstFrame_touches _)) (by decide)).stay

theorem State.settle_stay (s : State) : CallsStay s s.settle := by
  have debounced : CallsStay s s.settleDebounce := (CallsKept.of_touches s.settleDebounce_touches (by decide)).stay
  unfold State.settle State.settleFrame
  split
  · rw [State.completeFrame_eq]
    exact (debounced.trans (State.framed_stay _)).trans (CallsStay.foldl State.completeHead_stay _ _)
  · exact debounced

/-! ## The memory bus (R128, R130, R132) -/

theorem State.readFound_callsKept (s : State) (page finder : Nat) (upsets : List WordUpset) :
    CallsKept s ((s.freeBus.struck page upsets).counted page finder) :=
  ((CallsKept.of_touches s.freeBus_touches (by decide)).trans (.of_touches (State.struck_touches _ page upsets) (by decide))).trans
    (.of_touches (State.counted_touches _ page finder) (by decide))

theorem State.fetchCompleted_callsKept (s : State) (f : Fetch) (upsets : List WordUpset) :
    CallsKept s (s.fetchCompleted f upsets) :=
  ((s.readFound_callsKept f.page _ upsets).trans (State.deliver_callsKept _ f _)).trans (State.grant_callsKept _)

theorem State.writeCompleted_callsKept (s : State) (p : Port) (clip : Fin 256) (index page : Nat) (codes : PageCodes)
    (noted : Bool) : CallsKept s (s.writeCompleted p clip index page codes noted) := by
  have freed := CallsKept.of_touches s.freeBus_touches (by decide)
  have written := fun m => freed.trans (.of_touches (State.setMemory_touches _ m) (by decide))
  have unlisted := fun m => (written m).trans (.of_touches (State.unlist_touches _ page) (by decide))
  have marked := fun m => (unlisted m).trans (.of_touches (State.writeNoted_touches _ p clip index noted) (by decide))
  exact ((marked _).trans (.of_touches (State.answer_touches _ p _ _) (by decide))).trans (State.grant_callsKept _)

theorem State.readCompleted_callsKept (s : State) (p : Port) (clip : Fin 256) (index page : Nat)
    (upsets : List WordUpset) : CallsKept s (s.readCompleted p clip index page upsets) :=
  ((s.readFound_callsKept page _ upsets).trans (.of_touches (State.readReply_touches _ p clip index _ _) (by decide))).trans
    (State.grant_callsKept _)

theorem State.scrubPage_callsKept (s : State) (page : Nat) (upsets : List WordUpset) :
    CallsKept s (s.scrubPage page upsets) := by
  have found : CallsKept s ((s.struck page upsets).counted page 0) :=
    (CallsKept.of_touches (s.struck_touches page upsets) (by decide)).trans (.of_touches (State.counted_touches _ page 0) (by decide))
  unfold State.scrubPage
  dsimp only
  split
  · exact .refl s
  · split
    · exact found
    · exact found.trans (.of_touches (State.setMemory_touches _ _) (by decide))

theorem State.scrubCompleted_callsKept (s : State) (upsets : List WordUpset) : CallsKept s (s.scrubCompleted upsets) :=
  (((CallsKept.of_touches s.freeBus_touches (by decide)).trans (State.scrubPage_callsKept _ _ upsets)).trans
    (.of_touches (State.advanceScrub_touches _) (by decide))).trans (State.grant_callsKept _)

theorem State.admitOp_callsKept (s : State) (p : Port) (op : PortOp) : CallsKept s (s.admitOp p op) :=
  CallsKept.trans (t := s.setArbiter { s.arbiter with pendingOps := s.arbiter.pendingOps.put p (some op) })
    (.of_fields rfl rfl rfl) (State.grant_callsKept _)

/-! ## Requests for streams (R142 to R144) -/

theorem State.startAccepted_stay (s : State) (p : Port) (k : Fin 16) (l : Playlist) :
    CallsStay s (s.startAccepted p k l) := by
  have noted : CallsKept s (s.acceptItems p l.items) := .of_touches (s.acceptItems_touches p l.items) (by decide)
  refine CallsStay.answered (noted.trans (CallsKept.trans ?_ (State.streamRequest_callsKept _ k))).stay p _ _
  exact State.setStream_callsKept _ k rfl fun stopped => nomatch stopped

theorem State.switch_callsKept (s : State) (k : Fin 16) (i : Nat) : CallsKept s (s.switch k i) :=
  .of_grantParts (s.switch_touches k i .positions (by decide))
    (fun p => congrArg (fun x : Whisper => x.queues.cell p) (s.switch_touches k i .whisper (by decide)))
    (fun w => by unfold State.player; rw [s.switch_touches k i .whisper (by decide)]; exact .refl _)
    fun j => s.switch_stream k j i

theorem State.loadAccepted_stay (s : State) (p : Port) (k : Fin 16) (l : Playlist) :
    CallsStay s (s.loadAccepted p k l) := by
  have noted : CallsKept s (s.acceptItems p l.items) := .of_touches (s.acceptItems_touches p l.items) (by decide)
  have dropped := fun x => noted.trans (.of_touches (State.dropPlays_touches _ x) (by decide))
  unfold State.loadAccepted
  dsimp only
  split
  · have restarted := fun x => State.setStream_callsKept ((s.acceptItems p l.items).dropPlays x) k
      (x := ((s.acceptItems p l.items).stream k).restarted l) (by rw [State.dropPlays_stream]; rfl)
      fun stopped => nomatch stopped
    exact (((dropped _).trans (restarted _)).trans (State.streamRequest_callsKept _ k)).stay.answered p _ _
  · next running =>
    have stored : CallsKept s ((((s.acceptItems p l.items).dropPlays ((s.acceptItems p l.items).stream k).staged).setStream k
        { (s.acceptItems p l.items).stream k with staged := some l })) := by
      refine (dropped _).trans (State.setStream_callsKept _ k ?_ ?_) <;> rw [State.dropPlays_stream]
      exact id
    split
    · exact CallsStay.answered ((stored.trans (State.switch_callsKept _ k _)).trans
        (State.streamRequest_callsKept _ k)).stay p _ _
    · exact stored.stay.answered p _ _
  · exact noted.stay.answered p _ _

theorem State.stopStream_stream (s : State) (k j : Fin 16) :
    (s.stopStream k).stream j = if k = j then (s.stream k).stoppedFrom else s.stream j := by
  show (State.setStream _ k (s.stream k).stoppedFrom).stream j = _
  rw [State.setStream_stream, State.dropPlays_stream, State.dropPlays_stream]

/-- What changes no position and no prompt player, and no stream's listeners. -/
theorem CallsStay.of_streams {s t : State} (positions : t.positions = s.positions) (whisper : t.whisper = s.whisper)
    (listeners : ∀ k, (t.stream k).listeners = (s.stream k).listeners) (unheard : UnheardStays s t) : CallsStay s t := by
  have pos : t.pos = s.pos := by unfold State.pos; rw [positions]
  refine ⟨fun sound => ⟨fun p => ?_, ?_⟩, unheard.stoppedUnheard, fun players =>
    State.playersSound_of_whisper players whisper⟩
  · unfold State.callSound State.announcements State.queue
    rw [pos, whisper]
    exact sound p
  · exact State.listenersCounted_of_same (fun p => by rw [pos]) listeners

theorem State.stopStream_stay (s : State) (k : Fin 16) (unheard : (s.stream k).listeners = 0) :
    CallsStay s (s.stopStream k) := by
  have touched := s.stopStream_touches k
  refine .of_streams (touched .positions (by decide)) (touched .whisper (by decide)) (fun j => ?_) fun j stopped => ?_ <;>
    rw [State.stopStream_stream] at *
  · split
    · next same => rw [← same]; rfl
    · rfl
  · split
    · exact .inl unheard
    · next apart =>
      rw [if_neg apart] at stopped
      exact .inr ⟨stopped, Nat.le_refl _⟩

end Sys2Proof.Machine
end


section
/-! PROOFS. The requests of the position controller and of the whisper block leave positions' calls, listeners and prompt
players sound (R24 to R45, R158 to R161). -/

namespace Sys2Proof.Machine

/-! ## Flushes (R160, R161) -/

theorem Position.announced_state (x : Position) : x.announced.state ≠ .announce := by
  unfold Position.announced
  cases state : x.state with
  | announce => nofun
  | closed | idle | connected | held => simp [state]

theorem State.flushed_streams (s : State) (p : Fin 64) (cause : FlushCause) (e : Entry) (k : Fin 16) :
    ((s.flushed p cause e).stream k).state = (s.stream k).state
      ∧ ((s.flushed p cause e).stream k).listeners = if (cause = .cancel ∧ e.kind = .announce)
          ∧ (s.pos p).state = .announce ∧ (s.pos p).stream = some k
        then (s.stream k).listeners - 1 else (s.stream k).listeners := by
  have player : Touches [.clipStore, .whisper, .arbiter] s
      (if e.phase = .waiting then s.dropPlay e.clip else (s.dropPlay e.clip).flushPlayer p) := by
    have dropped := (s.dropPlay_touches e.clip).mono (b := [.clipStore, .whisper, .arbiter]) (by decide)
    exact Touches.ite _ dropped (dropped.trans ((State.flushPlayer_touches _ p).mono (by decide)))
  unfold State.flushed
  dsimp only
  generalize (if e.phase = .waiting then s.dropPlay e.clip else (s.dropPlay e.clip).flushPlayer p) = u at player ⊢
  have filed := (player.mono (b := [.clipStore, .whisper, .arbiter, .events]) (by decide)).trans
    ((u.file_touches e.origin .promptFlushed p.val (e.detail + 4096 * cause.number)).mono (by decide))
  generalize u.file e.origin .promptFlushed p.val (e.detail + 4096 * cause.number) = v at filed ⊢
  have pos : v.pos = s.pos := by unfold State.pos; rw [filed .positions (by decide)]
  have stream : v.stream = s.stream := by unfold State.stream; rw [filed .streams (by decide)]
  by_cases cancelled : cause = .cancel ∧ e.kind = .announce
  · rw [if_pos (by simp [cancelled]), State.announceEnded_state, State.announceEnded_listeners, pos, stream]
    simp [cancelled]
  · rw [if_neg (by simpa using cancelled), stream]
    exact ⟨rfl, (if_neg fun h => cancelled h.1).symm⟩

theorem State.flush_streams (s : State) (p : Fin 64) (cause : FlushCause) (chosen : Entry → Bool) (k : Fin 16) :
    ((s.flush p cause chosen).stream k).state = (s.stream k).state
      ∧ ((s.flush p cause chosen).stream k).listeners
        = if (cause = .cancel ∧ ((s.queue p).filter chosen).any (fun e => e.kind = .announce) = true)
            ∧ (s.pos p).state = .announce ∧ (s.pos p).stream = some k
          then (s.stream k).listeners - 1 else (s.stream k).listeners := by
  have fold : ∀ (l : List Entry) (t : State), ((l.foldl (fun s e => s.flushed p cause e) t).stream k).state = (t.stream k).state
      ∧ ((l.foldl (fun s e => s.flushed p cause e) t).stream k).listeners
        = if (cause = .cancel ∧ l.any (fun e => e.kind = .announce) = true) ∧ (t.pos p).state = .announce
            ∧ (t.pos p).stream = some k
          then (t.stream k).listeners - 1 else (t.stream k).listeners := by
    intro l
    induction l with
    | nil => intro t; simp
    | cons e l ih =>
      intro t
      obtain ⟨state, listeners⟩ := ih (t.flushed p cause e)
      obtain ⟨state', listeners'⟩ := t.flushed_streams p cause e k
      refine ⟨state.trans state', ?_⟩
      rw [List.foldl_cons, listeners, listeners', State.flushed_pos]
      by_cases announce : e.kind = .announce
      · by_cases cancel : cause = .cancel
        · simp [cancel, announce, Position.announced_state]
        · simp [cancel]
      · simp [announce]
  exact fold _ _

theorem State.flush_unheardStays (s : State) (p : Fin 64) (cause : FlushCause) (chosen : Entry → Bool) :
    UnheardStays s (s.flush p cause chosen) := .of_fewer (fun k => (s.flush_streams p cause chosen k).1) fun k => by
  rw [(s.flush_streams p cause chosen k).2]
  split
  · exact Nat.sub_le _ 1
  · exact Nat.le_refl _

theorem State.flush_change (s : State) (p : Fin 64) (cause : FlushCause) (chosen : Entry → Bool) :
    CallChange s (s.flush p cause chosen) p where
  others q apart := by rw [State.flush_pos, if_neg fun h => apart h.1.symm]
  queues q apart := by rw [State.flush_queue, if_neg (Ne.symm apart)]
  listeners k counted := by
    obtain ⟨-, listeners⟩ := s.flush_streams p cause chosen k
    rw [State.flush_pos]
    by_cases ended : cause = .cancel ∧ ((s.queue p).filter chosen).any (fun e => e.kind = .announce) = true
    · rw [if_pos (And.intro rfl ended)]
      exact announced_listeners counted (by rw [listeners]; simp only [ended, and_self, true_and])
    · rw [if_neg fun h => ended (And.right h), listeners, if_neg fun h => ended (And.left h)]

theorem announceOrigins_eq_nil {q : List Entry} : announceOrigins q = [] ↔ ∀ e ∈ q, e.kind ≠ .announce := by
  unfold announceOrigins
  simp [List.filter_eq_nil_iff]

theorem announceOrigins_unchosen {q : List Entry} {chosen : Entry → Bool}
    (kept : ∀ e ∈ q, chosen e = true → e.kind ≠ .announce) :
    announceOrigins (q.filter fun e => !chosen e) = announceOrigins q := by
  unfold announceOrigins
  rw [List.filter_filter]
  congr 1
  refine List.filter_congr fun e member => ?_
  by_cases picked : chosen e = true
  · simp [kept e member picked]
  · simp [picked]

/-- There is one announcement at most: when a flush takes it none is left. -/
theorem CallOf.unchosen_none {x : Position} {q : List Entry} (h : CallOf x q) {chosen : Entry → Bool} {e : Entry}
    (member : e ∈ q) (picked : chosen e = true) (announce : e.kind = .announce) :
    announceOrigins (q.filter fun e => !chosen e) = [] := by
  have most : (q.filter fun e => e.kind = .announce).length ≤ 1 := by
    have count := congrArg List.length h.queued
    unfold announceOrigins at count
    rw [List.length_map] at count
    rw [count]
    split
    · exact Nat.le_refl 1
    · exact Nat.zero_le 1
  rw [announceOrigins_eq_nil]
  intro f kept other
  obtain ⟨member', unpicked⟩ := List.mem_filter.mp kept
  have both : e ∈ q.filter (fun e => e.kind = .announce) ∧ f ∈ q.filter (fun e => e.kind = .announce) :=
    ⟨List.mem_filter.mpr ⟨member, decide_eq_true announce⟩, List.mem_filter.mpr ⟨member', decide_eq_true other⟩⟩
  have same : e = f := by
    obtain ⟨g, one⟩ := List.length_eq_one_iff.mp (Nat.le_antisymm most (List.length_pos_of_mem both.1))
    rw [one, List.mem_singleton, List.mem_singleton] at both
    exact both.1.trans both.2.symm
  rw [← same, picked] at unpicked
  exact nomatch unpicked

theorem CallOf.flushed_cancel {s : State} {p : Fin 64} (h : CallOf (s.pos p) (s.queue p)) (chosen : Entry → Bool) :
    CallOf ((s.flush p .cancel chosen).pos p) ((s.flush p .cancel chosen).queue p) := by
  rw [State.flush_pos, State.flush_queue, if_pos rfl]
  by_cases ended : ((s.queue p).filter chosen).any (fun e => e.kind = .announce) = true
  · obtain ⟨e, found, announce⟩ := List.any_eq_true.mp ended
    obtain ⟨member, picked⟩ := List.mem_filter.mp found
    have announce := of_decide_eq_true announce
    rw [if_pos ⟨rfl, rfl, ended⟩]
    refine h.announced (fun none => announceOrigins_eq_nil.mp none e member announce) (h.unchosen_none member picked announce)
  · rw [if_neg fun k => ended k.2.2]
    refine h.of_same rfl (fun shut => ⟨rfl, ?_⟩) (announceOrigins_unchosen fun e member picked announce => ended ?_)
    · rw [(h.closed shut).2]; rfl
    · exact List.any_eq_true.mpr ⟨e, List.mem_filter.mpr ⟨member, picked⟩, decide_eq_true announce⟩

theorem State.cancelAccepted_stay (s : State) (port : Port) (p : Fin 64) : CallsStay s (s.cancelAccepted port p) := by
  refine CallsStay.answered (State.assignPlayers_stay (fun sound => ?_) (s.flush_unheardStays p _ _) fun players => ?_) port _ _
  · have change := s.flush_change p .cancel (s.cancelled port p)
    exact ⟨change.callsSound sound (((State.callsSound_iff s).mp sound p).flushed_cancel _), change.listenersCounted⟩
  · exact State.flush_playersHeld ((State.playersSound_iff s).mp players).1 p _ _

/-! ## Releases and closures (R25, R30) -/

theorem State.dropListener_unheardStays (s : State) (named : Option (Fin 16)) : UnheardStays s (s.dropListener named) :=
  .of_fewer (s.dropListener_state named) fun k => by
    rw [State.dropListener_listeners]
    split
    · exact Nat.sub_le _ 1
    · exact Nat.le_refl _

theorem UnheardStays.of_streams_eq {s t u : State} (same : u.streams = t.streams) (h : UnheardStays s t) : UnheardStays s u :=
  h.trans (.of_streams same)

section
variable {cause : FlushCause} (other : cause ≠ .cancel) (s : State) (p : Fin 64)
include other

theorem State.releasing_queue (q : Fin 64) : (s.releasing p cause).queue q = if p = q then [] else s.queue q := by
  have after : (s.releasing p cause).whisper = (s.flush p cause fun _ => true).whisper :=
    s.releasing_after_flush other p .whisper (by decide)
  have flushed := s.flush_queue p q cause fun _ => true
  unfold State.queue at flushed ⊢
  rw [after, flushed]
  simp

theorem State.closing_queue (q : Fin 64) : (s.closing p cause).queue q = if p = q then [] else s.queue q := by
  have after : (s.closing p cause).whisper = (s.flush p cause fun _ => true).whisper :=
    s.closing_after_flush other p .whisper (by decide)
  have flushed := s.flush_queue p q cause fun _ => true
  unfold State.queue at flushed ⊢
  rw [after, flushed]
  simp

theorem State.releasing_listeners (k : Fin 16) : ((s.releasing p cause).stream k).listeners
    = if (s.pos p).stream = some k then (s.stream k).listeners - 1 else (s.stream k).listeners := by
  rw [← State.dropListener_listeners]
  unfold State.stream
  rw [s.releasing_streams other p]

theorem State.releasing_change : CallChange s (s.releasing p cause) p where
  others q apart := by rw [State.releasing_pos other, if_neg (Ne.symm apart)]
  queues q apart := by rw [State.releasing_queue other, if_neg (Ne.symm apart)]
  listeners k counted := by
    rw [State.releasing_listeners other, State.releasing_pos other, if_pos rfl,
      if_neg (show (s.pos p).released.stream ≠ some k from nofun)]
    split
    · next named => exact Nat.sub_add_cancel (counted named)
    · rfl

theorem State.closing_change (unnamed : (s.pos p).stream = none) : CallChange s (s.closing p cause) p where
  others q apart := by rw [State.closing_pos other, if_neg (Ne.symm apart)]
  queues q apart := by rw [State.closing_queue other, if_neg (Ne.symm apart)]
  listeners k _ := by
    rw [State.closing_pos other, if_pos rfl, unnamed]
    unfold State.stream
    rw [s.closing_quietCloseParts other p .streams (by decide)]
    rfl

theorem State.releasing_callsSound (opened : (s.pos p).state ≠ .closed) (sound : s.callsSound) :
    (s.releasing p cause).callsSound := by
  refine (s.releasing_change other p).callsSound sound ?_
  rw [State.releasing_pos other, State.releasing_queue other, if_pos rfl, if_pos rfl]
  exact .of_quiet nofun (((State.callsSound_iff s).mp sound p).owned opened) rfl rfl nofun rfl

theorem State.closing_callsSound (unnamed : (s.pos p).stream = none) (sound : s.callsSound) :
    (s.closing p cause).callsSound := by
  refine (s.closing_change other p unnamed).callsSound sound ?_
  rw [State.closing_pos other, State.closing_queue other, if_pos rfl, if_pos rfl]
  exact .closedContents

theorem State.releasing_unheardStays : UnheardStays s (s.releasing p cause) :=
  (s.dropListener_unheardStays _).of_streams_eq (s.releasing_streams other p)

theorem State.closing_unheardStays : UnheardStays s (s.closing p cause) :=
  .of_streams (s.closing_quietCloseParts other p .streams (by decide))

theorem State.releasing_playersHeld (h : s.PlayersHeld) : (s.releasing p cause).PlayersHeld :=
  (State.flush_playersHeld h p cause fun _ => true).of_whisper (s.releasing_after_flush other p .whisper (by decide))

theorem State.closing_playersHeld (h : s.PlayersHeld) : (s.closing p cause).PlayersHeld :=
  (State.flush_playersHeld h p cause fun _ => true).of_whisper (s.closing_after_flush other p .whisper (by decide))

end

/-- What is in no call names no stream. -/
theorem CallOf.unnamed {x : Position} {q : List Entry} (h : CallOf x q) (out : x.state.inCall = false) : x.stream = none := by
  cases stream : x.stream with
  | none => rfl
  | some k =>
    rcases h.named (by rw [stream]; rfl) with state | state
    · rw [state] at out; exact nomatch out
    · rw [state] at out; exact nomatch out

theorem State.released_stay (s : State) (port : Port) (p : Fin 64) (opened : (s.pos p).state ≠ .closed) :
    CallsStay s (((s.releasing p .release).assignPlayers).answer port .ok []) := by
  refine CallsStay.answered (State.assignPlayers_stay (fun sound => ?_) (s.releasing_unheardStays (by decide) p)
    fun players => ?_) port _ _
  · exact ⟨s.releasing_callsSound (by decide) p opened sound, (s.releasing_change (by decide) p).listenersCounted⟩
  · exact s.releasing_playersHeld (by decide) p ((State.playersSound_iff s).mp players).1

theorem State.closed_stay (s : State) (port : Port) (p : Fin 64) (out : (s.pos p).state.inCall = false) :
    CallsStay s (((s.closing p .close).assignPlayers).answer port .ok []) := by
  refine CallsStay.answered (State.assignPlayers_stay (fun sound => ?_) (s.closing_unheardStays (by decide) p)
    fun players => ?_) port _ _
  · have unnamed := ((State.callsSound_iff s).mp sound p).unnamed out
    exact ⟨s.closing_callsSound (by decide) p unnamed sound, (s.closing_change (by decide) p unnamed).listenersCounted⟩
  · exact s.closing_playersHeld (by decide) p ((State.playersSound_iff s).mp players).1

end Sys2Proof.Machine
end


section
/-! PROOFS. The requests that open positions, connect, hold and retrieve calls, hand positions over and queue whisper entries
leave positions' calls, listeners and prompt players sound (R24, R26 to R29, R34 to R39, R45, R158, R159). -/

namespace Sys2Proof.Machine

/-! ## Listeners gained (R33) -/

theorem State.addListener_state (s : State) (named : Option (Fin 16)) (k : Fin 16) :
    ((s.addListener named).stream k).state = (s.stream k).state := by
  cases named with
  | none => rfl
  | some j =>
    unfold State.addListener
    rw [State.setStream_stream]
    split
    · next same => rw [same]
    · rfl

/-- A position comes to name no STOPPED stream. -/
theorem State.addListener_unheardStays (s : State) {named : Option (Fin 16)} (going : s.namedStopped named = false) :
    UnheardStays s (s.addListener named) := fun k stopped => by
  rw [State.addListener_state] at stopped
  have apart : named ≠ some k := fun same => by
    rw [same] at going
    exact absurd (decide_eq_true stopped) (Bool.eq_false_iff.mp going)
  rw [State.addListener_listeners, if_neg apart]
  exact .inr ⟨stopped, Nat.le_refl _⟩

section
variable {s t u : State} {p : Fin 64}

/-- What follows a change of one position's call may queue entries for the same position. -/
theorem CallChange.queued (h : CallChange s t p) (positions : u.positions = t.positions) (streams : u.streams = t.streams)
    (queues : ∀ q, q ≠ p → u.queue q = t.queue q) : CallChange s u p := by
  have pos : u.pos = t.pos := by unfold State.pos; rw [positions]
  have stream : u.stream = t.stream := by unfold State.stream; rw [streams]
  refine ⟨fun q apart => ?_, fun q apart => ?_, fun k => ?_⟩
  · rw [pos]; exact h.others q apart
  · rw [queues q apart]; exact h.queues q apart
  · rw [pos, stream]; exact h.listeners k

/-- A record that names the same stream takes the place of another. -/
theorem CallChange.of_put {x : Position} (positions : t.positions = s.positions.put p x) (streams : t.streams = s.streams)
    (queues : ∀ q, q ≠ p → t.queue q = s.queue q) (named : x.stream = (s.pos p).stream) : CallChange s t p := by
  have pos : ∀ q, t.pos q = if p = q then x else s.pos q := fun q => by
    unfold State.pos
    rw [positions, Table.cell_put]
  refine ⟨fun q apart => ?_, fun q apart => by rw [queues q apart], fun k _ => ?_⟩
  · rw [pos, if_neg (Ne.symm apart)]
  · rw [pos, if_pos rfl, named]
    unfold State.stream
    rw [streams]

theorem State.pos_of_put {x : Position} (positions : t.positions = s.positions.put p x) : t.pos p = x := by
  unfold State.pos
  rw [positions, Table.cell_put, if_pos rfl]

theorem State.pos_of_positions (h : t.positions = s.positions) : t.pos = s.pos := by
  unfold State.pos
  rw [h]

theorem State.queue_of_whisper (h : t.whisper = s.whisper) (q : Fin 64) : t.queue q = s.queue q := by
  unfold State.queue
  rw [h]

/-- A change of one position's call that leaves the queues and prompt players as they are. -/
theorem CallsStay.of_change (change : s.callsSound → CallChange s t p)
    (own : CallOf (s.pos p) (s.queue p) → CallOf (t.pos p) (t.queue p)) (unheard : UnheardStays s t)
    (players : s.playersSound → t.playersSound) : CallsStay s t :=
  ⟨fun sound => ⟨(change sound).callsSound sound (own ((State.callsSound_iff s).mp sound p)),
    (change sound).listenersCounted⟩, unheard.stoppedUnheard, players⟩

end

/-! ## OPEN POSITION (R24) -/

theorem State.openAccepted_stay (s : State) (port : Port) {p : Fin 64} (slot : Fin 64) (tail : Nat) (profile : Fin 4)
    (shut : (s.pos p).state = .closed) : CallsStay s (s.openAccepted port p slot tail profile) := by
  have touched := s.openAccepted_touches port p slot tail profile
  have positions := s.openAccepted_positions port p slot tail profile
  have whisper : (s.openAccepted port p slot tail profile).whisper = s.whisper := touched .whisper (by decide)
  have streams : (s.openAccepted port p slot tail profile).streams = s.streams := touched .streams (by decide)
  refine .of_change (p := p) (fun sound => ?_) (fun h => ?_) (.of_streams streams) fun players =>
    State.playersSound_of_whisper players whisper
  · refine .of_put positions streams (fun q _ => State.queue_of_whisper whisper q) ?_
    rw [(((State.callsSound_iff s).mp sound p).closed shut).1]
    rfl
  · rw [State.pos_of_put positions, State.queue_of_whisper whisper, (h.closed shut).2]
    exact .of_quiet nofun rfl rfl rfl nofun rfl

/-! ## CONNECT (R26, R27) -/

theorem State.connecting_whisper (s : State) (p t : Fin 64) (state : PositionState) (stream : Option (Fin 16)) :
    (s.connecting p t state stream).whisper = s.whisper :=
  (s.connecting_after_linked p t state stream .whisper (by decide)).trans
    (s.linked_touches p t state stream .whisper (by decide))

theorem State.connecting_change (s : State) (p t : Fin 64) (state : PositionState) {stream : Option (Fin 16)}
    (unnamed : (s.pos p).stream = none) : CallChange s (s.connecting p t state stream) p where
  others q apart := by rw [State.connecting_pos, if_neg (Ne.symm apart)]
  queues q _ := by rw [State.queue_of_whisper (s.connecting_whisper p t state stream)]
  listeners k _ := by
    have gained : (s.connecting p t state stream).stream k = (s.addListener stream).stream k :=
      congrArg (·.cell k) (s.connecting_streams p t state stream)
    rw [State.connecting_pos, if_pos rfl, unnamed, gained, State.addListener_listeners]
    rfl

theorem State.connecting_unheardStays (s : State) (p t : Fin 64) (state : PositionState) {stream : Option (Fin 16)}
    (going : s.namedStopped stream = false) : UnheardStays s (s.connecting p t state stream) :=
  (s.addListener_unheardStays going).of_streams_eq (s.connecting_streams p t state stream)

theorem CallOf.unnamed_of_idle {x : Position} {q : List Entry} (h : CallOf x q) (idle : x.state = .idle) :
    x.stream = none ∧ x.announcePending = false ∧ announceOrigins q = [] := by
  have pending := h.pending_of_state (by rw [idle]; decide)
  exact ⟨h.unnamed (by rw [idle]; rfl), pending, h.no_origin (by rw [idle]; decide) pending⟩

theorem State.connected_stay (s : State) (port : Port) (p t : Fin 64) (idle : (s.pos p).state = .idle) :
    CallsStay s ((s.connecting p t .connected none).answer port .ok []) := by
  refine CallsStay.answered (.of_change (p := p) (fun sound => ?_) (fun h => ?_)
    (s.connecting_unheardStays p t .connected rfl) fun players => ?_) port _ _
  · exact s.connecting_change p t .connected (((State.callsSound_iff s).mp sound p).unnamed_of_idle idle).1
  · obtain ⟨-, pending, origins⟩ := h.unnamed_of_idle idle
    rw [State.connecting_pos, if_pos rfl, State.queue_of_whisper (s.connecting_whisper p t .connected none)]
    exact .of_quiet nofun (h.owned (by rw [idle]; decide)) rfl pending nofun origins
  · exact State.playersSound_of_whisper players (s.connecting_whisper p t .connected none)

theorem announceOrigins_placeAnnounce {q : List Entry} (none : announceOrigins q = []) {e : Entry}
    (announce : e.kind = .announce) : announceOrigins (placeAnnounce e q) = [some e.origin] := by
  cases q with
  | nil => rw [placeAnnounce_nil, announceOrigins_cons_announce announce]; rfl
  | cons h rest =>
    have prompt : h.kind ≠ .announce := announceOrigins_eq_nil.mp none h (List.mem_cons_self ..)
    rw [placeAnnounce_cons]
    split
    · rw [announceOrigins_cons_announce announce, none]
    · rw [announceOrigins_cons_prompt prompt, announceOrigins_cons_announce announce]
      rw [announceOrigins_cons_prompt prompt] at none
      rw [none]

theorem State.connectPrompt_stay (s : State) {port : Port} {p : Fin 64} (t : Fin 64) (clip : Fin 256) (gain : Half)
    {stream : Option (Fin 16)} (idle : (s.pos p).state = .idle) (owner : (s.pos p).owner = some port)
    (going : s.namedStopped stream = false) : CallsStay s (s.connectPrompt port p t clip gain stream) := by
  let v := s.connecting p t .announce stream
  let e := v.newEntry clip gain port .announce
  have touched : Touches [.whisper, .clipStore, .events] v (v.enqueued p port e (placeAnnounce e)) :=
    v.enqueued_touches p port e _
  have positions : (v.enqueued p port e (placeAnnounce e)).positions = v.positions := touched .positions (by decide)
  have streams : (v.enqueued p port e (placeAnnounce e)).streams = v.streams := touched .streams (by decide)
  have whisper : v.whisper = s.whisper := s.connecting_whisper p t .announce stream
  refine CallsStay.answered (State.assignPlayers_stay (t := v.enqueued p port e (placeAnnounce e)) (fun sound => ?_) ?_
    fun players => ?_) port _ _
  · have own := (State.callsSound_iff s).mp sound p
    obtain ⟨unnamed, pending, origins⟩ := own.unnamed_of_idle idle
    have change : CallChange s (v.enqueued p port e (placeAnnounce e)) p :=
      (s.connecting_change p t .announce unnamed).queued positions streams fun q apart => by
        rw [State.enqueued_queue, if_neg (Ne.symm apart)]
    refine ⟨change.callsSound sound ?_, change.listenersCounted⟩
    have queue : (v.enqueued p port e (placeAnnounce e)).queue p = placeAnnounce e (s.queue p) := by
      rw [State.enqueued_queue, if_pos rfl, State.queue_of_whisper whisper]
    have pos : (v.enqueued p port e (placeAnnounce e)).pos p = v.pos p := by unfold State.pos; rw [positions]
    rw [queue, pos, State.connecting_pos, if_pos rfl]
    refine ⟨nofun, fun _ => own.owned (by rw [idle]; decide), fun _ => .inl rfl, fun set => ?_, ?_⟩
    · rw [pending] at set; exact nomatch set
    · rw [announceOrigins_placeAnnounce origins rfl, if_pos (.inl rfl), owner]
      rfl
  · exact (s.connecting_unheardStays p t .announce going).of_streams_eq streams
  · exact State.enqueued_announce_playersHeld (((State.playersSound_iff s).mp players).1.of_whisper whisper) p port rfl

/-! ## HOLD and RETRIEVE (R28, R29) -/

theorem State.holdAccepted_stay (s : State) {port : Port} {p : Fin 64} {stream : Option (Fin 16)}
    (owner : (s.pos p).owner = some port) (called : (s.pos p).state = .connected ∨ (s.pos p).state = .announce)
    (going : s.namedStopped stream = false) : CallsStay s (s.holdAccepted port p stream) := by
  let held := s.setPos p { s.pos p with
    state := .held, announcePending := (s.pos p).state = .announce, stream := stream }
  let t := (held.dropListener (s.pos p).stream).addListener stream
  have positions : t.positions = held.positions :=
    (State.addListener_touches _ stream .positions (by decide)).trans (held.dropListener_touches _ .positions (by decide))
  have whisper : t.whisper = s.whisper :=
    (State.addListener_touches _ stream .whisper (by decide)).trans (held.dropListener_touches _ .whisper (by decide))
  have dropped : UnheardStays s (held.dropListener (s.pos p).stream) := held.dropListener_unheardStays _
  have pos : t.pos p = { s.pos p with
      state := .held, announcePending := (s.pos p).state = .announce, stream := stream } := State.pos_of_put positions
  refine CallsStay.answered (t := t) (.of_change (p := p) (fun sound => ?_) (fun h => ?_)
    (dropped.trans (State.addListener_unheardStays _ ?_)) fun players => State.playersSound_of_whisper players whisper) port _ _
  · refine ⟨fun q apart => ?_, fun q _ => by rw [State.queue_of_whisper whisper], fun k counted => ?_⟩
    · unfold State.pos
      rw [positions]
      exact (s.setPos_pos p q _).trans (if_neg (Ne.symm apart))
    · have gained : (t.stream k).listeners = _ := State.addListener_listeners (held.dropListener (s.pos p).stream) stream k
      rw [pos, gained, State.dropListener_listeners, show held.stream k = s.stream k from rfl]
      by_cases named : (s.pos p).stream = some k
      · have some := counted named
        simp only [named, if_true]
        omega
      · simp only [named, if_false, Nat.add_zero]
  · have pending := h.pending_of_state (show (s.pos p).state ≠ .held by rcases called with h | h <;> rw [h] <;> decide)
    rw [pos, State.queue_of_whisper whisper]
    refine ⟨nofun, fun _ => by rw [owner]; rfl, fun _ => .inr rfl, fun _ => rfl, h.queued.trans ?_⟩
    simp [pending]
  · cases stream with
    | none => rfl
    | some k =>
      have state := held.dropListener_state (s.pos p).stream k
      have same : (held.dropListener (s.pos p).stream).namedStopped (some k) = s.namedStopped (some k) :=
        congrArg (fun x : StreamState => decide (x = .stopped)) state
      exact same.trans going

theorem State.retrieveAccepted_stay (s : State) (port : Port) {p : Fin 64} (state : (s.pos p).state = .held) :
    CallsStay s (s.retrieveAccepted port p) := by
  unfold State.retrieveAccepted
  dsimp only
  split
  · next pending =>
    let announcing := s.setPos p { s.pos p with state := .announce, announcePending := false }
    refine CallsStay.answered (t := announcing) (.of_change (p := p) (fun _ => .of_put
      (x := { s.pos p with state := .announce, announcePending := false }) rfl rfl (fun _ _ => rfl) rfl) (fun h => ?_)
      (.of_streams rfl) fun players => State.playersSound_of_whisper players rfl) port _ _
    rw [State.setPos_pos, if_pos rfl]
    refine ⟨nofun, fun _ => h.owned (by rw [state]; decide), fun _ => .inl rfl, nofun, ?_⟩
    show announceOrigins (s.queue p) = _
    rw [h.queued, if_pos (.inr pending), if_pos (.inl rfl)]
  · next settled =>
    let connected := s.setPos p { s.pos p with state := .connected, stream := none }
    have settled := Bool.eq_false_iff.mpr settled
    have pos : (connected.dropListener (s.pos p).stream).pos = connected.pos := by
      unfold State.pos
      rw [connected.dropListener_touches _ .positions (by decide)]
    have whisper : (connected.dropListener (s.pos p).stream).whisper = s.whisper :=
      connected.dropListener_touches _ .whisper (by decide)
    have dropped : UnheardStays s (connected.dropListener (s.pos p).stream) := connected.dropListener_unheardStays _
    refine CallsStay.answered (.of_change (p := p) (fun sound => ?_) (fun h => ?_) dropped fun players =>
      State.playersSound_of_whisper players whisper) port _ _
    · refine ⟨fun q apart => ?_, fun q _ => by rw [State.queue_of_whisper whisper], fun k counted => ?_⟩
      · rw [pos, State.setPos_pos, if_neg (Ne.symm apart)]
      · rw [pos, State.setPos_pos, if_pos rfl, State.dropListener_listeners, show connected.stream k = s.stream k from rfl,
          if_neg (nofun : ¬(none : Option (Fin 16)) = some k)]
        split
        · next named => exact Nat.sub_add_cancel (counted named)
        · rfl
    · rw [pos, State.setPos_pos, if_pos rfl, State.queue_of_whisper whisper]
      exact .of_quiet nofun (h.owned (by rw [state]; decide)) rfl settled nofun
        (h.no_origin (by rw [state]; decide) settled)

/-! ## Parameters, offers and statistics (R34, R35, R37, R38, R45) -/

theorem State.setAccepted_stay (s : State) (port : Port) {p : Fin 64} (a : ParamsArg) (mode : Option EcMode)
    (opened : (s.pos p).state ≠ .closed) : CallsStay s (s.setAccepted port p a mode) :=
  CallsStay.answered (((s.setPos_callsKept p (x := (s.pos p).adjusted a mode) (.inl opened) rfl).trans
    (.of_touches (State.setSuppressor_touches _ p _) (by decide))).stay) port _ _

theorem State.tailAccepted_stay (s : State) (port : Port) {p : Fin 64} (tail : Nat)
    (opened : (s.pos p).state ≠ .closed) : CallsStay s (s.tailAccepted port p tail) := by
  have recorded : ∀ t : State, t.pos = s.pos → CallsKept t (t.setPos p { s.pos p with tail := tail }) := fun t same =>
    t.setPos_callsKept p (.inl (by rw [same]; exact opened)) (by rw [same]; rfl)
  unfold State.tailAccepted
  dsimp only
  refine CallsStay.answered ?_ port _ _
  split
  · have touched := s.allocate_touches p (tail - (s.pos p).tail)
    exact ((CallsKept.of_touches touched (by decide)).trans (recorded _
      (State.pos_of_positions (touched .positions (by decide))))).stay
  · split
    · have touched := s.keepSegments_touches p tail
      exact ((CallsKept.of_touches touched (by decide)).trans (recorded _
        (State.pos_of_positions (touched .positions (by decide))))).stay
    · exact (recorded s rfl).stay

theorem State.offer_stay (s : State) (port q : Port) {p : Fin 64} (offer : Bool) (k : EventKind) (o d : Nat)
    (opened : (s.pos p).state ≠ .closed) :
    CallsStay s (((s.setPos p { s.pos p with offer := offer }).file q k o d).answer port .ok []) :=
  CallsStay.answered (((s.setPos_callsKept p (x := { s.pos p with offer := offer }) (.inl opened) rfl).trans
    (.of_touches (State.file_touches _ q k o d) (by decide))).stay) port _ _

theorem State.statsAccepted_stay (s : State) (port : Port) {p : Fin 64} (clear : Bool)
    (opened : (s.pos p).state ≠ .closed) : CallsStay s (s.statsAccepted port p clear) := by
  unfold State.statsAccepted
  dsimp only
  refine CallsStay.answered ?_ port _ _
  split
  · exact (s.setPos_callsKept p (x := { s.pos p with stats := Stats.zero }) (.inl opened) rfl).stay
  · exact .refl s

/-! ## Hand-over (R39, R41) -/

theorem withAnnounceOrigin_phases (port : Port) (q : List Entry) :
    (withAnnounceOrigin port q).map Entry.phase = q.map Entry.phase := by
  rw [withAnnounceOrigin_eq, List.map_map]
  refine List.map_congr_left fun e _ => ?_
  simp only [Function.comp_apply]
  split
  · rfl
  · rfl

theorem announceOrigins_withAnnounceOrigin (port : Port) (q : List Entry) :
    announceOrigins (withAnnounceOrigin port q) = (announceOrigins q).map fun _ => some port := by
  induction q with
  | nil => rfl
  | cons e rest ih =>
    cases kind : e.kind with
    | announce =>
      have changed : withAnnounceOrigin port (e :: rest) = { e with origin := port } :: withAnnounceOrigin port rest := by
        unfold withAnnounceOrigin
        rw [List.map_cons, kind]
      rw [changed, announceOrigins_cons_announce (e := { e with origin := port }) kind, announceOrigins_cons_announce kind,
        List.map_cons, ih]
    | prompt =>
      have unchanged : withAnnounceOrigin port (e :: rest) = e :: withAnnounceOrigin port rest := by
        unfold withAnnounceOrigin
        rw [List.map_cons, kind]
      have other : e.kind ≠ .announce := by rw [kind]; decide
      rw [unchanged, announceOrigins_cons_prompt other, announceOrigins_cons_prompt other, ih]

theorem State.passTo_stay (s : State) {p : Fin 64} (port : Port) (opened : (s.pos p).state ≠ .closed) :
    CallsStay s (s.passTo p port) := by
  have queue : ∀ q, (s.passTo p port).queue q = if p = q then withAnnounceOrigin port (s.queue p) else s.queue q :=
    fun q => State.setQueue_queue _ p q _
  refine .of_change (p := p) (fun _ => .of_put (x := { s.pos p with owner := some port, offer := false }) rfl rfl
    (fun q apart => ?_) rfl) (fun h => ?_) (.of_streams rfl) fun players =>
    State.playersSound_of_same players (fun q => ?_) fun _ => rfl
  · rw [queue, if_neg (Ne.symm apart)]
  · rw [queue, if_pos rfl, State.pos_of_put (x := { s.pos p with owner := some port, offer := false }) rfl]
    refine ⟨fun shut => absurd shut opened, fun _ => rfl, h.named, h.pending, ?_⟩
    rw [announceOrigins_withAnnounceOrigin, h.queued]
    split
    · rfl
    · rfl
  · unfold State.phases
    rw [queue]
    split
    · next same => rw [withAnnounceOrigin_phases, same]
    · rfl

/-! ## WHISPER (R158) -/

theorem announceOrigins_append_prompt (q : List Entry) {e : Entry} (prompt : e.kind ≠ .announce) :
    announceOrigins (q ++ [e]) = announceOrigins q := by
  unfold announceOrigins
  rw [List.filter_append, List.filter_cons_of_neg (by simpa using prompt), List.filter_nil, List.append_nil]

theorem State.whisperAccepted_stay (s : State) (port : Port) {p : Fin 64} (c : Fin 256) (gain : Half)
    (opened : (s.pos p).state ≠ .closed) : CallsStay s (s.whisperAccepted port p c gain) := by
  let e := s.newEntry c gain port .prompt
  let t := s.enqueued p port e fun q => q ++ [e]
  have touched : Touches [.whisper, .clipStore, .events] s t := s.enqueued_touches p port e _
  have pos : t.pos = s.pos := by unfold State.pos; rw [touched .positions (by decide)]
  have streams : t.streams = s.streams := touched .streams (by decide)
  have queue : ∀ q, t.queue q = if p = q then s.queue p ++ [e] else s.queue q := fun q => s.enqueued_queue p q port e _
  refine CallsStay.answered (State.assignPlayers_stay (t := t) (fun sound => ⟨?_, ?_⟩) (.of_streams streams)
    fun players => ?_) port _ _
  · rw [State.callsSound_iff] at sound ⊢
    intro q
    rw [pos, queue]
    split
    · next same =>
      rw [← same]
      exact (sound p).of_same rfl (fun shut => absurd shut opened) (announceOrigins_append_prompt _ nofun)
    · exact sound q
  · exact State.listenersCounted_of_same (fun q => by rw [pos]) fun k => by unfold State.stream; rw [streams]
  · exact State.enqueued_append_playersHeld ((State.playersSound_iff s).mp players).1 p port rfl

end Sys2Proof.Machine
end


section
/-! PROOFS. RESET PORT position by position and stream by stream (R41 to R43, R156, R161, R176), and that it leaves positions'
calls, listeners and prompt players sound. -/

namespace Sys2Proof.Machine

/-! ## The positions (R41 to R43) -/

/-- A step that changes what one object holds, by that alone, done for the objects of a list. -/
theorem foldl_each {ι α : Type} [DecidableEq ι] {f : State → ι → State} (get : State → ι → α) {g : α → α}
    (each : ∀ s p q, get (f s p) q = if p = q then g (get s q) else get s q) (again : ∀ x, g (g x) = g x)
    (l : List ι) (s : State) (q : ι) : get (l.foldl f s) q = if q ∈ l then g (get s q) else get s q := by
  induction l generalizing s with
  | nil => simp
  | cons p l ih =>
    rw [List.foldl_cons, ih, each]
    by_cases same : p = q
    · simp [same, again]
    · simp [same, Ne.symm same]

/-- The record of a position that passes to the other port. -/
def Position.inherited (port : Port) (x : Position) : Position := { x with owner := some port.other, offer := false }

/-- The record of a position whose offer is cleared when it was an offer to `port` (R43). -/
def Position.unoffered (port : Port) (x : Position) : Position :=
  if x.owner = some port.other then { x with offer := false } else x

theorem State.inherit_pos (s : State) (port : Port) (p q : Fin 64) :
    (s.inherit port p).pos q = if p = q then (s.pos q).inherited port else s.pos q := by
  have filed : (s.inherit port p).pos q = (s.passTo p port.other).pos q :=
    State.file_keeps (fun t => t.pos q) (fun _ _ => rfl) _ _ _ _ _
  rw [filed]
  refine (s.setPos_pos p q _).trans ?_
  split
  · next same => rw [same]; rfl
  · rfl

theorem State.tearDown_pos (s : State) (p q : Fin 64) :
    (s.tearDown p).pos q = if p = q then Position.closedContents else s.pos q := by
  unfold State.tearDown
  rw [State.closing_pos (by decide)]
  split
  · rfl
  · next apart =>
    split
    · rw [State.releasing_pos (by decide), if_neg apart]
    · rfl

theorem State.clearOffersTo_pos (s : State) (port : Port) (p : Fin 64) :
    (s.clearOffersTo port).pos p = (s.pos p).unoffered port := Table.cell_map ..

/-- The state after step 1's hand-overs. -/
def State.handedOver (s : State) (port : Port) : State := (s.offeredBy port).foldl (fun s p => s.inherit port p) s

theorem State.resetPositions_eq (s : State) (port : Port) :
    s.resetPositions port = (s.keptBy port).foldl State.tearDown ((s.handedOver port).clearOffersTo port) := rfl

theorem State.mem_offeredBy (s : State) (port : Port) (p : Fin 64) :
    p ∈ s.offeredBy port ↔ (s.pos p).owner = some port ∧ (s.pos p).offer = true := by simp [State.offeredBy]

theorem State.mem_keptBy (s : State) (port : Port) (p : Fin 64) :
    p ∈ s.keptBy port ↔ (s.pos p).owner = some port ∧ (s.pos p).offer = false := by simp [State.keptBy]

theorem State.handedOver_pos (s : State) (port : Port) (p : Fin 64) : (s.handedOver port).pos p
    = if p ∈ s.offeredBy port then (s.pos p).inherited port else s.pos p :=
  foldl_each State.pos (fun t p q => t.inherit_pos port p q) (fun _ => rfl) _ s p

theorem State.resetPositions_pos (s : State) (port : Port) (p : Fin 64) : (s.resetPositions port).pos p
    = if p ∈ s.keptBy port then Position.closedContents
      else if p ∈ s.offeredBy port then (s.pos p).inherited port else (s.pos p).unoffered port := by
  rw [State.resetPositions_eq, foldl_each State.pos (g := fun _ => Position.closedContents) State.tearDown_pos (fun _ => rfl), State.clearOffersTo_pos, State.handedOver_pos]
  refine if_congr Iff.rfl rfl ?_
  split
  · exact if_pos rfl
  · rfl

/-- After step 1 the port that resets owns no position. -/
def State.unownedBy (s : State) (port : Port) : Prop := ∀ p, (s.pos p).owner ≠ some port

theorem State.resetPositions_unownedBy (s : State) (port : Port) : (s.resetPositions port).unownedBy port := fun p own => by
  rw [State.resetPositions_pos] at own
  have other : port.other ≠ port := by cases port <;> decide
  split at own
  · exact nomatch own
  · next unkept =>
    split at own
    · exact other (Option.some.inj own)
    · next unoffered =>
      have owner : (s.pos p).owner = some port := by
        unfold Position.unoffered at own
        split at own
        · exact own
        · exact own
      cases offer : (s.pos p).offer with
      | false => exact unkept ((s.mem_keptBy port p).mpr ⟨owner, offer⟩)
      | true => exact unoffered ((s.mem_offeredBy port p).mpr ⟨owner, offer⟩)

/-! ## Calls and listeners through step 1 -/

/-- Positions' calls stay sound, and so do the listener counts. -/
def CallsStaySoundly (s t : State) : Prop :=
  s.callsSound → t.callsSound ∧ (s.listenersCounted → t.listenersCounted)

theorem CallsStaySoundly.refl (s : State) : CallsStaySoundly s s := fun h => ⟨h, id⟩

theorem CallsStaySoundly.trans {s t u : State} (h : CallsStaySoundly s t) (k : CallsStaySoundly t u) :
    CallsStaySoundly s u := fun sound => by
  obtain ⟨sound', counted⟩ := h sound
  obtain ⟨sound'', counted'⟩ := k sound'
  exact ⟨sound'', counted' ∘ counted⟩

theorem CallsStaySoundly.foldl {α : Type} {f : State → α → State} (h : ∀ s x, CallsStaySoundly s (f s x)) (l : List α)
    (s : State) : CallsStaySoundly s (l.foldl f s) :=
  foldl_keeps (P := CallsStaySoundly s) (fun t x ht => ht.trans (h t x)) l s (.refl s)

theorem CallOf.opened_of_owner {x : Position} {q : List Entry} (h : CallOf x q) {port : Port} (owner : x.owner = some port) :
    x.state ≠ .closed := fun shut => by
  rw [(h.closed shut).1] at owner
  exact nomatch owner

theorem State.inherit_callsStay (s : State) (port : Port) {p : Fin 64} (opened : (s.pos p).state ≠ .closed) :
    CallsStaySoundly s (s.inherit port p) :=
  ((s.passTo_stay port.other opened).trans (CallsKept.of_touches (State.file_touches _ _ _ _ _) (by decide)).stay).1

theorem inherits_callsStay (port : Port) (l : List (Fin 64)) (s : State) (opened : ∀ p ∈ l, (s.pos p).state ≠ .closed) :
    CallsStaySoundly s (l.foldl (fun s p => s.inherit port p) s) := by
  induction l generalizing s with
  | nil => exact .refl s
  | cons p l ih =>
    obtain ⟨first, rest⟩ := List.forall_mem_cons.mp opened
    refine (s.inherit_callsStay port first).trans (ih _ fun q member => ?_)
    rw [State.inherit_pos]
    split
    · exact rest q member
    · exact rest q member

theorem State.clearOffersTo_callsStay (s : State) (port : Port) : CallsStaySoundly s (s.clearOffersTo port) := by
  have call : ∀ x : Position, (x.unoffered port).call = x.call := fun x => by
    unfold Position.unoffered
    split
    · rfl
    · rfl
  refine fun sound => ⟨?_, State.listenersCounted_of_same (fun p => ?_) fun _ => rfl⟩
  · rw [State.callsSound_iff] at sound ⊢
    intro p
    rw [State.clearOffersTo_pos]
    refine (sound p).of_same (call _) (fun shut => ?_) rfl
    have own := (sound p).closed shut
    refine ⟨if_neg fun owner => ?_, own.2⟩
    exact (sound p).opened_of_owner owner shut
  · rw [State.clearOffersTo_pos]
    exact Position.stream_of_call (call _)

theorem State.tearDown_callsStay (s : State) (p : Fin 64) : CallsStaySoundly s (s.tearDown p) := fun sound => by
  unfold State.tearDown
  split
  · next called =>
    have opened : (s.pos p).state ≠ .closed := fun shut => by rw [shut] at called; exact nomatch called
    have unnamed : ((s.releasing p .portReset).pos p).stream = none := by
      rw [State.releasing_pos (by decide), if_pos rfl]
      rfl
    have change := State.closing_change (cause := .portReset) (by decide) (s.releasing p .portReset) p unnamed
    exact ⟨State.closing_callsSound (by decide) _ p unnamed (s.releasing_callsSound (by decide) p opened sound),
      change.listenersCounted ∘ (s.releasing_change (by decide) p).listenersCounted⟩
  · next out =>
    have unnamed := ((State.callsSound_iff s).mp sound p).unnamed (Bool.eq_false_iff.mpr out)
    exact ⟨s.closing_callsSound (by decide) p unnamed sound, (s.closing_change (by decide) p unnamed).listenersCounted⟩

theorem State.resetPositions_callsStay (s : State) (port : Port) : CallsStaySoundly s (s.resetPositions port) := fun sound => by
  have opened : ∀ p ∈ s.offeredBy port, (s.pos p).state ≠ .closed := fun p member =>
    ((State.callsSound_iff s).mp sound p).opened_of_owner ((s.mem_offeredBy port p).mp member).1
  exact (((inherits_callsStay port _ s opened).trans (State.clearOffersTo_callsStay _ port)).trans
    (CallsStaySoundly.foldl State.tearDown_callsStay _ _)) sound

/-! ## The streams (R156) -/

/-- The record of a position that names the stream no more. -/
def Position.without (k : Fin 16) (x : Position) : Position := if x.stream = some k then { x with stream := none } else x

theorem Position.without_without (k : Fin 16) (x : Position) : (x.without k).without k = x.without k := by
  unfold Position.without
  by_cases named : x.stream = some k
  · rw [if_pos named]
    exact if_neg nofun
  · rw [if_neg named, if_neg named]

theorem State.loseStream_pos (s : State) (k : Fin 16) (p q : Fin 64) :
    (s.loseStream k p).pos q = if p = q then (s.pos q).without k else s.pos q := by
  unfold State.loseStream Position.without
  dsimp only
  by_cases same : p = q
  · subst same
    rw [if_pos rfl]
    split
    · rw [State.fileOwner_pos, State.setPos_pos, if_pos rfl]
    · rfl
  · rw [if_neg same]
    split
    · rw [State.fileOwner_pos, State.setPos_pos, if_neg same]
    · rfl

/-- Every position that names the stream has lost it. -/
def State.unnamed (s : State) (k : Fin 16) : State := (List.finRange 64).foldl (fun s p => s.loseStream k p) s

theorem State.unnamed_pos (s : State) (k : Fin 16) (p : Fin 64) : (s.unnamed k).pos p = (s.pos p).without k :=
  (foldl_each State.pos (fun t p q => t.loseStream_pos k p q) (Position.without_without k) _ s p).trans
    (if_pos (List.mem_finRange p))

theorem State.unnamed_touches (s : State) (k : Fin 16) : Touches [.positions, .events] s (s.unnamed k) :=
  Touches.foldl (fun t p => t.loseStream_touches k p) _ s

theorem State.resetStream_eq (s : State) (k : Fin 16) : s.resetStream k
    = ((s.unnamed k).setStream k { (s.unnamed k).stream k with listeners := 0 }).stopStream k := rfl

theorem State.resetStream_after_unnamed (s : State) (k : Fin 16) :
    Touches [.streams, .clipStore, .arbiter] (s.unnamed k) (s.resetStream k) := by
  rw [State.resetStream_eq]
  exact ((State.setStream_touches _ k _).mono (by decide)).trans (State.stopStream_touches _ k)

theorem State.resetStream_pos (s : State) (k : Fin 16) (p : Fin 64) : (s.resetStream k).pos p = (s.pos p).without k := by
  rw [← s.unnamed_pos k p, State.pos_of_positions (s.resetStream_after_unnamed k .positions (by decide))]

theorem State.resetStream_whisper (s : State) (k : Fin 16) : (s.resetStream k).whisper = s.whisper :=
  (s.resetStream_after_unnamed k .whisper (by decide)).trans (s.unnamed_touches k .whisper (by decide))

theorem State.resetStream_stream (s : State) (k j : Fin 16) : (s.resetStream k).stream j
    = if k = j then ({ s.stream k with listeners := 0 } : Stream).stoppedFrom else s.stream j := by
  have unnamed : (s.unnamed k).stream = s.stream := by
    unfold State.stream
    rw [s.unnamed_touches k .streams (by decide)]
  rw [State.resetStream_eq, State.stopStream_stream, State.setStream_stream, State.setStream_stream, if_pos rfl, unnamed]
  split
  · rfl
  · rfl

theorem Position.without_eq_some (k j : Fin 16) (x : Position) :
    (x.without k).stream = some j ↔ k ≠ j ∧ x.stream = some j := by
  unfold Position.without
  split
  · next named =>
    refine iff_of_false nofun fun h => h.1 (Option.some.inj (named.symm.trans h.2))
  · next other => exact ⟨fun named => ⟨fun same => other (same ▸ named), named⟩, And.right⟩

theorem CallOf.without {x : Position} {q : List Entry} (h : CallOf x q) (k : Fin 16) : CallOf (x.without k) q := by
  unfold Position.without
  split
  · next named =>
    have opened : x.state ≠ .closed := fun shut => by
      rw [(h.closed shut).1] at named
      exact nomatch named
    exact ⟨fun shut => absurd shut opened, h.owned, nofun, h.pending, h.queued⟩
  · exact h

theorem State.resetStream_callsStay (s : State) (k : Fin 16) : CallsStaySoundly s (s.resetStream k) := by
  refine fun sound => ⟨?_, fun counted j => ?_⟩
  · rw [State.callsSound_iff] at sound ⊢
    intro p
    rw [State.resetStream_pos, State.queue_of_whisper (s.resetStream_whisper k)]
    exact (sound p).without k
  · simp only [State.resetStream_pos, State.resetStream_stream, Position.without_eq_some]
    by_cases same : k = j
    · rw [if_pos same, List.filter_eq_nil_iff.mpr fun p _ => by simp [same]]
      rfl
    · rw [if_neg same]
      simpa [same] using counted j

theorem State.resetStream_unheardStays (s : State) (k : Fin 16) : UnheardStays s (s.resetStream k) := fun j stopped => by
  rw [State.resetStream_stream] at stopped ⊢
  split
  · exact .inl rfl
  · next apart =>
    rw [if_neg apart] at stopped
    exact .inr ⟨stopped, Nat.le_refl _⟩

theorem State.resetStream_unownedBy {s : State} {port : Port} (h : s.unownedBy port) (k : Fin 16) :
    (s.resetStream k).unownedBy port := fun p => by
  rw [State.resetStream_pos]
  unfold Position.without
  split
  · exact h p
  · exact h p

/-! ## The whisper entries (R161) -/

/-- The flush of the entries of a port that owns no position takes no announcement. -/
theorem State.portFlush_callsStay {s : State} {port : Port} (h : s.unownedBy port) (p : Fin 64) :
    CallsStaySoundly s (s.flush p .portReset fun e => e.origin = port) := by
  have touched := s.flush_touches_of_ne (cause := .portReset) (by decide) p fun e => e.origin = port
  have pos := State.pos_of_positions (touched .positions (by decide))
  refine fun sound => ⟨?_, State.listenersCounted_of_same (fun q => by rw [pos]) fun k => by
    unfold State.stream; rw [touched .streams (by decide)]⟩
  rw [State.callsSound_iff] at sound ⊢
  intro q
  rw [pos, State.flush_queue]
  split
  · next same =>
    rw [same]
    refine (sound q).of_same rfl (fun shut => ⟨rfl, by rw [((sound q).closed shut).2]; rfl⟩)
      (announceOrigins_unchosen fun e member own announce => ?_)
    have queued := (sound q).queued
    have origin : some e.origin ∈ announceOrigins (s.queue q) :=
      List.mem_map_of_mem (List.mem_filter.mpr ⟨member, decide_eq_true announce⟩)
    rw [queued] at origin
    split at origin
    · exact h q ((List.mem_singleton.mp origin).symm.trans (congrArg some (of_decide_eq_true own)))
    · exact nomatch origin
  · exact sound q

theorem State.portFlush_unownedBy {s : State} {port : Port} (h : s.unownedBy port) (p : Fin 64) :
    (s.flush p .portReset fun e => e.origin = port).unownedBy port := fun q => by
  rw [State.pos_of_positions (s.flush_touches_of_ne (cause := .portReset) (by decide) p _ .positions (by decide))]
  exact h q

/-- Step 3 before the assignment of players. -/
def State.portFlushed (s : State) (port : Port) : State :=
  (List.finRange 64).foldl (fun s p => s.flush p .portReset fun e => e.origin = port) s

theorem State.portFlushed_callsStay {s : State} {port : Port} (h : s.unownedBy port) :
    CallsStaySoundly s (s.portFlushed port) :=
  (foldl_keeps (P := fun t : State => t.unownedBy port ∧ CallsStaySoundly s t)
    (fun _ p ht => ⟨State.portFlush_unownedBy ht.1 p, ht.2.trans (State.portFlush_callsStay ht.1 p)⟩) (List.finRange 64) s
    ⟨h, .refl s⟩).2

theorem State.portFlushed_touches (s : State) (port : Port) : Touches quietFlushParts s (s.portFlushed port) :=
  Touches.foldl (fun t p => t.flush_touches_of_ne (cause := .portReset) (by decide) p _) _ s

/-! ## The teardown (R176) -/

/-- The teardown up to the assignment of players. -/
def State.tornDown (s : State) (port : Port) : State := ((s.resetPositions port).resetStreams port).portFlushed port

theorem State.resetTeardown_eq_tornDown (s : State) (port : Port) :
    s.resetTeardown port = (s.tornDown port).assignPlayers.resetEnd port := rfl

theorem State.tornDown_callsStay (s : State) (port : Port) : CallsStaySoundly s (s.tornDown port) := by
  have unowned : ((s.resetPositions port).resetStreams port).unownedBy port :=
    foldl_keeps (P := fun t : State => t.unownedBy port) (fun _ k ht => State.resetStream_unownedBy ht k) _ _
      (s.resetPositions_unownedBy port)
  exact ((s.resetPositions_callsStay port).trans (CallsStaySoundly.foldl State.resetStream_callsStay _ _)).trans
    (State.portFlushed_callsStay unowned)

theorem State.inherit_streams (s : State) (port : Port) (p : Fin 64) : (s.inherit port p).streams = s.streams :=
  s.inherit_touches port p .streams (by decide)

theorem State.tearDown_unheardStays (s : State) (p : Fin 64) : UnheardStays s (s.tearDown p) := by
  unfold State.tearDown
  split
  · exact (s.releasing_unheardStays (by decide) p).trans (State.closing_unheardStays (by decide) _ p)
  · exact s.closing_unheardStays (by decide) p

theorem State.tornDown_unheardStays (s : State) (port : Port) : UnheardStays s (s.tornDown port) := by
  have handed : UnheardStays s ((s.handedOver port).clearOffersTo port) := .of_streams
    (foldl_keeps (P := fun t : State => t.streams = s.streams) (fun t p ht => (t.inherit_streams port p).trans ht) _ s rfl)
  have closed : UnheardStays s (s.resetPositions port) :=
    foldl_keeps (P := UnheardStays s) (fun t p ht => ht.trans (t.tearDown_unheardStays p)) _ _ handed
  have stopped : UnheardStays s ((s.resetPositions port).resetStreams port) :=
    foldl_keeps (P := UnheardStays s) (fun t k ht => ht.trans (t.resetStream_unheardStays k)) _ _ closed
  exact stopped.trans (.of_streams (State.portFlushed_touches _ port .streams (by decide)))

theorem State.passTo_phases (s : State) (p q : Fin 64) (port : Port) : (s.passTo p port).phases q = s.phases q := by
  unfold State.phases
  rw [show (s.passTo p port).queue q = if p = q then withAnnounceOrigin port (s.queue p) else s.queue q from
    State.setQueue_queue _ p q _]
  split
  · next same => rw [withAnnounceOrigin_phases, same]
  · rfl

theorem State.inherit_playersHeld {s : State} (h : s.PlayersHeld) (port : Port) (p : Fin 64) :
    (s.inherit port p).PlayersHeld :=
  (h.of_same (t := s.passTo p port.other) (fun q => s.passTo_phases p q port.other) fun _ => rfl).of_whisper
    (State.file_touches _ _ _ _ _ .whisper (by decide))

theorem State.resetPositions_playersHeld {s : State} (h : s.PlayersHeld) (port : Port) :
    (s.resetPositions port).PlayersHeld := by
  have handed : (s.handedOver port).PlayersHeld :=
    foldl_keeps (P := State.PlayersHeld) (fun _ p ht => State.inherit_playersHeld ht port p) _ s h
  exact foldl_keeps (P := State.PlayersHeld) (fun _ p ht => State.tearDown_keeps
    (fun t q => t.releasing_playersHeld (by decide) q) (fun t q => t.closing_playersHeld (by decide) q) ht p) _ _
    (handed.of_whisper rfl)

theorem State.resetStreams_whisper (s : State) (port : Port) : (s.resetStreams port).whisper = s.whisper :=
  foldl_keeps (P := fun t : State => t.whisper = s.whisper) (fun t k ht => (t.resetStream_whisper k).trans ht) _ s rfl

theorem State.tornDown_playersHeld {s : State} (h : s.PlayersHeld) (port : Port) : (s.tornDown port).PlayersHeld :=
  foldl_keeps (P := State.PlayersHeld) (fun _ p ht => State.flush_playersHeld ht p _ _) _ _
    ((State.resetPositions_playersHeld h port).of_whisper (State.resetStreams_whisper _ port))

theorem State.resetTeardown_stay (s : State) (port : Port) : CallsStay s (s.resetTeardown port) := by
  rw [State.resetTeardown_eq_tornDown]
  refine CallsStay.trans ?_ (CallsKept.of_touches (State.resetEnd_touches _ port) (by decide)).stay
  exact State.assignPlayers_stay (s.tornDown_callsStay port) (s.tornDown_unheardStays port) fun players =>
    State.tornDown_playersHeld ((State.playersSound_iff s).mp players).1 port

end Sys2Proof.Machine
end


section
/-! PROOFS. Every command leaves positions' calls, listener counts and prompt players sound (R21, R31, R33, R39, R152, R157,
R162, R163). -/

namespace Sys2Proof.Machine

/-! ## What a request's checks give -/

theorem CallsStay.of_touches {parts : List Part} {s t : State} (h : Touches parts s t)
    (untouched : .positions ∉ parts ∧ .whisper ∉ parts ∧ .streams ∉ parts) : CallsStay s t :=
  (CallsKept.of_touches h untouched).stay

theorem CallsStay.of_request {s t : State} {p : Port} {code : Byte} {body : State → State}
    (h : (Host.Outcome.next (s.request p code body) : Host.Outcome State Fault Refusal) = .next t)
    (kept : ∀ u, CallsStay u (body u)) : CallsStay s t := by
  cases h
  have ports : ∀ x, CallsStay s { s with ports := x } := fun _ => (CallsKept.of_fields rfl rfl rfl).stay
  exact State.request_keeps (P := CallsStay s) (.refl s) ports fun _ => (ports _).trans (kept (s.taken p code))

theorem State.refuse_stay (s : State) (p : Port) (status : Status) : CallsStay s (s.refuse p status) :=
  .of_touches (s.answer_touches p status []) (by decide)

theorem State.refuseFault_stay (s : State) (p : Port) (kinds : FaultKinds) (c : Fin 256) (i : Option Nat) (code : Byte) :
    CallsStay s (s.refuseFault p kinds c i code) := .of_touches (s.refuseFault_touches p kinds c i code) (by decide)

theorem State.withNumber_stay {n : Nat} {s : State} {p : Port} {b : Byte} {body : Fin n → State → State}
    (found : ∀ i, CallsStay s (body i s)) : CallsStay s (s.withNumber p b body) :=
  State.withNumber_keeps (s.refuse_stay p) found

theorem State.checked_stay {s : State} {p : Port} {checks : List (Bool × Status)} {effect : State → State}
    (passed : (∀ c ∈ checks, c.1 = false) → CallsStay s (effect s)) : CallsStay s (s.checked p checks effect) :=
  State.checked_keeps (s.refuse_stay p) fun h => passed (firstRefusal_eq_none.mp h)

theorem State.owned_stay {s : State} {port : Port} {p : Fin 64} {checks : List (Bool × Status)} {effect : State → State}
    (passed : (s.pos p).state ≠ .closed → (s.pos p).owner = some port → (∀ c ∈ checks, c.1 = false) →
      CallsStay s (effect s)) : CallsStay s (s.owned port p checks effect) :=
  State.checked_stay fun passes => by
    simp only [List.forall_mem_cons, decide_eq_false_iff_not, not_not] at passes
    obtain ⟨opened, owner, rest⟩ := passes
    exact passed opened owner rest

theorem State.checkItems_stay {s : State} {port : Port} {code : Byte} {items : List Item} {effect : State → State}
    (passed : CallsStay s (effect s)) : CallsStay s (s.checkItems port code items effect) :=
  State.checkItems_keeps (s.refuse_stay port) (fun kinds c i => s.refuseFault_stay port kinds c i code) passed

theorem State.checkEntry_stay {s : State} {port : Port} {code : Byte} {p : Fin 64} {c : Fin 256} {effect : State → State}
    (passed : CallsStay s (effect s)) : CallsStay s (s.checkEntry port code p c effect) :=
  State.checkEntry_keeps (s.refuse_stay port) (fun kinds c i => s.refuseFault_stay port kinds c i code) passed

/-! ## Pin reset (R177) -/

theorem CallsStay.of_reset {s t : State} (positions : t.positions = State.reset.positions)
    (whisper : t.whisper = State.reset.whisper) (streams : t.streams = State.reset.streams) : CallsStay s t := by
  obtain ⟨calls, unheard, players⟩ := (CallsKept.of_fields positions whisper streams).stay
  obtain ⟨sound, counted⟩ := calls reset_callsSound
  exact ⟨fun _ => ⟨sound, fun _ => counted reset_listenersCounted⟩, fun _ => unheard reset_stoppedUnheard,
    fun _ => players reset_playersSound⟩

/-! ## Commands that touch positions (R4, R24 to R45) -/

theorem exec_position_stay {c : Instr} {s t : State} (h : exec c s = .next t) (position : .positions ∈ commandParts c) :
    CallsStay s t := by
  cases c with
  | pinReset =>
    cases h
    exact .of_reset rfl rfl rfl
  | cycle trunkRx agentRx agentSig =>
    obtain e | ⟨-, e⟩ := cycle_next h <;> rw [e]
    · exact .refl s
    · exact s.settle_stay.trans (.of_touches (State.cycled_touches _ _ _ _) (by decide))
  | frameCompletion =>
    cases h
    split
    · exact s.settle_stay
    · exact .refl s
  | syncLossMissingPulse =>
    obtain e | e := syncLossMissingPulse_next h <;> rw [e]
    · exact .refl s
    · exact s.settle_stay.trans (.of_touches (State.loseSync_touches _ _ _) (by decide))
  | fsPulse bit =>
    obtain e | ⟨-, e⟩ := fsPulse_next h <;> rw [e]
    · exact .refl s
    · exact s.settle_stay.trans (.of_touches (State.pulsed_touches _ bit) (by decide))
  | openPosition port position slot tail profile =>
    refine CallsStay.of_request h fun u => ?_
    split
    · refine State.checked_stay fun passed => u.openAccepted_stay port _ _ _ ?_
      simp only [List.forall_mem_cons, decide_eq_false_iff_not, not_not] at passed
      obtain ⟨-, -, shut, -⟩ := passed
      exact shut
    · exact u.refuse_stay port _
  | closePosition port position =>
    refine CallsStay.of_request h fun u => State.withNumber_stay fun p => State.owned_stay fun _ _ passed =>
      u.closed_stay port p ?_
    exact passed _ (List.mem_singleton_self _)
  | connect port position trunk prompt stream =>
    refine CallsStay.of_request h fun u => ?_
    split
    · refine State.owned_stay fun _ owner passed => ?_
      simp only [List.forall_mem_cons, decide_eq_false_iff_not, not_not] at passed
      obtain ⟨idle, -, going, -⟩ := passed
      exact State.connect_keeps (P := CallsStay u) (u.refuse_stay port) (fun kinds c i => u.refuseFault_stay port kinds c i _)
        (fun _ => u.connected_stay port _ _ idle) fun _ _ => u.connectPrompt_stay _ _ _ idle owner going
    · exact u.refuse_stay port _
  | hold port position stream =>
    refine CallsStay.of_request h fun u => ?_
    split
    · refine State.owned_stay fun opened owner passed => ?_
      simp only [List.forall_mem_cons, Bool.or_eq_false_iff, decide_eq_false_iff_not] at passed
      obtain ⟨⟨idle, held⟩, going, -⟩ := passed
      refine u.holdAccepted_stay owner ?_ going
      cases state : (u.pos _).state with
      | closed => exact absurd state opened
      | idle => exact absurd state idle
      | held => exact absurd state held
      | connected => exact .inl rfl
      | announce => exact .inr rfl
    · exact u.refuse_stay port _
  | retrieve port position =>
    refine CallsStay.of_request h fun u => State.withNumber_stay fun p => State.owned_stay fun _ _ passed =>
      u.retrieveAccepted_stay port ?_
    simpa using passed _ (List.mem_singleton_self _)
  | release port position =>
    exact CallsStay.of_request h fun u => State.withNumber_stay fun p => State.owned_stay fun opened _ _ =>
      u.released_stay port p opened
  | setPosition port position params =>
    refine CallsStay.of_request h fun u => ?_
    split
    · exact State.owned_stay fun opened _ _ => u.setAccepted_stay port _ _ opened
    · exact u.refuse_stay port _
  | setTail port position tail =>
    exact CallsStay.of_request h fun u => State.withNumber_stay fun p => State.checked_stay fun _ =>
      State.owned_stay fun opened _ _ => u.tailAccepted_stay port _ opened
  | offerPositionOffer port position choice =>
    exact CallsStay.of_request h fun u => State.withNumber_stay fun p => State.checked_stay fun _ =>
      State.owned_stay fun opened _ _ => u.offer_stay port _ true _ _ _ opened
  | offerPositionWithdraw port position =>
    exact CallsStay.of_request h fun u => State.withNumber_stay fun p =>
      State.owned_stay fun opened _ _ => u.offer_stay port _ false _ _ _ opened
  | acceptPosition port position =>
    refine CallsStay.of_request h fun u => State.withNumber_stay fun p => State.checked_stay fun passed => ?_
    have opened : (u.pos p).state ≠ .closed := by
      have first := passed _ (List.mem_singleton_self _)
      simp only [Bool.or_eq_false_iff, decide_eq_false_iff_not] at first
      exact first.1.1
    exact ((u.passTo_stay port opened).trans (.of_touches (State.fileOwner_touches _ _ _ _ _) (by decide))).answered port _ _
  | positionStats port position clear =>
    exact CallsStay.of_request h fun u => State.withNumber_stay fun p => State.owned_stay fun opened _ _ =>
      u.statsAccepted_stay port clear opened
  | cancelWhisper port position =>
    exact CallsStay.of_request h fun u => State.withNumber_stay fun p => State.checked_stay fun _ =>
      u.cancelAccepted_stay port p
  | resetPort port =>
    exact CallsStay.of_request h fun u => (u.resetTeardown_stay port).answered port _ _
  | _ => exact absurd position (by simp [commandParts, grantParts])

/-! ## Commands that touch players (R117, R119, R128 to R132, R142 to R145, R158) -/

theorem exec_player_stay {c : Instr} {s t : State} (h : exec c s = .next t) (positions : .positions ∉ commandParts c)
    (players : .whisper ∈ commandParts c ∨ .streams ∈ commandParts c) : CallsStay s t := by
  cases c with
  | refreshTimerExpiry =>
    obtain rfl | rfl := refreshTimerExpiry_next h
    · exact .refl _
    · exact (CallsStay.of_touches (s.setArbiter_touches _) (by decide)).trans (State.grant_callsKept _).stay
  | pageFetchCompletion upsets =>
    obtain rfl | ⟨f, -, rfl⟩ := pageFetchCompletion_next h
    · exact .refl _
    · exact (s.fetchCompleted_callsKept f upsets).stay
  | portPageWriteCompletion =>
    obtain rfl | ⟨p, clip, index, page, codes, noted, -, rfl⟩ := portPageWriteCompletion_next h
    · exact .refl _
    · exact (s.writeCompleted_callsKept p clip index page codes noted).stay
  | portPageReadCompletion upsets =>
    obtain rfl | ⟨p, clip, index, page, -, rfl⟩ := portPageReadCompletion_next h
    · exact .refl _
    · exact (s.readCompleted_callsKept p clip index page upsets).stay
  | scrubStepCompletion upsets =>
    obtain rfl | ⟨-, rfl⟩ := scrubStepCompletion_next h
    · exact .refl _
    · exact (s.scrubCompleted_callsKept upsets).stay
  | writePage port clip index codes =>
    refine CallsStay.of_request h fun u => ?_
    dsimp only
    split
    · exact u.refuse_stay port _
    · split
      · exact u.refuseFault_stay port _ _ _ _
      · split
        · exact u.refuse_stay port _
        · exact (CallsStay.of_touches (u.setClip_touches _ _) (by decide)).trans (State.admitOp_callsKept _ port _).stay
  | readPage port clip index =>
    refine CallsStay.of_request h fun u => ?_
    dsimp only
    split
    · exact u.refuse_stay port _
    · split
      · exact u.refuseFault_stay port _ _ _ _
      · exact (CallsStay.of_touches (u.note_touches port _ _) (by decide)).trans (State.admitOp_callsKept _ port _).stay
  | startStream port stream playlist =>
    exact CallsStay.of_request h fun u => State.withNumber_stay fun k => State.checked_stay fun _ =>
      State.checkItems_stay (u.startAccepted_stay port k _)
  | loadStream port stream playlist =>
    exact CallsStay.of_request h fun u => State.withNumber_stay fun k => State.checked_stay fun _ =>
      State.checkItems_stay (u.loadAccepted_stay port k _)
  | stopStream port stream =>
    refine CallsStay.of_request h fun u => State.withNumber_stay fun k => State.checked_stay fun passed => ?_
    simp only [List.forall_mem_cons, decide_eq_false_iff_not, Nat.not_lt, Nat.le_zero] at passed
    obtain ⟨-, -, unheard, -⟩ := passed
    exact (u.stopStream_stay k unheard).answered port _ _
  | streamInfo port stream clear =>
    refine CallsStay.of_request h fun u => State.withNumber_stay fun k => State.checked_stay fun _ => ?_
    have drawn : CallsKept u (u.drawn 24) := .of_touches (u.drawn_touches 24) (by decide)
    dsimp only
    refine CallsStay.answered ?_ port _ _
    split
    · refine (drawn.trans ?_).stay
      exact State.setStream_callsKept _ k rfl id
    · exact drawn.stay
  | whisper port position clip gain =>
    refine CallsStay.of_request h fun u => State.withNumber_stay fun p => State.checked_stay fun passed =>
      State.checkEntry_stay (u.whisperAccepted_stay port _ gain ?_)
    exact of_decide_eq_false (passed _ (List.mem_singleton_self _))
  | pinReset | cycle | frameCompletion | syncLossMissingPulse | fsPulse | resetPort | closePosition | connect | hold
  | retrieve | release | acceptPosition | cancelWhisper =>
    exact absurd (by simp [commandParts, frameParts, closeParts]) positions
  | _ => exact absurd players (by simp [commandParts])

/-! ## Every command -/

theorem exec_stay {c : Instr} {s t : State} (h : exec c s = .next t) : CallsStay s t := by
  by_cases positions : .positions ∈ commandParts c
  · exact exec_position_stay h positions
  · by_cases players : .whisper ∈ commandParts c ∨ .streams ∈ commandParts c
    · exact exec_player_stay h positions players
    · rw [not_or] at players
      exact .of_touches (exec_touches h) ⟨positions, players⟩

/-- Settles O59: every command keeps the calls, the listener counts and the prompt players sound; the queue of commands is
no part of them. -/
theorem callsStaySound : Obligations.CallsStaySound := by
  intro s t h
  unfold step at h
  split at h
  · cases h
    exact CallsStay.refl s
  · next c rest _ =>
    exact CallsStay.trans (t := { s with pending := rest }) (CallsKept.of_fields rfl rfl rfl).stay (exec_stay h)

end Sys2Proof.Machine
end


section
/-! PROOFS. What several operations in a row withdraw: play counts given up, prompt players freed and requests removed, and
the records that one port gets (R115, R127, R161, R179). -/

namespace Sys2Proof.Machine

section
variable {s t u : State}

/-! ## Play counts (R115) -/

/-- From `s` to `t` the play counts have fallen by `n`, and nothing else of a clip has changed. -/
def PlaysDropped (s t : State) (n : Fin 256 → Nat) : Prop :=
  ∀ c, t.clip c = { s.clip c with plays := (s.clip c).plays - n c }

theorem PlaysDropped.of_clip (h : t.clip = s.clip) : PlaysDropped s t fun _ => 0 := fun c => by rw [h]; rfl

theorem PlaysDropped.trans {n m : Fin 256 → Nat} (h : PlaysDropped s t n) (k : PlaysDropped t u m) :
    PlaysDropped s u fun c => n c + m c := fun c => by
  rw [k c, h c]
  simp only [Nat.sub_sub]

theorem PlaysDropped.congr {n m : Fin 256 → Nat} (h : PlaysDropped s t n) (same : ∀ c, n c = m c) : PlaysDropped s t m :=
  (funext same : n = m) ▸ h

theorem State.clip_of_clipStore (h : t.clipStore = s.clipStore) : t.clip = s.clip := by
  unfold State.clip
  rw [h]

/-- The entries of a list that name a clip. -/
def namingEntries (c : Fin 256) (l : List Entry) : Nat := (l.filter fun e => e.clip = c).length

/-- A step that gives up what one object holds, and leaves alone what the others hold, done for the objects of a list. -/
theorem foldl_playsDropped {ι α : Type} {f : State → ι → State} (held : State → ι → α) (n : α → Fin 256 → Nat)
    (each : ∀ s p, PlaysDropped s (f s p) (n (held s p))) (others : ∀ s p q, p ≠ q → held (f s p) q = held s q)
    (l : List ι) (distinct : l.Nodup) (s : State) :
    PlaysDropped s (l.foldl f s) fun c => (l.map fun p => n (held s p) c).sum := by
  induction l generalizing s with
  | nil => exact .of_clip rfl
  | cons p l ih =>
    obtain ⟨fresh, distinct⟩ := List.nodup_cons.mp distinct
    refine ((each s p).trans (ih distinct (f s p))).congr fun c => ?_
    rw [List.map_cons, List.sum_cons]
    refine congrArg (_ + ·) (congrArg List.sum (List.map_congr_left fun q member => ?_))
    rw [others s p q fun same => fresh (same ▸ member)]

/-! ## Prompt players and requests (R127, R161) -/

/-- Whether a waiting request stands when streams have stopped and prompt players are free. -/
def Fetch.stands (streams freed : Fin 16 → Bool) (f : Fetch) : Bool :=
  match f.player with
  | .stream k => !streams k
  | .prompt w => !freed w

/-- The prompt players assigned to positions that a test picks. -/
def State.assignedTo (s : State) (test : Fin 64 → Bool) (w : Fin 16) : Bool := (s.player w).assigned.any test

/-- From `s` to `t` the prompt players of the positions that `test` picks are free, with their generations raised, and the
requests of these players and of `streams` are removed. -/
def PlayersFreed (s t : State) (streams : Fin 16 → Bool) (test : Fin 64 → Bool) : Prop :=
  (∀ w, t.player w = if s.assignedTo test w = true then ⟨none, (s.player w).generation + 1, .absent, .empty, none⟩
      else s.player w)
    ∧ t.arbiter = { s.arbiter with queue := s.arbiter.queue.filter (Fetch.stands streams (s.assignedTo test)) }

theorem PlayersFreed.of_same (player : t.player = s.player) (arbiter : t.arbiter = s.arbiter) :
    PlayersFreed s t (fun _ => false) fun _ => false := by
  have none : ∀ w, s.assignedTo (fun _ => false) w = false := fun w => by
    unfold State.assignedTo
    cases (s.player w).assigned <;> rfl
  refine ⟨fun w => ?_, ?_⟩
  · rw [none, player]
    rfl
  · have stands : s.arbiter.queue.filter (Fetch.stands (fun _ => false) (s.assignedTo fun _ => false)) = s.arbiter.queue := by
      refine List.filter_eq_self.mpr fun f _ => ?_
      unfold Fetch.stands
      cases f.player with
      | stream k => rfl
      | prompt w => exact congrArg (!·) (none w)
    rw [stands, arbiter]

theorem PlayersFreed.congr {a a' : Fin 16 → Bool} {b b' : Fin 64 → Bool} (h : PlayersFreed s t a b)
    (streams : ∀ k, a k = a' k) (test : ∀ p, b p = b' p) : PlayersFreed s t a' b' :=
  (funext streams : a = a') ▸ (funext test : b = b') ▸ h

theorem PlayersFreed.trans {a a' : Fin 16 → Bool} {b b' : Fin 64 → Bool} (h : PlayersFreed s t a b)
    (k : PlayersFreed t u a' b') : PlayersFreed s u (fun k => a k || a' k) fun p => b p || b' p := by
  obtain ⟨player, arbiter⟩ := h
  obtain ⟨player', arbiter'⟩ := k
  have either : ∀ w, s.assignedTo (fun p => b p || b' p) w = (s.assignedTo b w || s.assignedTo b' w) := fun w => by
    unfold State.assignedTo
    cases (s.player w).assigned <;> rfl
  have later : ∀ w, t.assignedTo b' w = (!s.assignedTo b w && s.assignedTo b' w) := fun w => by
    show (t.player w).assigned.any b' = _
    rw [player w]
    cases freed : s.assignedTo b w with
    | true => rfl
    | false => rfl
  refine ⟨fun w => ?_, ?_⟩
  · rw [player', later, player, either]
    cases freed : s.assignedTo b w with
    | true => rfl
    | false => rfl
  · rw [arbiter', arbiter, List.filter_filter]
    refine congrArg (fun l => ({ s.arbiter with queue := l } : Arbiter)) (List.filter_congr fun f _ => ?_)
    unfold Fetch.stands
    cases f.player with
    | stream k =>
      simp only
      rw [Bool.not_or, Bool.and_comm]
    | prompt w =>
      simp only [later, either]
      cases s.assignedTo b w <;> cases s.assignedTo b' w <;> rfl

/-- What the flush of chosen entries frees: the player of an entry that was PRIMING or SOUNDING. -/
theorem State.flush_playersFreed (h : s.PlayersHeld) (p : Fin 64) (cause : FlushCause) (chosen : Entry → Bool) :
    PlayersFreed s (s.flush p cause chosen) (fun _ => false)
      fun q => decide (p = q) && ((s.queue p).filter chosen).any fun e => e.phase ≠ .waiting := by
  obtain ⟨-, -, -, -, -, quiet, begun⟩ := s.flush_leaves p cause chosen
  by_cases waiting : ((s.queue p).filter chosen).all (fun e => e.phase = .waiting) = true
  · obtain ⟨players, arbiter⟩ := quiet waiting
    have none : ((s.queue p).filter chosen).any (fun e => e.phase ≠ .waiting) = false := by
      rw [List.any_eq_false]
      intro e member
      simpa using List.all_eq_true.mp waiting e member
    refine (PlayersFreed.of_same (by unfold State.player; rw [players]) arbiter).congr (fun _ => rfl) fun q => ?_
    rw [none, Bool.and_false]
  · obtain ⟨e, flushed, plays⟩ : ∃ e ∈ (s.queue p).filter chosen, e.phase ≠ .waiting := by
      simpa [and_assoc] using waiting
    cases line : s.queue p with
    | nil => rw [line] at flushed; exact nomatch flushed
    | cons f rest =>
      have behind := h.tail_waiting line
      have first : f = e := by
        rw [line] at flushed
        rcases List.mem_cons.mp (List.mem_filter.mp flushed).1 with same | later
        · exact same.symm
        · exact absurd (behind e later) plays
      subst first
      have picked := (List.mem_filter.mp flushed).2
      have head : (s.phases p).head? = some f.phase := (s.phases_head p _).mpr ⟨f, by rw [line]; rfl, rfl⟩
      obtain ⟨v, own⟩ := h.held p f.phase head plays
      obtain ⟨w, player⟩ := State.playerOf_of_assigned own
      have mine := State.playerOf_some player
      rw [line, List.filter_cons_of_pos picked] at begun
      obtain ⟨players, arbiter⟩ := begun f _ w rfl plays (phase_waiting_of_filter behind chosen) player
      have some : ((f :: rest).filter chosen).any (fun e => e.phase ≠ .waiting) = true := by
        rw [List.filter_cons_of_pos picked]
        simp [plays]
      have freed : ∀ u, s.assignedTo (fun q => decide (p = q)) u = decide (w = u) := fun u => by
        unfold State.assignedTo
        by_cases same : w = u
        · rw [← same, mine]
          simp
        · cases other : (s.player u).assigned with
          | none => simp [same]
          | some q =>
            have apart : p ≠ q := fun equal => same (h.one w u p mine (equal ▸ other))
            simp [same, apart]
      refine PlayersFreed.congr (a := fun _ => false) (b := fun q => decide (p = q)) ⟨fun u => ?_, ?_⟩ (fun _ => rfl) fun q => ?_
      · unfold State.player at freed ⊢
        rw [players, Table.cell_put, freed]
        by_cases same : w = u
        · simp [same, State.player]
        · simp [same]
      · rw [arbiter]
        refine congrArg (fun l => ({ s.arbiter with queue := l } : Arbiter)) (List.filter_congr fun g _ => ?_)
        unfold Fetch.stands
        cases g.player with
        | stream k => simp
        | prompt u => simp [freed, eq_comm]
      · rw [some, Bool.and_true]

/-! ## Records for one port (R179) -/

theorem State.fileOwner_eventsOf_other {o : Option Port} {q : Port} (apart : o ≠ some q) (s : State) (k : EventKind) (a d : Nat) :
    (s.fileOwner o k a d).eventsOf q = s.eventsOf q := by
  cases o with
  | none => rfl
  | some p =>
    show (s.file p k a d).eventsOf q = _
    unfold State.file
    split
    · exact PerPort.cell_put_other _ _ _ _ fun same => apart (congrArg some same)
    · rfl

/-- What filing a record leaves for a port depends on that port's records, the start-up items and the frame stamp. -/
theorem State.fileOwner_eventsOf {q : Port} (events : t.eventsOf q = s.eventsOf q) (startUp : t.startUp = s.startUp)
    (stamp : t.highway.stamp = s.highway.stamp) (o : Option Port) (k : EventKind) (a d : Nat) :
    (t.fileOwner o k a d).eventsOf q = (s.fileOwner o k a d).eventsOf q := by
  by_cases own : o = some q
  · have enabled : t.enabled q = s.enabled q := by unfold State.enabled; rw [startUp]
    subst own
    show (t.file q k a d).eventsOf q = (s.file q k a d).eventsOf q
    unfold State.file
    rw [enabled, events, stamp]
    split
    · exact (PerPort.cell_put_same _ q _).trans (PerPort.cell_put_same _ q _).symm
    · exact events
  · rw [State.fileOwner_eventsOf_other own, State.fileOwner_eventsOf_other own, events]

theorem State.filed_eventsOf {q : Port} (events : t.eventsOf q = s.eventsOf q) (startUp : t.startUp = s.startUp)
    (stamp : t.highway.stamp = s.highway.stamp) (l : List Filing) : (t.filed l).eventsOf q = (s.filed l).eventsOf q := by
  induction l generalizing s t with
  | nil => exact events
  | cons x l ih =>
    refine ih (State.fileOwner_eventsOf events startUp stamp _ _ _ _) ?_ ?_
    · exact (State.fileOwner_keeps (fun u => u.startUp) (fun _ _ => rfl) t _ _ _ _).trans
        (startUp.trans (State.fileOwner_keeps (fun u => u.startUp) (fun _ _ => rfl) s _ _ _ _).symm)
    · exact (State.fileOwner_keeps (fun u => u.highway.stamp) (fun _ _ => rfl) t _ _ _ _).trans
        (stamp.trans (State.fileOwner_keeps (fun u => u.highway.stamp) (fun _ _ => rfl) s _ _ _ _).symm)

/-- The records for a port among several. -/
def filingsFor (q : Port) (l : List Filing) : List Filing := l.filter fun x => x.1 = some q

theorem State.filed_filingsFor (s : State) (q : Port) (l : List Filing) :
    (s.filed l).eventsOf q = (s.filed (filingsFor q l)).eventsOf q := by
  induction l generalizing s with
  | nil => rfl
  | cons x l ih =>
    rw [State.filed_cons, ih]
    unfold filingsFor
    by_cases own : x.1 = some q
    · rw [List.filter_cons_of_pos (by simpa using own), State.filed_cons]
    · rw [List.filter_cons_of_neg (by simpa using own)]
      exact State.filed_eventsOf (State.fileOwner_eventsOf_other own s _ _ _)
        (State.fileOwner_keeps (fun u => u.startUp) (fun _ _ => rfl) s _ _ _ _)
        (State.fileOwner_keeps (fun u => u.highway.stamp) (fun _ _ => rfl) s _ _ _ _) _

/-- From `s` to `t` a port has got the records of `l` that are for it. -/
structure FiledFor (q : Port) (s t : State) (l : List Filing) : Prop where
  events : t.eventsOf q = (s.filed l).eventsOf q
  startUp : t.startUp = s.startUp
  stamp : t.highway.stamp = s.highway.stamp

theorem FiledFor.of_same (q : Port) (events : t.events = s.events) (startUp : t.startUp = s.startUp)
    (stamp : t.highway.stamp = s.highway.stamp) : FiledFor q s t [] := ⟨congrArg (·.cell q) events, startUp, stamp⟩

theorem FiledFor.congr {q : Port} {l m : List Filing} (h : FiledFor q s t l) (same : filingsFor q l = filingsFor q m) :
    FiledFor q s t m :=
  ⟨by rw [h.events, State.filed_filingsFor, same, ← State.filed_filingsFor], h.startUp, h.stamp⟩

theorem FiledFor.trans {q : Port} {l m : List Filing} (h : FiledFor q s t l) (k : FiledFor q t u m) :
    FiledFor q s u (l ++ m) := by
  refine ⟨?_, k.startUp.trans h.startUp, k.stamp.trans h.stamp⟩
  rw [k.events, State.filed_append]
  refine State.filed_eventsOf h.events ?_ ?_ m
  · exact h.startUp.trans (State.filed_keeps (fun u => u.startUp) (fun _ _ => rfl) s l).symm
  · exact h.stamp.trans (State.filed_keeps (fun u => u.highway.stamp) (fun _ _ => rfl) s l).symm

theorem FiledFor.of_events (q : Port) {l : List Filing} (events : t.events = (s.filed l).events) (startUp : t.startUp = s.startUp)
    (stamp : t.highway.stamp = s.highway.stamp) : FiledFor q s t l := ⟨congrArg (·.cell q) events, startUp, stamp⟩

theorem filingsFor_append (q : Port) (l m : List Filing) : filingsFor q (l ++ m) = filingsFor q l ++ filingsFor q m :=
  List.filter_append ..

theorem filingsFor_eq_nil {q : Port} {l : List Filing} (h : ∀ x ∈ l, x.1 ≠ some q) : filingsFor q l = [] :=
  List.filter_eq_nil_iff.mpr fun x member => by simpa using h x member

end

end Sys2Proof.Machine
end


section
/-! PROOFS. The closures of a port reset, one after another: what each leaves in every block, and what they leave together
(R42, R61, R85, R101, R115, R161). -/

namespace Sys2Proof.Machine

/-! ## One closure (R42) -/

/-- The release that precedes the closure of a position in a call. -/
def State.hungUp (s : State) (p : Fin 64) : State :=
  if (s.pos p).state.inCall then s.releasing p .portReset else s

theorem State.tearDown_eq (s : State) (p : Fin 64) : s.tearDown p = (s.hungUp p).closing p .portReset := rfl

theorem portReset_other : FlushCause.portReset ≠ .cancel := by decide

section
variable (s : State) (p : Fin 64)

theorem State.hungUp_of_call {s : State} {p : Fin 64} (called : (s.pos p).state.inCall = true) :
    s.hungUp p = s.releasing p .portReset := if_pos called

theorem State.hungUp_of_idle {s : State} {p : Fin 64} (idle : (s.pos p).state.inCall = false) : s.hungUp p = s :=
  if_neg (Bool.eq_false_iff.mp idle)

theorem State.hungUp_touches : Touches releaseParts s (s.hungUp p) := by
  unfold State.hungUp
  split
  · exact s.releasing_releaseParts portReset_other p
  · exact Touches.refl _ s

theorem State.tearDown_suppress : (s.tearDown p).suppress
    = { s.suppress with positions := s.suppress.positions.put p (Suppressor.fresh (s.profile 2)) } := by
  have before : (s.hungUp p).suppress = s.suppress := s.hungUp_touches p .suppress (by decide)
  rw [State.tearDown_eq, State.closing_suppress portReset_other]
  unfold State.profile
  rw [before]

theorem State.tearDown_echo : (s.tearDown p).echo = { s.echo with
    free := segmentSet fun g => g ∈ s.echo.free || g ∈ s.segments p
    positions := s.echo.positions.put p (Canceller.zeroed []) } := by
  have before : (s.hungUp p).echo = s.echo := s.hungUp_touches p .echo (by decide)
  rw [State.tearDown_eq, State.closing_echo portReset_other]
  unfold State.segments State.canceller
  rw [before]

theorem State.tearDown_coachDuck : (s.tearDown p).mixer.coachDuck = s.mixer.coachDuck.put p 0 := by
  rw [State.tearDown_eq, State.closing_coachDuck portReset_other, s.hungUp_touches p .mixer (by decide)]

theorem State.tearDown_tap (u : Fin 16) :
    (s.tearDown p).tap u = (s.tap u).filter fun x => x.listener ≠ p ∧ x.target ≠ p := by
  have before : (s.hungUp p).tap u = s.tap u :=
    congrArg (fun m : Mixer => m.taps.cell u) (s.hungUp_touches p .mixer (by decide))
  rw [State.tearDown_eq, State.closing_tap portReset_other, before]

theorem State.hungUp_agentSlot : ((s.hungUp p).pos p).agentSlot = (s.pos p).agentSlot := by
  unfold State.hungUp
  split
  · rw [State.releasing_pos portReset_other, if_pos rfl]
    rfl
  · rfl

theorem State.hungUp_highway : (s.hungUp p).highway = { s.highway with trunk := (s.hungUp p).highway.trunk }
    ∧ ∀ v, (s.hungUp p).highway.trunk.cell v
      = if ((s.pos p).state.inCall && (s.pos p).trunkSlot = some v) = true then none else s.highway.trunk.cell v := by
  cases called : (s.pos p).state.inCall with
  | false => rw [State.hungUp_of_idle called]; exact ⟨rfl, fun _ => rfl⟩
  | true =>
    rw [State.hungUp_of_call called, State.releasing_highway portReset_other]
    exact ⟨s.unbindTrunk_rest _, fun v => by simp only [State.unbindTrunk_cell, Bool.true_and, decide_eq_true_eq]⟩

theorem State.tearDown_highway : (s.tearDown p).highway
    = { s.highway with agent := (s.tearDown p).highway.agent, trunk := (s.tearDown p).highway.trunk } := by
  obtain ⟨before, -⟩ := s.hungUp_highway p
  rw [State.tearDown_eq, State.closing_highway portReset_other, State.unbindAgent_rest, before]

theorem State.tearDown_agent (a : Fin 64) : (s.tearDown p).highway.agent.cell a
    = if (s.pos p).agentSlot = some a then none else s.highway.agent.cell a := by
  obtain ⟨before, -⟩ := s.hungUp_highway p
  rw [State.tearDown_eq, State.closing_highway portReset_other, State.unbindAgent_cell, State.hungUp_agentSlot, before]

theorem State.tearDown_trunk (v : Fin 64) : (s.tearDown p).highway.trunk.cell v
    = if ((s.pos p).state.inCall && (s.pos p).trunkSlot = some v) = true then none else s.highway.trunk.cell v := by
  obtain ⟨-, before⟩ := s.hungUp_highway p
  rw [← before, State.tearDown_eq, State.closing_highway portReset_other, State.unbindAgent_rest]

/-- How many listeners a closure takes from a stream. -/
def Position.leaves (x : Position) (k : Fin 16) : Bool := x.state.inCall && x.stream = some k

theorem State.tearDown_stream (k : Fin 16) : (s.tearDown p).stream k
    = { s.stream k with listeners := (s.stream k).listeners - if (s.pos p).leaves k = true then 1 else 0 } := by
  have closed : (s.tearDown p).streams = (s.hungUp p).streams :=
    State.closing_quietCloseParts portReset_other (s.hungUp p) p .streams (by decide)
  unfold State.stream Position.leaves
  rw [closed]
  cases called : (s.pos p).state.inCall with
  | false => rw [State.hungUp_of_idle called]; rfl
  | true =>
    rw [State.hungUp_of_call called, State.releasing_streams portReset_other]
    cases named : (s.pos p).stream with
    | none => rfl
    | some j =>
      have left : (s.dropListener (some j)).stream k = _ := s.setStream_stream j k _
      refine Eq.trans left ?_
      by_cases same : j = k
      · rw [if_pos same, same]
        simp [State.stream]
      · rw [if_neg same]
        simp [same, State.stream]

theorem State.hungUp_queue (q : Fin 64) : (s.hungUp p).queue q
    = if p = q ∧ (s.pos p).state.inCall = true then [] else s.queue q := by
  cases called : (s.pos p).state.inCall with
  | false => rw [State.hungUp_of_idle called, if_neg fun h => nomatch h.2]
  | true => rw [State.hungUp_of_call called, State.releasing_queue portReset_other]; simp

theorem State.tearDown_queue (q : Fin 64) : (s.tearDown p).queue q = if p = q then [] else s.queue q := by
  rw [State.tearDown_eq, State.closing_queue portReset_other, State.hungUp_queue]
  by_cases same : p = q
  · rw [if_pos same, if_pos same]
  · rw [if_neg same, if_neg same, if_neg fun h => same h.1]

theorem FlushLeaves.playsDropped {s u : State} {p : Fin 64} {flushed kept : List Entry} (h : FlushLeaves s u p flushed kept) :
    PlaysDropped s u fun c => namingEntries c flushed := h.2.2.2.2.1

theorem State.tearDown_playsDropped : PlaysDropped s (s.tearDown p) fun c => namingEntries c (s.queue p) := by
  have closed := (State.closing_leaves portReset_other (s.hungUp p) p).playsDropped
  rw [State.hungUp_queue] at closed
  cases called : (s.pos p).state.inCall with
  | false =>
    rw [called, if_neg fun h => nomatch h.2] at closed
    rw [State.tearDown_eq]
    rwa [State.hungUp_of_idle called] at closed ⊢
  | true =>
    rw [called, if_pos ⟨rfl, rfl⟩] at closed
    have released : PlaysDropped s (s.hungUp p) fun c => namingEntries c (s.queue p) := by
      rw [State.hungUp_of_call called]
      exact (s.releasing_leaves portReset_other p).playsDropped
    exact (released.trans closed).congr fun c => rfl

theorem State.tearDown_rest : (s.tearDown p).whisper.arrival = s.whisper.arrival
    ∧ (s.tearDown p).clipStore.faults = s.clipStore.faults
    ∧ (s.tearDown p).echo.coefficients = s.echo.coefficients := by
  obtain ⟨-, -, arrival, faults, -⟩ := State.closing_leaves portReset_other (s.hungUp p) p
  refine ⟨arrival.trans ?_, faults.trans ?_, by rw [State.tearDown_echo]⟩
  · unfold State.hungUp
    split
    · exact (s.releasing_leaves portReset_other p).2.2.1
    · rfl
  · unfold State.hungUp
    split
    · exact (s.releasing_leaves portReset_other p).2.2.2.1
    · rfl

end

/-- A flush frees players as its whisper block and arbiter say, whatever follows in other blocks. -/
theorem PlayersFreed.of_after {s t u : State} {a : Fin 16 → Bool} {b : Fin 64 → Bool} (h : PlayersFreed s t a b)
    (whisper : u.whisper = t.whisper) (arbiter : u.arbiter = t.arbiter) : PlayersFreed s u a b := by
  unfold PlayersFreed State.player at h ⊢
  rw [whisper, arbiter]
  exact h

theorem State.releasing_playersFreed {s : State} (h : s.PlayersHeld) (p : Fin 64) :
    PlayersFreed s (s.releasing p .portReset) (fun _ => false)
      fun q => decide (p = q) && (s.queue p).any fun e => e.phase ≠ .waiting := by
  have after := s.releasing_after_flush portReset_other p
  have flushed := State.flush_playersFreed h p .portReset fun _ => true
  rw [List.filter_true] at flushed
  exact flushed.of_after (after .whisper (by decide)) (after .arbiter (by decide))

theorem State.closing_playersFreed {s : State} (h : s.PlayersHeld) (p : Fin 64) :
    PlayersFreed s (s.closing p .portReset) (fun _ => false)
      fun q => decide (p = q) && (s.queue p).any fun e => e.phase ≠ .waiting := by
  have after := s.closing_after_flush portReset_other p
  have flushed := State.flush_playersFreed h p .portReset fun _ => true
  rw [List.filter_true] at flushed
  exact flushed.of_after (after .whisper (by decide)) (after .arbiter (by decide))

theorem State.tearDown_playersHeld {s : State} (h : s.PlayersHeld) (p : Fin 64) : (s.tearDown p).PlayersHeld :=
  State.tearDown_keeps (fun t q => t.releasing_playersHeld portReset_other q)
    (fun t q => t.closing_playersHeld portReset_other q) h p

theorem State.tearDown_playersFreed {s : State} (h : s.PlayersHeld) (p : Fin 64) :
    PlayersFreed s (s.tearDown p) (fun _ => false)
      fun q => decide (p = q) && (s.queue p).any fun e => e.phase ≠ .waiting := by
  rw [State.tearDown_eq]
  cases called : (s.pos p).state.inCall with
  | false =>
    rw [State.hungUp_of_idle called]
    exact State.closing_playersFreed h p
  | true =>
    rw [State.hungUp_of_call called]
    refine ((State.releasing_playersFreed h p).trans (State.closing_playersFreed
      (s.releasing_playersHeld portReset_other p h) p)).congr (fun _ => rfl) fun q => ?_
    rw [State.releasing_queue portReset_other, if_pos rfl]
    simp

/-! ## Closures one after another -/

section
variable (l : List (Fin 64)) (s : State)

theorem tearDowns_queue (q : Fin 64) : (l.foldl State.tearDown s).queue q = if q ∈ l then [] else s.queue q :=
  foldl_each State.queue (g := fun _ => []) State.tearDown_queue (fun _ => rfl) l s q

theorem tearDowns_canceller (q : Fin 64) : (l.foldl State.tearDown s).canceller q
    = if q ∈ l then Canceller.zeroed [] else s.canceller q :=
  foldl_each State.canceller (g := fun _ => Canceller.zeroed []) (fun t p q => by
    unfold State.canceller
    rw [State.tearDown_echo]
    exact Table.cell_put ..) (fun _ => rfl) l s q

theorem tearDowns_coachDuck (q : Fin 64) : (l.foldl State.tearDown s).coachDuck q = if q ∈ l then 0 else s.coachDuck q :=
  foldl_each State.coachDuck (g := fun _ => 0) (fun t p q => by
    unfold State.coachDuck
    rw [State.tearDown_coachDuck]
    exact Table.cell_put ..) (fun _ => rfl) l s q

theorem tearDowns_profiles : (l.foldl State.tearDown s).suppress.profiles = s.suppress.profiles :=
  foldl_keeps (P := fun t : State => t.suppress.profiles = s.suppress.profiles)
    (fun t p h => by rw [State.tearDown_suppress]; exact h) l s rfl

theorem tearDowns_suppressor (q : Fin 64) : (l.foldl State.tearDown s).suppressor q
    = if q ∈ l then Suppressor.fresh (s.profile 2) else s.suppressor q := by
  induction l generalizing s with
  | nil => rfl
  | cons p l ih =>
    have profile : (s.tearDown p).profile 2 = s.profile 2 := by
      unfold State.profile
      rw [State.tearDown_suppress]
    have first : (s.tearDown p).suppressor q = if p = q then Suppressor.fresh (s.profile 2) else s.suppressor q := by
      unfold State.suppressor
      rw [State.tearDown_suppress]
      exact Table.cell_put ..
    rw [List.foldl_cons, ih, profile, first]
    by_cases same : p = q
    · simp [same]
    · simp [same, Ne.symm same]

theorem tearDowns_rest : (l.foldl State.tearDown s).whisper.arrival = s.whisper.arrival
    ∧ (l.foldl State.tearDown s).clipStore.faults = s.clipStore.faults
    ∧ (l.foldl State.tearDown s).echo.coefficients = s.echo.coefficients :=
  foldl_keeps (P := fun t : State => t.whisper.arrival = s.whisper.arrival ∧ t.clipStore.faults = s.clipStore.faults
    ∧ t.echo.coefficients = s.echo.coefficients) (fun t p h => by
      obtain ⟨arrival, faults, coefficients⟩ := t.tearDown_rest p
      exact ⟨arrival.trans h.1, faults.trans h.2.1, coefficients.trans h.2.2⟩) l s ⟨rfl, rfl, rfl⟩

theorem tearDowns_free (g : Fin 128) : g ∈ (l.foldl State.tearDown s).echo.free
    ↔ g ∈ s.echo.free ∨ ∃ p ∈ l, g ∈ s.segments p := by
  induction l generalizing s with
  | nil => simp
  | cons p l ih =>
    have segments : ∀ q, (s.tearDown p).segments q = if p = q then [] else s.segments q := fun q => by
      unfold State.segments State.canceller
      rw [State.tearDown_echo, Table.cell_put]
      split
      · rfl
      · rfl
    have free : g ∈ (s.tearDown p).echo.free ↔ g ∈ s.echo.free ∨ g ∈ s.segments p := by
      rw [State.tearDown_echo, mem_segmentSet, Bool.or_eq_true, decide_eq_true_iff, decide_eq_true_iff]
    rw [List.foldl_cons, ih, free]
    simp only [segments, List.exists_mem_cons_iff, or_assoc]
    refine or_congr_right ?_
    by_cases held : g ∈ s.segments p
    · simp [held]
    · simp only [held, false_or]
      refine exists_congr fun q => and_congr_right fun _ => ?_
      split
      · next same => rw [← same]; exact iff_of_false List.not_mem_nil held
      · exact Iff.rfl

theorem tearDowns_highway : (l.foldl State.tearDown s).highway = { s.highway with
    agent := (l.foldl State.tearDown s).highway.agent, trunk := (l.foldl State.tearDown s).highway.trunk } :=
  foldl_keeps (P := fun t : State => t.highway = { s.highway with agent := t.highway.agent, trunk := t.highway.trunk })
    (fun t p h => by
      refine (t.tearDown_highway p).trans ?_
      generalize (t.tearDown p).highway.agent = agent
      generalize (t.tearDown p).highway.trunk = trunk
      rw [h]) l s rfl

theorem tearDowns_agent (a : Fin 64) : (l.foldl State.tearDown s).highway.agent.cell a
    = if l.any (fun p => (s.pos p).agentSlot = some a) = true then none else s.highway.agent.cell a := by
  induction l generalizing s with
  | nil => rfl
  | cons p l ih =>
    rw [List.foldl_cons, ih, State.tearDown_agent, List.any_cons]
    by_cases own : (s.pos p).agentSlot = some a
    · simp [own]
    · have later : ∀ q, ((s.tearDown p).pos q).agentSlot = some a ↔ (s.pos q).agentSlot = some a := fun q => by
        rw [State.tearDown_pos]
        split
        · next same => rw [← same]; exact iff_of_false nofun own
        · exact Iff.rfl
      simp only [later, own, if_false, decide_false, Bool.false_or]

theorem tearDowns_trunk (v : Fin 64) : (l.foldl State.tearDown s).highway.trunk.cell v
    = if l.any (fun p => (s.pos p).state.inCall && (s.pos p).trunkSlot = some v) = true then none
      else s.highway.trunk.cell v := by
  induction l generalizing s with
  | nil => rfl
  | cons p l ih =>
    rw [List.foldl_cons, ih, State.tearDown_trunk, List.any_cons]
    cases own : ((s.pos p).state.inCall && decide ((s.pos p).trunkSlot = some v)) with
    | true => simp
    | false =>
      have later : ∀ q, (((s.tearDown p).pos q).state.inCall && decide (((s.tearDown p).pos q).trunkSlot = some v))
          = ((s.pos q).state.inCall && decide ((s.pos q).trunkSlot = some v)) := fun q => by
        rw [State.tearDown_pos]
        split
        · next same => rw [← same, own]; rfl
        · rfl
      simp only [later, Bool.false_or, if_neg Bool.false_ne_true]

theorem tearDowns_tap (u : Fin 16) : (l.foldl State.tearDown s).tap u
    = (s.tap u).filter fun x => x.listener ∉ l ∧ x.target ∉ l := by
  induction l generalizing s with
  | nil =>
    cases tap : s.tap u with
    | none => exact tap
    | some x => exact tap
  | cons p l ih =>
    rw [List.foldl_cons, ih, State.tearDown_tap, Option.filter_filter]
    congr 1
    funext x
    simp only [List.mem_cons, not_or, Bool.decide_and]
    cases decide (x.listener ≠ p) <;> cases decide (x.target ≠ p) <;> simp

theorem tearDowns_stream (distinct : l.Nodup) (k : Fin 16) : (l.foldl State.tearDown s).stream k = { s.stream k with
    listeners := (s.stream k).listeners - (l.filter fun p => (s.pos p).leaves k).length } := by
  induction l generalizing s with
  | nil => rfl
  | cons p l ih =>
    obtain ⟨fresh, distinct⟩ := List.nodup_cons.mp distinct
    have later : (l.filter fun q => ((s.tearDown p).pos q).leaves k) = l.filter fun q => (s.pos q).leaves k :=
      List.filter_congr fun q member => by
        have apart : p ≠ q := fun same => fresh (same ▸ member)
        rw [State.tearDown_pos, if_neg apart]
    rw [List.foldl_cons, ih _ distinct, later, State.tearDown_stream, List.filter_cons]
    split
    · rw [List.length_cons, Nat.sub_sub, Nat.add_comm]
    · rfl

theorem tearDowns_playsDropped (distinct : l.Nodup) : PlaysDropped s (l.foldl State.tearDown s)
    fun c => (l.map fun p => namingEntries c (s.queue p)).sum :=
  foldl_playsDropped State.queue (fun q c => namingEntries c q) State.tearDown_playsDropped
    (fun t p q apart => by rw [State.tearDown_queue, if_neg apart]) l distinct s

theorem tearDowns_playersFreed {s : State} (h : s.PlayersHeld) : PlayersFreed s (l.foldl State.tearDown s) (fun _ => false)
    fun q => decide (q ∈ l) && (s.queue q).any fun e => e.phase ≠ .waiting := by
  induction l generalizing s with
  | nil => exact (PlayersFreed.of_same (s := s) (t := s) rfl rfl).congr (fun _ => rfl) fun _ => rfl
  | cons p l ih =>
    rw [List.foldl_cons]
    refine ((State.tearDown_playersFreed h p).trans (ih (State.tearDown_playersHeld h p))).congr (fun _ => rfl) fun q => ?_
    rw [State.tearDown_queue]
    by_cases same : p = q
    · simp [same]
    · simp [same, Ne.symm same]

end

/-! ## What the closures file (R42, R101, R161) -/

theorem State.releasing_filed (s : State) (p : Fin 64) (q : Port) :
    FiledFor q s (s.releasing p .portReset) (s.releaseFilings p .portReset) := by
  refine .of_events q (s.releasing_events portReset_other p) (s.releasing_releaseParts portReset_other p .startUp (by decide)) ?_
  rw [s.releasing_highway portReset_other p, State.unbindTrunk_rest]

theorem State.closing_filed (s : State) (p : Fin 64) (q : Port) :
    FiledFor q s (s.closing p .portReset) (s.closeFilings p .portReset) := by
  refine .of_events q (s.closing_events portReset_other p) (s.closing_quietCloseParts portReset_other p .startUp (by decide)) ?_
  rw [s.closing_highway portReset_other p, State.unbindAgent_rest]

theorem other_ne (port : Port) : port.other ≠ port := by cases port <;> decide

theorem filingsFor_append_nil {q : Port} (l m : List Filing) (none : filingsFor q m = []) :
    filingsFor q (l ++ m) = filingsFor q l := by rw [filingsFor_append, none, List.append_nil]

/-- For the other port the closure of a kept position files its queue's flush and the end of its taps. -/
theorem State.tearDown_filed (s : State) {port : Port} {p : Fin 64} (owner : (s.pos p).owner = some port)
    (offer : (s.pos p).offer = false) : FiledFor port.other s (s.tearDown p)
      (flushFilings p 3 (s.queue p) ++ tapFilings p (s.tapsNaming p)) := by
  rw [State.tearDown_eq]
  cases called : (s.pos p).state.inCall with
  | false =>
    rw [State.hungUp_of_idle called]
    refine (s.closing_filed p port.other).congr ?_
    unfold State.closeFilings
    rw [offer]
    exact congrArg _ (List.append_nil _)
  | true =>
    rw [State.hungUp_of_call called]
    have offer' : ((s.releasing p .portReset).pos p).offer = false := by
      rw [State.releasing_pos portReset_other, if_pos rfl]
      exact offer
    have taps : (s.releasing p .portReset).tapsNaming p = s.tapsNaming p :=
      State.tapsNaming_congr (s.releasing_releaseParts portReset_other p .mixer (by decide)) p
    have queue : (s.releasing p .portReset).queue p = [] := by rw [State.releasing_queue portReset_other, if_pos rfl]
    have released : filingsFor port.other (s.releaseFilings p .portReset) = filingsFor port.other (flushFilings p 3 (s.queue p)) := by
      refine filingsFor_append_nil _ _ (filingsFor_eq_nil fun x member => ?_)
      split at member
      · rw [List.mem_singleton.mp member, owner]
        exact fun same => other_ne port (Option.some.inj same).symm
      · exact nomatch member
    have closed : (s.releasing p .portReset).closeFilings p .portReset = tapFilings p (s.tapsNaming p) := by
      unfold State.closeFilings
      rw [offer', taps, queue]
      exact List.append_nil _
    refine ((s.releasing_filed p port.other).trans (State.closing_filed _ p port.other)).congr ?_
    rw [filingsFor_append, released, closed, filingsFor_append]

/-- The taps in use when some are gone. -/
theorem State.tapsInUse_of_filter {s t : State} {test : Tap → Bool} (h : ∀ u, t.tap u = (s.tap u).filter test) :
    t.tapsInUse = s.tapsInUse.filter fun x => test x.2 := by
  unfold State.tapsInUse
  rw [List.filter_filterMap]
  refine List.filterMap_congr fun u _ => ?_
  rw [h]
  cases s.tap u with
  | none => rfl
  | some x =>
    rw [Option.filter_some, Option.map_some, Option.filter_some]
    split
    · rfl
    · rfl

/-- The records of closures in ascending order, each without the taps that those before it have removed. -/
theorem tearDowns_filed {port : Port} (l : List (Fin 64)) (ascending : l.Pairwise (· < ·)) (s : State)
    (own : ∀ p ∈ l, (s.pos p).owner = some port ∧ (s.pos p).offer = false) :
    FiledFor port.other s (l.foldl State.tearDown s) (l.flatMap (s.tearDownFilings l)) := by
  induction l generalizing s with
  | nil => exact FiledFor.of_same (s := s) (t := s) port.other rfl rfl rfl
  | cons p l ih =>
    obtain ⟨below, ascending⟩ := List.pairwise_cons.mp ascending
    obtain ⟨first, rest⟩ := List.forall_mem_cons.mp own
    have apart : ∀ q ∈ l, p ≠ q := fun q member => Fin.ne_of_lt (below q member)
    have own' : ∀ q ∈ l, ((s.tearDown p).pos q).owner = some port ∧ ((s.tearDown p).pos q).offer = false := fun q member => by
      rw [State.tearDown_pos, if_neg (apart q member)]
      exact rest q member
    rw [List.foldl_cons]
    refine ((s.tearDown_filed first.1 first.2).trans (ih ascending _ own')).congr (congrArg _ ?_)
    rw [List.flatMap_cons]
    refine congrArg₂ (· ++ ·) ?_ ?_
    · unfold State.tearDownFilings
      have all : (s.tapsNaming p).filter (fun x => !(p :: l).any fun q => q < p && (x.2.listener = q || x.2.target = q))
          = s.tapsNaming p := List.filter_eq_self.mpr fun x _ => by
        have none : ((p :: l).any fun q => q < p && (x.2.listener = q || x.2.target = q)) = false := by
          rw [List.any_eq_false]
          intro q member
          have notBelow : ¬q < p := by
            rcases List.mem_cons.mp member with rfl | member
            · exact Nat.lt_irrefl _
            · exact Nat.not_lt.mpr (Nat.le_of_lt (below q member))
          simp [notBelow]
        rw [none]
        rfl
      rw [all]
    · refine List.flatMap_congr fun q member => ?_
      have queue : (s.tearDown p).queue q = s.queue q := by rw [State.tearDown_queue, if_neg (apart q member)]
      unfold State.tearDownFilings
      rw [queue]
      refine congrArg (_ ++ ·) (congrArg (tapFilings q) ?_)
      unfold State.tapsNaming
      rw [State.tapsInUse_of_filter (s.tearDown_tap p), List.filter_filter, List.filter_filter, List.filter_filter]
      refine List.filter_congr fun x _ => ?_
      rw [List.any_cons, decide_eq_true (below q member)]
      by_cases listens : x.2.listener = p
      · simp [listens]
      · by_cases heard : x.2.target = p
        · simp [heard]
        · simp [listens, heard]

end Sys2Proof.Machine
end


section
/-! PROOFS. The hand-overs, the stops of streams and the flush of a port's entries at its reset, each done one after another
(R39, R41, R43, R115, R127, R153, R156, R161). -/

namespace Sys2Proof.Machine

/-! ## Hand-overs (R39, R41) -/

theorem State.inherit_whisper (s : State) (port : Port) (p : Fin 64) : (s.inherit port p).whisper = { s.whisper with
    queues := s.whisper.queues.put p (withAnnounceOrigin port.other (s.queue p)) } :=
  State.file_touches _ _ _ _ _ .whisper (by decide)

theorem withAnnounceOrigin_again (port : Port) (q : List Entry) :
    withAnnounceOrigin port (withAnnounceOrigin port q) = withAnnounceOrigin port q := by
  rw [withAnnounceOrigin_eq, withAnnounceOrigin_eq, List.map_map]
  refine List.map_congr_left fun e _ => ?_
  rw [Function.comp_apply]
  split
  · rfl
  · rfl

section
variable (s : State) (port : Port)

theorem State.handedOver_touches : Touches [.positions, .whisper, .events] s (s.handedOver port) :=
  Touches.foldl (fun t p => t.inherit_touches port p) _ s

theorem State.handedOver_queue (q : Fin 64) : (s.handedOver port).queue q
    = if q ∈ s.offeredBy port then withAnnounceOrigin port.other (s.queue q) else s.queue q :=
  foldl_each State.queue (g := withAnnounceOrigin port.other) (fun t p q => by
    unfold State.queue
    rw [State.inherit_whisper, Table.cell_put]
    split
    · next same => rw [same]; rfl
    · rfl) (withAnnounceOrigin_again port.other) _ s q

theorem State.handedOver_players : (s.handedOver port).whisper.players = s.whisper.players
    ∧ (s.handedOver port).whisper.arrival = s.whisper.arrival :=
  foldl_keeps (P := fun t : State => t.whisper.players = s.whisper.players ∧ t.whisper.arrival = s.whisper.arrival)
    (fun t p h => by rw [State.inherit_whisper]; exact h) _ s ⟨rfl, rfl⟩

theorem inherits_filed (l : List (Fin 64)) (s : State) : FiledFor port.other s (l.foldl (fun s p => s.inherit port p) s)
    (l.map fun p => (some port.other, .positionInherited, p.val, Port.number port)) := by
  induction l generalizing s with
  | nil => exact FiledFor.of_same (s := s) (t := s) port.other rfl rfl rfl
  | cons p l ih =>
    have touched := s.inherit_touches port p
    have first : FiledFor port.other s (s.inherit port p)
        [(some port.other, .positionInherited, p.val, Port.number port)] :=
      .of_events port.other (State.fileOwner_events (s := s) (t := s.passTo p port.other) rfl rfl rfl (some port.other) _ _ _)
        (touched .startUp (by decide)) (congrArg Highway.stamp (touched .highway (by decide)))
    rw [List.foldl_cons]
    exact first.trans (ih _)

end

/-! ## Streams that stop (R144, R153, R156) -/

theorem Position.without_eq (k : Fin 16) (x : Position) : x.without k = { x with stream := x.stream.filter (· ≠ k) } := by
  unfold Position.without
  cases named : x.stream with
  | none => rw [if_neg nofun]; cases x; cases named; rfl
  | some j =>
    by_cases same : j = k
    · rw [if_pos (congrArg some same), Option.filter_some, if_neg (by simpa using same)]
    · rw [if_neg fun h => same (Option.some.inj h), Option.filter_some, if_pos (by simpa using same)]
      cases x
      cases named
      rfl

/-- A record whose stream field is lost with the streams that stop. -/
def Position.losing (streams : List (Fin 16)) (x : Position) : Position := { x with stream := x.stream.filter (· ∉ streams) }

theorem State.resetStream_touches_tight (s : State) (k : Fin 16) :
    Touches [.positions, .events, .streams, .clipStore, .arbiter] s (s.resetStream k) :=
  ((s.unnamed_touches k).mono (by decide)).trans ((s.resetStream_after_unnamed k).mono (by decide))

theorem State.dropPlays_playsDropped (s : State) (l : Option Playlist) : PlaysDropped s (s.dropPlays l) fun c => namings c l := by
  cases l with
  | none => exact .of_clip rfl
  | some l => exact fun c => dropPlays_clip l.items s c

theorem State.dropPlays_faults (s : State) (l : Option Playlist) : (s.dropPlays l).clipStore.faults = s.clipStore.faults := by
  cases l with
  | none => rfl
  | some l =>
    exact foldl_keeps (P := fun t : State => t.clipStore.faults = s.clipStore.faults)
      (f := fun (t : State) (i : Item) => t.dropPlay i.clip) (fun t i h => h) l.items s rfl

/-- A stopped stream gives up its playlists' clips and its waiting request. -/
theorem State.stopStream_withdraws (s : State) (k : Fin 16) :
    (PlaysDropped s (s.stopStream k) fun c => namings c (s.stream k).current + namings c (s.stream k).staged)
      ∧ (s.stopStream k).clipStore.faults = s.clipStore.faults
      ∧ (s.stopStream k).arbiter = { s.arbiter with queue := s.arbiter.queue.filter fun f => f.player ≠ .stream k } := by
  let dropped := (s.dropPlays (s.stream k).staged).dropPlays (s.stream k).current
  have arbiter : dropped.arbiter = s.arbiter :=
    (State.dropPlays_touches _ _ .arbiter (by decide)).trans (s.dropPlays_touches _ .arbiter (by decide))
  refine ⟨?_, ?_, ?_⟩
  · have plays := (s.dropPlays_playsDropped (s.stream k).staged).trans (State.dropPlays_playsDropped _ (s.stream k).current)
    exact plays.congr fun c => Nat.add_comm _ _
  · exact (State.dropPlays_faults _ _).trans (State.dropPlays_faults _ _)
  · show ({ dropped.arbiter with queue := dropped.arbiter.queue.filter fun f => f.player ≠ .stream k } : Arbiter) = _
    rw [arbiter]

section
variable (s : State) (k : Fin 16)

theorem State.unnamed_stream : (s.unnamed k).stream = s.stream := by
  unfold State.stream
  rw [s.unnamed_touches k .streams (by decide)]

theorem State.resetStream_playsDropped : PlaysDropped s (s.resetStream k)
    fun c => namings c (s.stream k).current + namings c (s.stream k).staged := by
  obtain ⟨plays, -, -⟩ := State.stopStream_withdraws ((s.unnamed k).setStream k { (s.unnamed k).stream k with listeners := 0 }) k
  rw [State.setStream_stream, if_pos rfl, State.unnamed_stream] at plays
  have before : PlaysDropped s ((s.unnamed k).setStream k { s.stream k with listeners := 0 }) fun _ => 0 := .of_clip
    (State.clip_of_clipStore ((State.setStream_touches _ k _ .clipStore (by decide)).trans
      (s.unnamed_touches k .clipStore (by decide))))
  rw [State.resetStream_eq, State.unnamed_stream]
  exact (before.trans plays).congr fun c => Nat.zero_add _

theorem State.resetStream_faults : (s.resetStream k).clipStore.faults = s.clipStore.faults := by
  obtain ⟨-, faults, -⟩ := State.stopStream_withdraws ((s.unnamed k).setStream k { (s.unnamed k).stream k with listeners := 0 }) k
  rw [State.resetStream_eq, faults, State.setStream_touches _ k _ .clipStore (by decide),
    s.unnamed_touches k .clipStore (by decide)]

theorem State.resetStream_playersFreed : PlayersFreed s (s.resetStream k) (fun j => decide (j = k)) fun _ => false := by
  obtain ⟨-, -, arbiter⟩ := State.stopStream_withdraws ((s.unnamed k).setStream k { (s.unnamed k).stream k with listeners := 0 }) k
  have before : ((s.unnamed k).setStream k { (s.unnamed k).stream k with listeners := 0 }).arbiter = s.arbiter :=
    (State.setStream_touches _ k _ .arbiter (by decide)).trans (s.unnamed_touches k .arbiter (by decide))
  have none : ∀ w, s.assignedTo (fun _ => false) w = false := fun w => by
    unfold State.assignedTo
    cases (s.player w).assigned <;> rfl
  refine ⟨fun w => ?_, ?_⟩
  · rw [none, if_neg Bool.false_ne_true]
    unfold State.player
    rw [State.resetStream_whisper]
  · rw [State.resetStream_eq, arbiter, before]
    refine congrArg (fun l => ({ s.arbiter with queue := l } : Arbiter)) (List.filter_congr fun f _ => ?_)
    unfold Fetch.stands
    cases f.player with
    | stream j => by_cases same : j = k <;> simp [same]
    | prompt w => simp [none]

end

section
variable (l : List (Fin 16)) (s : State)

theorem resetStreams_pos (p : Fin 64) : (l.foldl State.resetStream s).pos p = (s.pos p).losing l := by
  induction l generalizing s with
  | nil =>
    unfold Position.losing
    cases x : s.pos p with
    | mk state owner agentSlot trunkSlot stream _ _ _ _ _ _ _ _ _ _ _ _ =>
      rw [List.foldl_nil, x]
      cases stream <;> rfl
  | cons k l ih =>
    rw [List.foldl_cons, ih, State.resetStream_pos, Position.without_eq]
    unfold Position.losing
    simp only [Option.filter_filter, List.mem_cons, not_or, Bool.decide_and]

theorem resetStreams_stream (distinct : l.Nodup) (j : Fin 16) : (l.foldl State.resetStream s).stream j
    = if j ∈ l then ({ s.stream j with listeners := 0 } : Stream).stoppedFrom else s.stream j := by
  induction l generalizing s with
  | nil => rfl
  | cons k l ih =>
    obtain ⟨fresh, distinct⟩ := List.nodup_cons.mp distinct
    rw [List.foldl_cons, ih _ distinct, State.resetStream_stream]
    by_cases same : k = j
    · subst same
      simp [fresh]
    · simp [same, Ne.symm same]

theorem resetStreams_playsDropped (distinct : l.Nodup) : PlaysDropped s (l.foldl State.resetStream s)
    fun c => (l.map fun k => namings c (s.stream k).current + namings c (s.stream k).staged).sum :=
  foldl_playsDropped State.stream (fun x c => namings c x.current + namings c x.staged) State.resetStream_playsDropped
    (fun t k j apart => by rw [State.resetStream_stream, if_neg apart]) l distinct s

theorem resetStreams_playersFreed : PlayersFreed s (l.foldl State.resetStream s) l.contains fun _ => false := by
  induction l generalizing s with
  | nil => exact (PlayersFreed.of_same (s := s) (t := s) rfl rfl).congr (fun _ => rfl) fun _ => rfl
  | cons k l ih =>
    rw [List.foldl_cons]
    refine ((s.resetStream_playersFreed k).trans (ih _)).congr (fun j => ?_) fun _ => rfl
    rw [List.contains_cons]
    rfl

theorem resetStreams_rest : (l.foldl State.resetStream s).whisper = s.whisper
    ∧ (l.foldl State.resetStream s).clipStore.faults = s.clipStore.faults
    ∧ Touches [.positions, .events, .streams, .clipStore, .arbiter] s (l.foldl State.resetStream s) :=
  foldl_keeps (P := fun t : State => t.whisper = s.whisper ∧ t.clipStore.faults = s.clipStore.faults
    ∧ Touches [.positions, .events, .streams, .clipStore, .arbiter] s t)
    (fun t k h => ⟨(t.resetStream_whisper k).trans h.1, (t.resetStream_faults k).trans h.2.1,
      h.2.2.trans (t.resetStream_touches_tight k)⟩) l s ⟨rfl, rfl, .refl _ s⟩

end

/-- STREAM_LOST for the positions of a list that name a stream (R156). -/
def lostFilings (q : Port) (k : Fin 16) (l : List (Fin 64)) : List Filing :=
  l.map fun p => (some q, .streamLost, p.val, k.val)

theorem losses_filed {port : Port} (k : Fin 16) (l : List (Fin 64)) (distinct : l.Nodup) (s : State)
    (owner : ∀ p ∈ l, (s.pos p).stream = some k → (s.pos p).owner = some port) :
    FiledFor port s (l.foldl (fun s p => s.loseStream k p) s)
      (lostFilings port k (l.filter fun p => (s.pos p).stream = some k)) := by
  induction l generalizing s with
  | nil => exact FiledFor.of_same (s := s) (t := s) port rfl rfl rfl
  | cons p l ih =>
    obtain ⟨fresh, distinct⟩ := List.nodup_cons.mp distinct
    obtain ⟨own, rest⟩ := List.forall_mem_cons.mp owner
    have apart : ∀ q ∈ l, (s.loseStream k p).pos q = s.pos q := fun q member => by
      have other : p ≠ q := fun same => fresh (same ▸ member)
      rw [State.loseStream_pos, if_neg other]
    have same : (l.filter fun q => ((s.loseStream k p).pos q).stream = some k) = l.filter fun q => (s.pos q).stream = some k :=
      List.filter_congr fun q member => by rw [apart q member]
    have later := ih distinct (s.loseStream k p) fun q member => by rw [apart q member]; exact rest q member
    have touched := s.loseStream_touches k p
    rw [List.foldl_cons]
    rw [same] at later
    by_cases named : (s.pos p).stream = some k
    · have first : FiledFor port s (s.loseStream k p) [(some port, .streamLost, p.val, k.val)] := by
        refine .of_events port ?_ (touched .startUp (by decide)) (congrArg Highway.stamp (touched .highway (by decide)))
        unfold State.loseStream
        dsimp only
        have filed := State.fileOwner_events (s := s) (t := s.setPos p { s.pos p with stream := none }) rfl rfl rfl
          (s.pos p).owner .streamLost p.val k.val
        rw [if_pos named]
        exact filed.trans (by rw [own named]; rfl)
      rw [List.filter_cons_of_pos (by simpa using named)]
      exact first.trans later
    · have idle : s.loseStream k p = s := by
        unfold State.loseStream
        exact if_neg named
      rw [List.filter_cons_of_neg (by simpa using named)]
      rwa [idle] at later ⊢

theorem Port.eq_other_of_ne : {q port : Port} → q ≠ port → q = port.other
  | .cp0, .cp0, apart | .cp1, .cp1, apart => absurd rfl apart
  | .cp0, .cp1, _ | .cp1, .cp0, _ => rfl

/-- When a port owns no position, those that name a stream are the other port's. -/
theorem State.owner_of_named {s : State} {port : Port} (sound : s.callsSound) (unowned : s.unownedBy port) {p : Fin 64}
    {k : Fin 16} (named : (s.pos p).stream = some k) : (s.pos p).owner = some port.other := by
  have own := (State.callsSound_iff s).mp sound p
  have opened : (s.pos p).state ≠ .closed := fun shut => by
    rw [(own.closed shut).1] at named
    exact nomatch named
  obtain ⟨q, owner⟩ := Option.isSome_iff_exists.mp (own.owned opened)
  have apart : q ≠ port := fun same => unowned p (same ▸ owner)
  rw [owner, Port.eq_other_of_ne apart]

theorem State.resetStream_filed {s : State} {port : Port} (sound : s.callsSound) (unowned : s.unownedBy port) (k : Fin 16) :
    FiledFor port.other s (s.resetStream k) (lostFilings port.other k (s.naming k)) := by
  have lost : FiledFor port.other s (s.unnamed k) (lostFilings port.other k (s.naming k)) :=
    losses_filed k _ (List.nodup_finRange 64) s fun p _ named => State.owner_of_named sound unowned named
  have touched := s.resetStream_after_unnamed k
  have stopped : FiledFor port.other (s.unnamed k) (s.resetStream k) [] :=
    .of_same port.other (touched .events (by decide)) (touched .startUp (by decide))
      (congrArg Highway.stamp (touched .highway (by decide)))
  exact (lost.trans stopped).congr (congrArg _ (List.append_nil _))

theorem resetStreams_filed {port : Port} (l : List (Fin 16)) (distinct : l.Nodup) {s : State} (sound : s.callsSound)
    (unowned : s.unownedBy port) : FiledFor port.other s (l.foldl State.resetStream s)
      (l.flatMap fun k => lostFilings port.other k (s.naming k)) := by
  induction l generalizing s with
  | nil => exact FiledFor.of_same (s := s) (t := s) port.other rfl rfl rfl
  | cons k l ih =>
    obtain ⟨fresh, distinct⟩ := List.nodup_cons.mp distinct
    have later : ∀ j ∈ l, (s.resetStream k).naming j = s.naming j := fun j member => by
      have apart : k ≠ j := fun same => fresh (same ▸ member)
      unfold State.naming
      simp only [State.resetStream_pos, Position.without_eq_some, ne_eq, apart, not_false_eq_true, true_and]
    rw [List.foldl_cons]
    refine ((State.resetStream_filed sound unowned k).trans (ih distinct (s.resetStream_callsStay k sound).1
      (State.resetStream_unownedBy unowned k))).congr (congrArg _ ?_)
    rw [List.flatMap_cons]
    exact congrArg (_ ++ ·) (List.flatMap_congr fun j member => by rw [later j member])

/-! ## The flush of a port's entries (R161) -/

/-- The entries of a queue that a port placed. -/
def entriesOf (port : Port) (q : List Entry) : List Entry := q.filter fun e => e.origin = port

section
variable (port : Port) (l : List (Fin 64)) (s : State)

/-- The flush of a port's entries in the positions of a list. -/
def State.portFlushes : State := l.foldl (fun s p => s.flush p .portReset fun e => e.origin = port) s

theorem State.portFlushed_eq : s.portFlushed port = State.portFlushes port (List.finRange 64) s := rfl

theorem portFlushes_queue (q : Fin 64) : (State.portFlushes port l s).queue q
    = if q ∈ l then (s.queue q).filter fun e => !decide (e.origin = port) else s.queue q :=
  foldl_each State.queue (g := fun q => q.filter fun e => !decide (e.origin = port)) (fun t p q => by
    rw [State.flush_queue]
    split
    · next same => rw [same]
    · rfl) (fun q => by rw [List.filter_filter]; simp only [Bool.and_self]) l s q

theorem portFlushes_playsDropped (distinct : l.Nodup) : PlaysDropped s (State.portFlushes port l s)
    fun c => (l.map fun p => namingEntries c (entriesOf port (s.queue p))).sum :=
  foldl_playsDropped State.queue (fun q c => namingEntries c (entriesOf port q))
    (fun t p => (t.flush_leaves p .portReset fun e => e.origin = port).playsDropped)
    (fun t p q apart => by rw [State.flush_queue, if_neg apart]) l distinct s

theorem portFlushes_playersFreed {s : State} (h : s.PlayersHeld) : PlayersFreed s (State.portFlushes port l s)
    (fun _ => false) fun q => decide (q ∈ l) && (entriesOf port (s.queue q)).any fun e => e.phase ≠ .waiting := by
  induction l generalizing s with
  | nil => exact (PlayersFreed.of_same (s := s) (t := s) rfl rfl).congr (fun _ => rfl) fun _ => rfl
  | cons p l ih =>
    unfold State.portFlushes
    rw [List.foldl_cons]
    refine ((State.flush_playersFreed h p .portReset fun e => e.origin = port).trans
      (ih (State.flush_playersHeld h p .portReset fun e => e.origin = port))).congr (fun _ => rfl) fun q => ?_
    rw [State.flush_queue]
    by_cases same : p = q
    · subst same
      have none : entriesOf port ((s.queue p).filter fun e => !decide (e.origin = port)) = [] := by
        unfold entriesOf
        rw [List.filter_filter, List.filter_eq_nil_iff]
        intro e _
        simp
      rw [if_pos rfl, none]
      simp [entriesOf]
    · simp [same, Ne.symm same]

theorem portFlushes_rest : (State.portFlushes port l s).whisper.arrival = s.whisper.arrival
    ∧ (State.portFlushes port l s).clipStore.faults = s.clipStore.faults :=
  foldl_keeps (P := fun t : State => t.whisper.arrival = s.whisper.arrival ∧ t.clipStore.faults = s.clipStore.faults)
    (fun t p h => by
      obtain ⟨-, -, arrival, faults, -⟩ := t.flush_leaves p .portReset fun e => e.origin = port
      exact ⟨arrival.trans h.1, faults.trans h.2⟩) l s ⟨rfl, rfl⟩

theorem portFlushes_filed : FiledFor port.other s (State.portFlushes port l s) [] := by
  refine foldl_keeps (P := fun t : State => FiledFor port.other s t []) (fun t p h => ?_) l s
    (FiledFor.of_same (s := s) (t := s) port.other rfl rfl rfl)
  have touched := t.flush_touches_of_ne portReset_other p fun e => e.origin = port
  have flushed : FiledFor port.other t (t.flush p .portReset fun e => e.origin = port) _ :=
    .of_events port.other (t.flush_events portReset_other p _) (touched .startUp (by decide))
      (congrArg Highway.stamp (touched .highway (by decide)))
  refine h.trans (flushed.congr (filingsFor_eq_nil fun x member => ?_))
  obtain ⟨e, picked, rfl⟩ := List.mem_map.mp member
  have origin : e.origin = port := of_decide_eq_true (List.mem_filter.mp picked).2
  exact fun same => other_ne port ((Option.some.inj same).symm.trans origin)

end

end Sys2Proof.Machine
end


section
/-! PROOFS. What RESET PORT's teardown leaves before players are assigned (R41 to R43, R115, R127, R156, R161). -/

namespace Sys2Proof.Machine

/-! ## The lists of the teardown (R176) -/

section
variable (s : State) (port : Port)

theorem State.keptBy_eq : s.keptBy port
    = (List.finRange 64).filter fun p => (s.pos p).owner = some port ∧ (s.pos p).offer = false :=
  List.filter_congr fun p _ => by rw [Bool.decide_and]; cases (s.pos p).offer <;> rfl

theorem State.offeredBy_eq : s.offeredBy port
    = (List.finRange 64).filter fun p => (s.pos p).owner = some port ∧ (s.pos p).offer = true :=
  List.filter_congr fun p _ => by rw [Bool.decide_and, Bool.decide_eq_true]

theorem State.keptBy_ascending : (s.keptBy port).Pairwise (· < ·) := (List.pairwise_lt_finRange 64).filter _

theorem State.keptBy_nodup : (s.keptBy port).Nodup := (List.nodup_finRange 64).filter _

theorem State.streamsOf_nodup : (s.streamsOf port).Nodup := (List.nodup_finRange 16).filter _

theorem State.mem_streamsOf (k : Fin 16) : k ∈ s.streamsOf port ↔ (s.stream k).owner = some port := by
  simp [State.streamsOf]

end

theorem State.not_offered_of_kept {s : State} {port : Port} {p : Fin 64} (kept : p ∈ s.keptBy port) :
    p ∉ s.offeredBy port := fun offered => by
  have shut := ((s.mem_keptBy port p).mp kept).2
  rw [((s.mem_offeredBy port p).mp offered).2] at shut
  exact nomatch shut

/-! ## The hand-overs (R39, R41, R43) -/

/-- The state after the hand-overs, with the offers to the port cleared. -/
def State.handed (s : State) (port : Port) : State := (s.handedOver port).clearOffersTo port

theorem State.resetPositions_eq_handed (s : State) (port : Port) :
    s.resetPositions port = (s.keptBy port).foldl State.tearDown (s.handed port) := rfl

section
variable (s : State) (port : Port)

theorem State.handed_touches : Touches [.positions, .whisper, .events] s (s.handed port) :=
  (s.handedOver_touches port).trans ((State.clearOffersTo_touches _ port).mono (by decide))

theorem State.handed_pos (p : Fin 64) : (s.handed port).pos p
    = if p ∈ s.offeredBy port then (s.pos p).inherited port else (s.pos p).unoffered port := by
  unfold State.handed
  rw [State.clearOffersTo_pos, State.handedOver_pos]
  split
  · exact if_pos rfl
  · rfl

theorem State.handed_queue (p : Fin 64) : (s.handed port).queue p
    = if p ∈ s.offeredBy port then withAnnounceOrigin port.other (s.queue p) else s.queue p := s.handedOver_queue port p

theorem State.handed_tap (u : Fin 16) : (s.handed port).tap u = s.tap u := by
  unfold State.tap
  rw [s.handed_touches port .mixer (by decide)]

theorem State.handed_stream : (s.handed port).stream = s.stream := by
  unfold State.stream
  rw [s.handed_touches port .streams (by decide)]

theorem State.handed_filed : FiledFor port.other s (s.handed port)
    ((s.offeredBy port).map fun p => (some port.other, .positionInherited, p.val, Port.number port)) := by
  have cleared : FiledFor port.other (s.handedOver port) (s.handed port) [] := .of_same port.other rfl rfl rfl
  exact ((inherits_filed port (s.offeredBy port) s).trans cleared).congr (congrArg _ (List.append_nil _))

theorem State.handed_playersFreed : PlayersFreed s (s.handed port) (fun _ => false) fun _ => false := by
  obtain ⟨players, -⟩ := s.handedOver_players port
  refine .of_same ?_ (s.handed_touches port .arbiter (by decide))
  unfold State.player
  exact congrArg Table.cell players

end

section
variable {s : State} {port : Port} {p : Fin 64}

theorem State.handed_pos_of_kept (kept : p ∈ s.keptBy port) : (s.handed port).pos p = s.pos p := by
  obtain ⟨owner, -⟩ := (s.mem_keptBy port p).mp kept
  have mine : (s.pos p).owner ≠ some port.other := fun other => other_ne port (Option.some.inj (other.symm.trans owner))
  rw [State.handed_pos, if_neg (State.not_offered_of_kept kept)]
  exact if_neg mine

theorem State.handed_queue_of_kept (kept : p ∈ s.keptBy port) : (s.handed port).queue p = s.queue p := by
  rw [State.handed_queue, if_neg (State.not_offered_of_kept kept)]

theorem State.handed_playersHeld (h : s.PlayersHeld) : (s.handed port).PlayersHeld :=
  (foldl_keeps (P := State.PlayersHeld) (fun _ q ht => State.inherit_playersHeld ht port q) (s.offeredBy port) s h).of_whisper rfl

end

theorem Position.unoffered_stream (port : Port) (x : Position) : (x.unoffered port).stream = x.stream := by
  unfold Position.unoffered
  split
  · rfl
  · rfl

theorem State.handed_pos_stream (s : State) (port : Port) (p : Fin 64) : ((s.handed port).pos p).stream = (s.pos p).stream := by
  rw [State.handed_pos]
  split
  · rfl
  · exact Position.unoffered_stream port _

/-! ## Positions and queues -/

section
variable (s : State) (port : Port)

/-- The teardown of positions and streams. -/
def State.stopped (s : State) (port : Port) : State := (s.resetPositions port).resetStreams port

theorem State.tornDown_eq : s.tornDown port = (s.stopped port).portFlushed port := rfl

theorem State.resetPositions_stream (k : Fin 16) : (s.resetPositions port).stream k = { s.stream k with
    listeners := (s.stream k).listeners - ((s.keptBy port).filter fun p => (s.pos p).leaves k).length } := by
  have same : ((s.keptBy port).filter fun p => ((s.handed port).pos p).leaves k)
      = (s.keptBy port).filter fun p => (s.pos p).leaves k :=
    List.filter_congr fun p kept => by rw [State.handed_pos_of_kept kept]
  rw [State.resetPositions_eq_handed, tearDowns_stream _ _ (s.keptBy_nodup port), same, State.handed_stream]

theorem State.resetPositions_streamsOf : (s.resetPositions port).streamsOf port = s.streamsOf port :=
  List.filter_congr fun k _ => by rw [State.resetPositions_stream]

theorem State.stopped_eq : s.stopped port = (s.streamsOf port).foldl State.resetStream (s.resetPositions port) := by
  unfold State.stopped State.resetStreams
  rw [State.resetPositions_streamsOf]

/-- What follows the closures leaves most of the state alone. -/
theorem State.tornDown_after_closures :
    Touches [.positions, .events, .streams, .clipStore, .arbiter, .whisper] (s.resetPositions port) (s.tornDown port) := by
  obtain ⟨-, -, stopped⟩ := resetStreams_rest (s.streamsOf port) (s.resetPositions port)
  rw [← State.stopped_eq] at stopped
  exact (stopped.mono (by decide)).trans ((State.portFlushed_touches _ port).mono (by decide))

theorem State.tornDown_touches : Touches closeParts s (s.tornDown port) :=
  (s.resetPositions_touches port).trans ((s.tornDown_after_closures port).mono (by decide))

theorem State.tornDown_pos (p : Fin 64) :
    (s.tornDown port).pos p = ((s.resetPositions port).pos p).losing (s.streamsOf port) := by
  rw [← resetStreams_pos, ← State.stopped_eq, State.tornDown_eq,
    State.pos_of_positions (State.portFlushed_touches _ port .positions (by decide))]

theorem State.tornDown_stream (k : Fin 16) : (s.tornDown port).stream k = if k ∈ s.streamsOf port
    then ({ s.stream k with listeners := 0 } : Stream).stoppedFrom
    else { s.stream k with
      listeners := (s.stream k).listeners - ((s.keptBy port).filter fun p => (s.pos p).leaves k).length } := by
  have flushed : (s.tornDown port).stream k = (s.stopped port).stream k := by
    unfold State.stream
    rw [State.tornDown_eq, State.portFlushed_touches _ port .streams (by decide)]
  rw [flushed, State.stopped_eq, resetStreams_stream _ _ (s.streamsOf_nodup port), State.resetPositions_stream]

theorem State.stopped_queue (p : Fin 64) :
    (s.stopped port).queue p = if p ∈ s.keptBy port then [] else (s.handed port).queue p := by
  obtain ⟨whisper, -, -⟩ := resetStreams_rest (s.streamsOf port) (s.resetPositions port)
  rw [← State.stopped_eq] at whisper
  rw [State.queue_of_whisper whisper]
  exact tearDowns_queue ..

theorem State.tornDown_queue (p : Fin 64) : (s.tornDown port).queue p = if p ∈ s.keptBy port then []
    else ((s.handed port).queue p).filter fun e => !decide (e.origin = port) := by
  rw [State.tornDown_eq, State.portFlushed_eq, portFlushes_queue, if_pos (List.mem_finRange p), State.stopped_queue]
  split
  · rfl
  · rfl

theorem State.tornDown_origins (p : Fin 64) : ∀ e ∈ (s.tornDown port).queue p, e.origin ≠ port := fun e member => by
  rw [State.tornDown_queue] at member
  split at member
  · exact nomatch member
  · simpa using (List.mem_filter.mp member).2

/-! ## The entries that the teardown flushes (R42, R161) -/

/-- The queue of a position once it may have passed to the other port. -/
theorem State.handed_queue_map (p : Fin 64) : (s.handed port).queue p = (s.queue p).map fun e =>
    if p ∈ s.offeredBy port ∧ e.kind = .announce then { e with origin := port.other } else e := by
  rw [State.handed_queue]
  split
  · next offered =>
    rw [withAnnounceOrigin_eq]
    simp only [offered, true_and]
  · next kept => simp [kept]

/-- The entries of a position's queue that the teardown flushes. -/
def State.resetFlushed (s : State) (port : Port) (p : Fin 64) : List Entry := (s.queue p).filter fun e =>
  p ∈ s.keptBy port ∨ (e.origin = port ∧ ¬(p ∈ s.offeredBy port ∧ e.kind = .announce))

theorem State.resetFlushed_of_kept {s : State} {port : Port} {p : Fin 64} (kept : p ∈ s.keptBy port) :
    s.resetFlushed port p = s.queue p := List.filter_eq_self.mpr fun _ _ => decide_eq_true (.inl kept)

/-- In a position that is not closed the entries of the port are those that no hand-over has given to the other port. -/
theorem State.entriesOf_stopped (p : Fin 64) : entriesOf port ((s.stopped port).queue p)
    = if p ∈ s.keptBy port then [] else s.resetFlushed port p := by
  rw [State.stopped_queue]
  split
  · rfl
  · next unkept =>
    unfold entriesOf State.resetFlushed
    rw [State.handed_queue_map, List.filter_map]
    have picked : ((s.queue p).filter fun e => p ∈ s.keptBy port ∨ (e.origin = port ∧ ¬(p ∈ s.offeredBy port ∧ e.kind = .announce)))
        = (s.queue p).filter ((fun e : Entry => decide (e.origin = port)) ∘ fun e =>
          if p ∈ s.offeredBy port ∧ e.kind = .announce then { e with origin := port.other } else e) :=
      List.filter_congr fun e _ => by
        rw [Function.comp_apply]
        split
        · next passes => simp [unkept, passes, other_ne port]
        · next stays => simp [unkept, stays]
    rw [← picked]
    refine (List.map_congr_left fun e member => ?_).trans (List.map_id _)
    have chosen := of_decide_eq_true (List.mem_filter.mp member).2
    rcases chosen with kept | ⟨-, stays⟩
    · exact absurd kept unkept
    · exact if_neg stays

/-! ## Play counts (R115) -/

end

/-- A sum over some elements and the sum over the others make the sum over all. -/
theorem sum_filter_add_sum_others {α : Type} (l : List α) (test : α → Bool) (f : α → Nat) :
    ((l.filter test).map f).sum + (l.map fun x => if test x = true then 0 else f x).sum = (l.map f).sum := by
  induction l with
  | nil => rfl
  | cons x l ih =>
    rw [List.filter_cons, List.map_cons, List.map_cons, List.sum_cons, List.sum_cons, ← ih]
    split
    · rw [List.map_cons, List.sum_cons]
      omega
    · omega

section
variable (s : State) (port : Port)

/-- What the teardown gives up of a clip: the entries flushed and the playlists of the streams stopped. -/
def State.resetPlays (s : State) (port : Port) (c : Fin 256) : Nat :=
  ((List.finRange 64).map fun p => namingEntries c (s.resetFlushed port p)).sum
    + ((s.streamsOf port).map fun k => namings c (s.stream k).current + namings c (s.stream k).staged).sum

theorem State.tornDown_playsDropped : PlaysDropped s (s.tornDown port) (s.resetPlays port) := by
  have handed : PlaysDropped s (s.handed port) fun _ => 0 :=
    .of_clip (State.clip_of_clipStore (s.handed_touches port .clipStore (by decide)))
  have closed := tearDowns_playsDropped (s.keptBy port) (s.handed port) (s.keptBy_nodup port)
  rw [← State.resetPositions_eq_handed] at closed
  have stopped := resetStreams_playsDropped (s.streamsOf port) (s.resetPositions port) (s.streamsOf_nodup port)
  have flushed := portFlushes_playsDropped port (List.finRange 64) (s.stopped port) (List.nodup_finRange 64)
  rw [← State.stopped_eq] at stopped
  refine (((handed.trans closed).trans stopped).trans flushed).congr fun c => ?_
  have positions : ((s.keptBy port).map fun p => namingEntries c ((s.handed port).queue p)).sum
      + ((List.finRange 64).map fun p => namingEntries c (entriesOf port ((s.stopped port).queue p))).sum
      = ((List.finRange 64).map fun p => namingEntries c (s.resetFlushed port p)).sum := by
    have shut : ((s.keptBy port).map fun p => namingEntries c ((s.handed port).queue p))
        = (s.keptBy port).map fun p => namingEntries c (s.resetFlushed port p) := List.map_congr_left fun p kept => by
      rw [State.handed_queue_of_kept kept, State.resetFlushed_of_kept kept]
    have others : ((List.finRange 64).map fun p => namingEntries c (entriesOf port ((s.stopped port).queue p)))
        = (List.finRange 64).map fun p => if ((s.pos p).owner = some port && !(s.pos p).offer) = true then 0
          else namingEntries c (s.resetFlushed port p) := List.map_congr_left fun p _ => by
      rw [State.entriesOf_stopped]
      by_cases kept : p ∈ s.keptBy port
      · rw [if_pos kept, if_pos (by simpa [State.keptBy] using kept)]
        rfl
      · rw [if_neg kept, if_neg (by simpa [State.keptBy] using kept)]
    rw [shut, others]
    exact sum_filter_add_sum_others (List.finRange 64) _ fun p => namingEntries c (s.resetFlushed port p)
  unfold State.resetPlays
  simp only [State.resetPositions_stream]
  omega

/-! ## Prompt players and requests (R127, R161) -/

theorem State.tornDown_playersFreed {s : State} (h : s.PlayersHeld) (port : Port) : PlayersFreed s (s.tornDown port)
    (s.streamsOf port).contains fun p => (s.resetFlushed port p).any fun e => e.phase ≠ .waiting := by
  obtain ⟨whisper, -, -⟩ := resetStreams_rest (s.streamsOf port) (s.resetPositions port)
  have stopped := resetStreams_playersFreed (s.streamsOf port) (s.resetPositions port)
  rw [← State.stopped_eq] at stopped whisper
  have closed := tearDowns_playersFreed (s.keptBy port) (State.handed_playersHeld (port := port) h)
  have flushed := portFlushes_playersFreed port (List.finRange 64)
    ((State.resetPositions_playersHeld h port).of_whisper whisper)
  refine ((((s.handed_playersFreed port).trans closed).trans stopped).trans flushed).congr (fun k => ?_) fun p => ?_
  · simp
  · rw [State.entriesOf_stopped, decide_eq_true (List.mem_finRange p)]
    by_cases kept : p ∈ s.keptBy port
    · rw [State.handed_queue_of_kept kept, State.resetFlushed_of_kept kept, if_pos kept]
      simp [kept]
    · simp [kept]

/-- Of the arbiter the teardown touches the fetch queue alone. -/
theorem State.tornDown_arbiter : ∃ queue, (s.tornDown port).arbiter = { s.arbiter with queue := queue } := by
  have handed : (s.handed port).arbiter = s.arbiter := s.handed_touches port .arbiter (by decide)
  have step {t u : State} (h : ∃ queue, t.arbiter = { s.arbiter with queue := queue })
      (k : ∃ queue, u.arbiter = { t.arbiter with queue := queue }) : ∃ queue, u.arbiter = { s.arbiter with queue := queue } := by
    obtain ⟨_, before⟩ := h
    obtain ⟨queue, after⟩ := k
    exact ⟨queue, by rw [after, before]⟩
  have closed := foldl_keeps (P := fun t : State => ∃ queue, t.arbiter = { s.arbiter with queue := queue })
    (fun t p ht => State.tearDown_keeps (P := fun t : State => ∃ queue, t.arbiter = { s.arbiter with queue := queue })
      (fun t q ht => step ht (t.releasing_arbiter portReset_other q)) (fun t q ht => step ht (t.closing_arbiter portReset_other q)) ht p)
    (s.keptBy port) (s.handed port) ⟨_, handed⟩
  have stopped := step closed ⟨_, (resetStreams_playersFreed (s.streamsOf port) (s.resetPositions port)).2⟩
  rw [← State.stopped_eq] at stopped
  rw [State.tornDown_eq, State.portFlushed_eq]
  unfold State.portFlushes
  exact foldl_keeps (P := fun t : State => ∃ queue, t.arbiter = { s.arbiter with queue := queue })
    (fun t p ht => step ht (t.flush_arbiter p .portReset _)) (List.finRange 64) (s.stopped port) stopped

/-! ## Arrivals and fault records -/

theorem State.tornDown_rest : (s.tornDown port).whisper.arrival = s.whisper.arrival
    ∧ (s.tornDown port).clipStore.faults = s.clipStore.faults := by
  obtain ⟨-, arrival⟩ := s.handedOver_players port
  obtain ⟨arrival', faults', -⟩ := tearDowns_rest (s.keptBy port) (s.handed port)
  rw [← State.resetPositions_eq_handed] at arrival' faults'
  obtain ⟨whisper, faults'', -⟩ := resetStreams_rest (s.streamsOf port) (s.resetPositions port)
  rw [← State.stopped_eq] at whisper faults''
  obtain ⟨arrival''', faults'''⟩ := portFlushes_rest port (List.finRange 64) (s.stopped port)
  rw [← State.portFlushed_eq, ← State.tornDown_eq] at arrival''' faults'''
  refine ⟨arrival'''.trans ((congrArg Whisper.arrival whisper).trans (arrival'.trans arrival)), ?_⟩
  exact faults'''.trans (faults''.trans (faults'.trans (congrArg ClipStore.faults (s.handed_touches port .clipStore (by decide)))))

/-! ## Records for the other port (R41, R101, R156, R161) -/

theorem State.resetPositions_naming (k : Fin 16) : (s.resetPositions port).naming k
    = (List.finRange 64).filter fun p => !(s.keptBy port).contains p && (s.pos p).stream = some k := by
  refine List.filter_congr fun p _ => ?_
  rw [State.resetPositions_pos]
  by_cases kept : p ∈ s.keptBy port
  · rw [if_pos kept, List.contains_iff_mem.mpr kept]
    rfl
  · have handed := s.handed_pos_stream port p
    rw [State.handed_pos] at handed
    rw [if_neg kept, handed, Bool.eq_false_iff.mpr fun within => kept (List.contains_iff_mem.mp within)]
    rfl

theorem State.handed_tearDownFilings {p : Fin 64} (kept : p ∈ s.keptBy port) :
    (s.handed port).tearDownFilings (s.keptBy port) p = s.tearDownFilings (s.keptBy port) p := by
  unfold State.tearDownFilings
  rw [State.handed_queue_of_kept kept, State.tapsNaming_congr (s.handed_touches port .mixer (by decide))]

theorem State.tornDown_filed {s : State} (sound : s.callsSound) (port : Port) : FiledFor port.other s (s.tornDown port)
    (s.resetFilings port (s.offeredBy port) (s.keptBy port) (s.streamsOf port)) := by
  have closed := tearDowns_filed (s.keptBy port) (s.keptBy_ascending port) (s.handed port) fun p kept => by
    rw [State.handed_pos_of_kept kept]
    exact (s.mem_keptBy port p).mp kept
  have stopped := resetStreams_filed (s.streamsOf port) (s.streamsOf_nodup port) (s.resetPositions_callsStay port sound).1
    (s.resetPositions_unownedBy port)
  rw [← State.stopped_eq] at stopped
  refine ((((s.handed_filed port).trans closed).trans stopped).trans
    (portFlushes_filed port (List.finRange 64) (s.stopped port))).congr (congrArg _ ?_)
  unfold State.resetFilings
  rw [List.append_nil]
  refine congrArg₂ (· ++ ·) (congrArg _ (List.flatMap_congr fun p kept => s.handed_tearDownFilings port kept))
    (List.flatMap_congr fun k _ => ?_)
  rw [State.resetPositions_naming]
  rfl

end

end Sys2Proof.Machine
end


section
/-! PROOFS. RESET PORT as a whole: the teardown, the assignment of players, the port's last steps and the reply (R41 to R43,
R61, R85, R103, R123, R156, R161, R169, R176, R185). -/

namespace Sys2Proof.Machine

/-! ## What the assignment of players keeps of fault records and clips -/

theorem State.itemEnd_faults (s : State) (k : Fin 16) (i : Nat) : (s.itemEnd k i).clipStore.faults = s.clipStore.faults := by
  unfold State.itemEnd State.switch
  dsimp only
  split
  · split
    · rfl
    · exact (State.fileOwner_keeps (fun t => t.clipStore.faults) (fun _ _ => rfl) _ _ _ _ _).trans (State.dropPlays_faults _ _)
  · split
    · rfl
    · rfl

theorem State.deliver_faults (s : State) (f : Fetch) (codes : PageCodes) :
    (s.deliver f codes).clipStore.faults = s.clipStore.faults := by
  unfold State.deliver
  split
  · split
    · unfold State.streamArrival
      dsimp only
      split
      · split
        · split
          · exact State.itemEnd_faults _ _ _
          · rfl
        · rfl
      · rfl
    · rfl
  · split
    · unfold State.promptArrival
      dsimp only
      split
      · rfl
      · rfl
    · rfl

theorem State.grant_faults (s : State) : s.grant.clipStore.faults = s.clipStore.faults := by
  refine State.grantRounds_keeps (P := fun t => t.clipStore.faults = s.clipStore.faults) (fun t h _ => h)
    (fun t f rest h _ _ => ?_) (fun t f rest h _ _ => h) (fun t p clip index page h _ _ => h) (fun t p op h _ _ => h) _ s rfl
  exact (State.deliver_faults t.unqueue f _).trans h

theorem State.assignPlayers_faults (s : State) : s.assignPlayers.clipStore.faults = s.clipStore.faults :=
  State.assignPlayers_keeps_of (P := fun t => t.clipStore.faults = s.clipStore.faults) (fun _ _ _ h => h)
    (fun _ _ _ h => h) (fun _ _ h => h) (fun t h => t.grant_faults.trans h) rfl

/-- The assignment of players changes nothing of a clip but its play count. -/
theorem State.assignPlayers_clip (s : State) (c : Fin 256) :
    { s.assignPlayers.clip c with plays := 0 } = { s.clip c with plays := 0 } :=
  State.assignPlayers_keeps_of (P := fun t => ({ t.clip c with plays := 0 } : Clip) = { s.clip c with plays := 0 }) (fun _ _ _ h => h)
    (fun _ _ _ h => h) (fun _ _ h => h) (fun t h => (t.grant_clip c).trans h) rfl

/-! ## The last steps (R103, R123, R169, R185) -/

section
variable (s : State) (port : Port)

theorem State.resetEnd_clipStore : (s.resetEnd port).clipStore = { s.clipStore with faults := s.clipStore.faults.put port ⟨none, 0⟩ } :=
  State.file_touches ((s.removeTapsOwned port).resetLocal port) port.other .peerReset (Port.number port) 0 .clipStore (by decide)

theorem State.resetEnd_port : (s.resetEnd port).port port = { s.port port with ignored := 0 } := by
  have filed : (s.resetEnd port).port port = ((s.removeTapsOwned port).resetLocal port).port port :=
    State.file_keeps (fun t => t.port port) (fun _ _ => rfl) _ _ _ _ _
  exact filed.trans (PerPort.cell_put_same _ port _)

theorem State.resetEnd_eventsOf : (s.resetEnd port).eventsOf port = EventState.atReset := by
  have filed : (s.resetEnd port).eventsOf port = ((s.removeTapsOwned port).resetLocal port).eventsOf port :=
    State.fileOwner_eventsOf_other (o := some port.other) (fun same => other_ne port (Option.some.inj same)) _ _ _ _
  exact filed.trans (PerPort.cell_put_same _ port _)

theorem State.resetEnd_eventsOf_other : (s.resetEnd port).eventsOf port.other
    = (s.file port.other .peerReset (Port.number port) 0).eventsOf port.other :=
  State.fileOwner_eventsOf (q := port.other) (s := s) (t := (s.removeTapsOwned port).resetLocal port)
    (PerPort.cell_put_other _ _ _ _ (other_ne port).symm) rfl rfl (some port.other) _ _ _

theorem withoutOwner_eq (x : Option Tap) : withoutOwner port x = x.filter fun x => x.owner ≠ port := by
  cases x with
  | none => rfl
  | some x =>
    rw [Option.filter_some]
    by_cases own : x.owner = port
    · rw [if_neg (by simpa using own)]
      exact if_pos own
    · rw [if_pos (by simpa using own)]
      exact if_neg own

/-! ## The state once the port has replied -/

/-- The state after a port reset. -/
def State.portReset (s : State) (port : Port) : State :=
  ((s.tornDown port).assignPlayers.resetEnd port).answer port .ok (s.resetCounts port)

theorem exec_resetPort {s : State} {port : Port} (takes : s.takes port) :
    exec (.resetPort port) s = .next ((s.taken port Code.resetPort).portReset port) :=
  congrArg _ (State.request_of_takes takes _ _)

theorem State.portReset_after_assignment :
    Touches [.mixer, .clipStore, .ports, .events] (s.tornDown port).assignPlayers (s.portReset port) :=
  ((State.resetEnd_touches _ port).mono (by decide)).trans ((State.answer_touches _ port _ _).mono (by decide))

/-- What follows the teardown leaves most of the state alone. -/
theorem State.portReset_after : Touches (.mixer :: grantParts) (s.tornDown port) (s.portReset port) :=
  ((State.assignPlayers_touches _).mono (by decide)).trans ((s.portReset_after_assignment port).mono (by decide))

/-- What follows the closures leaves more alone. -/
theorem State.portReset_after_closures :
    Touches (.positions :: .mixer :: grantParts) (s.resetPositions port) (s.portReset port) :=
  ((s.tornDown_after_closures port).mono (by decide)).trans ((s.portReset_after port).mono (by decide))

theorem State.portReset_clips :
    (s.portReset port).clipStore.clips = (s.tornDown port).assignPlayers.clipStore.clips := by
  show ((s.tornDown port).assignPlayers.resetEnd port).clipStore.clips = _
  rw [State.resetEnd_clipStore]

theorem State.portReset_clip (c : Fin 256) :
    { (s.portReset port).clip c with plays := 0 } = { s.clip c with plays := 0 } := by
  have same : (s.portReset port).clip = (s.tornDown port).assignPlayers.clip := by
    unfold State.clip
    rw [State.portReset_clips]
  rw [same, State.assignPlayers_clip, s.tornDown_playsDropped port c]

theorem State.portReset_faults : (s.portReset port).fault port = ⟨none, 0⟩
    ∧ (s.portReset port).fault port.other = s.fault port.other := by
  have faults : (s.portReset port).clipStore.faults = s.clipStore.faults.put port ⟨none, 0⟩ := by
    show ((s.tornDown port).assignPlayers.resetEnd port).clipStore.faults = _
    rw [State.resetEnd_clipStore, State.assignPlayers_faults, (s.tornDown_rest port).2]
  unfold State.fault
  rw [faults]
  exact ⟨PerPort.cell_put_same _ port _, PerPort.cell_put_other _ _ _ _ (other_ne port).symm⟩

theorem State.portReset_tap (u : Fin 16) : (s.portReset port).tap u
    = (s.tap u).filter fun x => x.owner ≠ port ∧ x.listener ∉ s.keptBy port ∧ x.target ∉ s.keptBy port := by
  have before : (s.tornDown port).assignPlayers.mixer = (s.resetPositions port).mixer :=
    (State.assignPlayers_touches _ .mixer (by decide)).trans (s.tornDown_after_closures port .mixer (by decide))
  have owned : (s.portReset port).tap u = withoutOwner port ((s.resetPositions port).tap u) := by
    show ((s.tornDown port).assignPlayers.resetEnd port).mixer.taps.cell u = _
    rw [State.resetEnd_mixer, before]
    exact Table.cell_map ..
  rw [owned, State.resetPositions_eq_handed, tearDowns_tap, State.handed_tap, withoutOwner_eq, Option.filter_filter]
  refine congrArg (fun test => (s.tap u).filter test) (funext fun x => ?_)
  simp only [Bool.decide_and]
  exact Bool.and_comm ..

theorem State.portReset_coachDuck (p : Fin 64) : (s.portReset port).coachDuck p
    = if p ∈ s.keptBy port then 0 else s.coachDuck p := by
  have before : (s.tornDown port).assignPlayers.mixer = (s.resetPositions port).mixer :=
    (State.assignPlayers_touches _ .mixer (by decide)).trans (s.tornDown_after_closures port .mixer (by decide))
  have kept : (s.portReset port).coachDuck p = (s.resetPositions port).coachDuck p := by
    show ((s.tornDown port).assignPlayers.resetEnd port).mixer.coachDuck.cell p = _
    rw [State.resetEnd_mixer, before]
    rfl
  have handed : (s.handed port).coachDuck p = s.coachDuck p := by
    unfold State.coachDuck
    rw [s.handed_touches port .mixer (by decide)]
  rw [kept, State.resetPositions_eq_handed, tearDowns_coachDuck, handed]

theorem State.portReset_canceller (p : Fin 64) : (s.portReset port).canceller p
    = if p ∈ s.keptBy port then Canceller.zeroed [] else s.canceller p := by
  have kept : (s.portReset port).canceller p = (s.resetPositions port).canceller p := by
    unfold State.canceller
    rw [s.portReset_after_closures port .echo (by decide)]
  have handed : (s.handed port).canceller p = s.canceller p := by
    unfold State.canceller
    rw [s.handed_touches port .echo (by decide)]
  rw [kept, State.resetPositions_eq_handed, tearDowns_canceller, handed]

theorem State.portReset_suppressor (p : Fin 64) : (s.portReset port).suppressor p
    = if p ∈ s.keptBy port then Suppressor.fresh (s.profile 2) else s.suppressor p := by
  have kept : (s.portReset port).suppressor p = (s.resetPositions port).suppressor p := by
    unfold State.suppressor
    rw [s.portReset_after_closures port .suppress (by decide)]
  have handed : (s.handed port).suppress = s.suppress := s.handed_touches port .suppress (by decide)
  rw [kept, State.resetPositions_eq_handed, tearDowns_suppressor]
  unfold State.suppressor State.profile
  rw [handed]

theorem State.portReset_profiles : (s.portReset port).suppress.profiles = s.suppress.profiles := by
  rw [s.portReset_after_closures port .suppress (by decide), State.resetPositions_eq_handed, tearDowns_profiles,
    s.handed_touches port .suppress (by decide)]

theorem State.portReset_free (g : Fin 128) : g ∈ (s.portReset port).echo.free
    ↔ g ∈ s.echo.free ∨ ∃ p ∈ s.keptBy port, g ∈ s.segments p := by
  have handed : (s.handed port).echo = s.echo := s.handed_touches port .echo (by decide)
  rw [s.portReset_after_closures port .echo (by decide), State.resetPositions_eq_handed, tearDowns_free]
  unfold State.segments State.canceller
  rw [handed]

theorem State.portReset_coefficients : (s.portReset port).echo.coefficients = s.echo.coefficients := by
  obtain ⟨-, -, coefficients⟩ := tearDowns_rest (s.keptBy port) (s.handed port)
  rw [s.portReset_after_closures port .echo (by decide), State.resetPositions_eq_handed, coefficients,
    s.handed_touches port .echo (by decide)]

theorem State.resetPositions_highway : (s.resetPositions port).highway = { s.highway with
    agent := (s.resetPositions port).highway.agent, trunk := (s.resetPositions port).highway.trunk } := by
  have closed := tearDowns_highway (s.keptBy port) (s.handed port)
  rwa [← State.resetPositions_eq_handed, s.handed_touches port .highway (by decide)] at closed

theorem State.portReset_highway : (s.portReset port).highway = { s.highway with
    agent := (s.portReset port).highway.agent, trunk := (s.portReset port).highway.trunk } := by
  rw [s.portReset_after_closures port .highway (by decide)]
  exact s.resetPositions_highway port

theorem State.any_handed (test : Position → Bool) :
    (s.keptBy port).any (fun p => test ((s.handed port).pos p)) = (s.keptBy port).any fun p => test (s.pos p) := by
  rw [Bool.eq_iff_iff, List.any_eq_true, List.any_eq_true]
  exact exists_congr fun p => and_congr_right fun kept => by rw [State.handed_pos_of_kept kept]

theorem State.portReset_agent (a : Fin 64) : (s.portReset port).highway.agent.cell a
    = if (s.keptBy port).any (fun p => (s.pos p).agentSlot = some a) = true then none else s.highway.agent.cell a := by
  have same := s.any_handed port fun x => x.agentSlot = some a
  rw [s.portReset_after_closures port .highway (by decide), State.resetPositions_eq_handed, tearDowns_agent, same,
    s.handed_touches port .highway (by decide)]

theorem State.portReset_trunk (v : Fin 64) : (s.portReset port).highway.trunk.cell v
    = if (s.keptBy port).any (fun p => (s.pos p).state.inCall && (s.pos p).trunkSlot = some v) = true then none
      else s.highway.trunk.cell v := by
  have same := s.any_handed port fun x => x.state.inCall && x.trunkSlot = some v
  rw [s.portReset_after_closures port .highway (by decide), State.resetPositions_eq_handed, tearDowns_trunk, same,
    s.handed_touches port .highway (by decide)]

/-! ## Positions, queues and streams after the reset -/

theorem State.portReset_pos (p : Fin 64) :
    (s.portReset port).pos p = ((s.resetPositions port).pos p).losing (s.streamsOf port) := by
  rw [State.pos_of_positions (s.portReset_after port .positions (by decide)), State.tornDown_pos]

theorem State.portReset_stream (k : Fin 16) : ((s.tornDown port).stream k).SameBeyondFetch ((s.portReset port).stream k) := by
  have same : (s.portReset port).stream k = (s.tornDown port).assignPlayers.stream k := by
    unfold State.stream
    rw [s.portReset_after_assignment port .streams (by decide)]
  rw [same]
  exact State.assignPlayers_stream _ k

theorem State.portReset_queue (p : Fin 64) : (s.portReset port).queue p = (s.tornDown port).assignPlayers.queue p :=
  State.queue_of_whisper (s.portReset_after_assignment port .whisper (by decide)) p

theorem State.portReset_origins (p : Fin 64) : ∀ e ∈ (s.portReset port).queue p, e.origin ≠ port := by
  rw [State.portReset_queue]
  exact State.assignPlayers_all (fun _ => Iff.rfl) (s.tornDown_origins port p)

end

section
variable {s : State} {port : Port} {p : Fin 64}

theorem State.portReset_pos_of_offered (owner : (s.pos p).owner = some port) (offer : (s.pos p).offer = true) :
    (s.portReset port).pos p = ((s.pos p).inherited port).losing (s.streamsOf port) := by
  have offered := (s.mem_offeredBy port p).mpr ⟨owner, offer⟩
  rw [State.portReset_pos, State.resetPositions_pos, if_neg fun kept => State.not_offered_of_kept kept offered, if_pos offered]

theorem State.portReset_pos_of_kept (kept : p ∈ s.keptBy port) :
    (s.portReset port).pos p = Position.closedContents ∧ (s.portReset port).queue p = [] := by
  refine ⟨?_, ?_⟩
  · rw [State.portReset_pos, State.resetPositions_pos, if_pos kept]
    rfl
  · rw [State.portReset_queue]
    refine State.assignPlayers_queue_nil ?_
    rw [State.tornDown_queue, if_pos kept]

theorem State.portReset_pos_of_other (owner : (s.pos p).owner = some port.other) :
    (s.portReset port).pos p = ({ s.pos p with offer := false } : Position).losing (s.streamsOf port) := by
  have apart : (s.pos p).owner ≠ some port := fun own => other_ne port (Option.some.inj (owner.symm.trans own))
  rw [State.portReset_pos, State.resetPositions_pos, if_neg fun kept => apart ((s.mem_keptBy port p).mp kept).1,
    if_neg fun offered => apart ((s.mem_offeredBy port p).mp offered).1]
  unfold Position.unoffered
  rw [if_pos owner]

theorem State.portReset_unowned (p : Fin 64) : ((s.portReset port).pos p).owner ≠ some port := by
  rw [State.portReset_pos]
  exact s.resetPositions_unownedBy port p

theorem State.portReset_stream_of_owned {k : Fin 16} (owner : (s.stream k).owner = some port) :
    ((s.portReset port).stream k).state = .stopped ∧ ((s.portReset port).stream k).owner = none
      ∧ ((s.portReset port).stream k).listeners = 0 ∧ ∀ p, ((s.portReset port).pos p).stream ≠ some k := by
  have owned := (s.mem_streamsOf port k).mpr owner
  have kept := s.portReset_stream port k
  have stopped := s.tornDown_stream port k
  rw [if_pos owned] at stopped
  rw [stopped] at kept
  refine ⟨kept.state, kept.owner, kept.listeners, fun p named => ?_⟩
  rw [State.portReset_pos] at named
  have stays := (Option.filter_eq_some_iff.mp named).2
  exact of_decide_eq_true stays owned

theorem State.portReset_streams_unowned (k : Fin 16) : ((s.portReset port).stream k).owner ≠ some port := by
  rw [(s.portReset_stream port k).owner, State.tornDown_stream]
  split
  · exact nofun
  · next unowned => exact fun own => unowned ((s.mem_streamsOf port k).mpr own)

/-! ## The port and the events (R169, R172, R185) -/

theorem State.portReset_port (waits : s.arbiter.pendingOps.cell port = none) : (s.portReset port).port port
    = { s.port port with ready := true, inFlight := none, ignored := 0
                         lastReply := some ⟨.ok, ((s.port port).inFlight).getD 0, s.resetCounts port⟩ } := by
  obtain ⟨queue, arbiter⟩ := s.tornDown_arbiter port
  obtain ⟨assigned, -⟩ := State.assignPlayers_port (s := s.tornDown port) (port := port) (by rw [arbiter]; exact waits)
  have before : (s.tornDown port).port port = s.port port := by
    unfold State.port
    rw [s.tornDown_touches port .ports (by decide)]
  unfold State.portReset
  rw [State.answer_port, State.resetEnd_port, assigned, before]

theorem State.portReset_assignment_events (busy : s.arbiter.bus ≠ none) :
    (s.tornDown port).assignPlayers.eventsOf port.other = (s.tornDown port).eventsOf port.other := by
  obtain ⟨queue, arbiter⟩ := s.tornDown_arbiter port
  obtain ⟨-, touched⟩ := State.assignPlayers_of_busy (s := s.tornDown port) (by rw [arbiter]; exact busy)
  unfold State.eventsOf
  rw [touched .events (by decide)]

end

end Sys2Proof.Machine
end


section
/-! PROOFS. RESET PORT: the statement about it (R41 to R43, R61, R85, R103, R123, R156, R161, R176, R185). -/

namespace Sys2Proof.Machine

theorem State.losing_streamsOf (s : State) (port : Port) (x : Position) : x.losing (s.streamsOf port)
    = { x with stream := x.stream.filter fun k => (s.stream k).owner ≠ some port } := by
  unfold Position.losing
  refine congrArg (fun stream => { x with stream := stream }) (congrArg (Option.filter · x.stream) (funext fun k => ?_))
  exact decide_eq_decide.mpr (not_congr (s.mem_streamsOf port k))

/-- The queues before players are assigned, as hand-overs, closures and flushes leave them. -/
theorem State.tornDown_queue_map (s : State) (port : Port) (p : Fin 64) : (s.tornDown port).queue p
    = if p ∈ s.keptBy port then [] else ((s.queue p).map fun e =>
        if p ∈ s.offeredBy port ∧ e.kind = .announce then { e with origin := port.other } else e).filter
          fun e => e.origin ≠ port := by
  rw [State.tornDown_queue, State.handed_queue_map]
  simp only [ne_eq, decide_not]

/-- Settles O47: the state that RESET PORT leads to is the teardown's, with players assigned, the port's own state reset and
the reply made. -/
theorem resetPort : Obligations.ResetPort := by
  unfold Obligations.ResetPort
  intro s port takes waits
  rw [← s.offeredBy_eq, ← s.keptBy_eq]
  intro passed closed streams flushed freed stopped
  have taken : Touches [.ports] s (s.taken port Code.resetPort) := Touches.of_ports _ _
  let v := s.taken port Code.resetPort
  refine ⟨v.portReset port, exec_resetPort takes, fun p owner offer => ?offered, fun p owner offer => ?kept,
    fun p owner => ?others, v.portReset_unowned, fun p kept => ?closed, fun p stays => ?unclosed, v.portReset_profiles port,
    v.portReset_free port, v.portReset_coefficients port, v.portReset_highway port, v.portReset_agent port,
    v.portReset_trunk port, v.portReset_tap port, fun k owner => State.portReset_stream_of_owned (s := v) owner,
    v.portReset_streams_unowned, v.portReset_origins port, v.portReset_clip port, (v.portReset_faults port).1,
    (v.portReset_faults port).2, ?events, ?port, v.tornDown port, ?touches, ?stamp, v.portReset_after_assignment port,
    v.portReset_clips port, v.tornDown_queue_map port, (v.tornDown_rest port).1, (v.tornDown_rest port).2,
    v.tornDown_playsDropped port, fun sound => ?players, v.tornDown_stream port, ?peer, ?assigned, fun sound => ?filed⟩
  case offered => exact (State.portReset_pos_of_offered (s := v) owner offer).trans (v.losing_streamsOf port _)
  case kept => exact State.portReset_pos_of_kept ((v.mem_keptBy port p).mpr ⟨owner, offer⟩)
  case others => exact (State.portReset_pos_of_other (s := v) owner).trans (v.losing_streamsOf port _)
  case closed =>
    exact ⟨(v.portReset_coachDuck port p).trans (if_pos kept), (v.portReset_canceller port p).trans (if_pos kept),
      (v.portReset_suppressor port p).trans (if_pos kept)⟩
  case unclosed =>
    exact ⟨(v.portReset_coachDuck port p).trans (if_neg stays), (v.portReset_canceller port p).trans (if_neg stays),
      (v.portReset_suppressor port p).trans (if_neg stays)⟩
  case events => exact State.resetEnd_eventsOf _ port
  case port =>
    rw [State.portReset_port (s := v) waits, State.taken_port]
    rfl
  case touches => exact (taken.mono (by decide)).trans ((v.tornDown_touches port).mono (by decide))
  case stamp =>
    rw [v.tornDown_after_closures port .highway (by decide), v.resetPositions_highway port]
    rfl
  case players => exact State.tornDown_playersFreed (s := v) (((State.playersSound_iff s).mp sound).1.of_whisper rfl) port
  case peer => exact State.resetEnd_eventsOf_other _ port
  case assigned => exact State.portReset_assignment_events (s := v)
  case filed =>
    have records := State.filed_eventsOf (q := port.other) (s := s) (t := v) rfl rfl rfl
      (s.resetFilings port (s.offeredBy port) (s.keptBy port) (s.streamsOf port))
    exact (State.tornDown_filed (s := v) sound port).events.trans records

end Sys2Proof.Machine
end

section
/-! PROOFS. The noise suppressor: the floor and the class, the ramp of the gain, one processed frame, what is left for a
position at a frame completion, and WRITE PROFILE (R2, R4, R5, R19, R47, R49 to R55, R58, R59). -/

namespace Sys2Proof.Machine

/-! ## Bit lengths and energies (R2, R49) -/

theorem bitlen_le_iff (n k : Nat) : bitlen n ≤ k ↔ n < 2 ^ k := by
  unfold bitlen
  split
  · next zero => simp [zero]
  · next positive => exact Nat.log2_lt positive

theorem lt_two_pow_bitlen (n : Nat) : n < 2 ^ bitlen n := (bitlen_le_iff n _).mp le_rfl

theorem two_pow_bitlen_le {n : Nat} (positive : 0 < n) : 2 ^ (bitlen n - 1) ≤ n := by
  have digits : bitlen n ≠ 0 := fun zero => by
    have := (bitlen_le_iff n 0).mp zero.le
    omega
  have short : ¬ bitlen n ≤ bitlen n - 1 := by omega
  rwa [bitlen_le_iff, Nat.not_lt] at short

theorem bitlen_mono {m n : Nat} (h : m ≤ n) : bitlen m ≤ bitlen n :=
  (bitlen_le_iff m _).mpr (h.trans_lt (lt_two_pow_bitlen n))

theorem frameEnergy_eq (m : Frame) : (frameEnergy m : Int) = (m.toList.map fun v => v * v).sum := by
  rw [frameEnergy, Nat.cast_list_sum, List.map_map]
  exact congrArg List.sum (List.map_congr_left fun v _ => Int.natAbs_mul_self)

/-! ## The class and the floor (R50, R51) -/

theorem speechClass_of_le {energy floor : Nat} (quiet : energy ≤ floor) : speechClass energy floor = 0 := by
  rw [speechClass, Nat.sub_eq_zero_of_le (bitlen_mono quiet), Nat.min_zero]

theorem nextFloor_of_le {energy floor : Nat} (nmin : Nat) (quiet : energy ≤ floor) :
    nextFloor nmin energy floor = max nmin energy := by
  rw [nextFloor, Nat.min_eq_left (by omega)]

/-- The floor rises by at most one part in 256, plus one, except to Nmin. -/
theorem nextFloor_le_grown_or (nmin energy floor : Nat) :
    nextFloor nmin energy floor ≤ floor + floor / 256 + 1 ∨ nextFloor nmin energy floor = nmin := by
  unfold nextFloor
  omega

theorem nextFloor_range {nmin energy : Nat} (floor : Nat) {most : Nat} (h : nmin ≤ most) (k : energy ≤ most) :
    nmin ≤ nextFloor nmin energy floor ∧ nextFloor nmin energy floor ≤ most :=
  ⟨Nat.le_max_left _ _, Nat.max_le.mpr ⟨h, (Nat.min_le_left _ _).trans k⟩⟩

theorem Suppressor.stages_speech_iff (x : Suppressor) (profile : Profile) (energy : Nat) (m : Frame) :
    (x.stages profile energy m).speech = true ↔ profile.threshold ≤ speechClass energy x.floor := decide_eq_true_iff

/-- Settles O17: stage 4 leaves `nextFloor` of the floor that stage 3 has compared the energy with. -/
theorem suppressorFloor : Obligations.SuppressorFloor := fun x profile energy m =>
  ⟨rfl, x.stages_speech_iff profile energy m, nextFloor_of_le profile.nmin,
    nextFloor_le_grown_or profile.nmin energy x.floor, nextFloor_range x.floor⟩

/-! ## The ramp (R53) -/

theorem rampGain_last (previous next : Nat) : rampGain previous next 31 = next := by
  unfold rampGain
  omega

theorem rampGain_self (gain i : Nat) : rampGain gain gain i = gain := by simp [rampGain]

/-- The part of a difference that up to 32 of its 32nds come to lies between zero and the difference. -/
theorem share_between {k : Int} (d : Int) (least : 0 ≤ k) (most : k ≤ 32) :
    min 0 d ≤ d * k / 32 ∧ d * k / 32 ≤ max 0 d := by
  rcases le_total 0 d with rising | falling
  · have low : 0 ≤ d * k := mul_nonneg rising least
    have high : d * k ≤ d * 32 := mul_le_mul_of_nonneg_left most rising
    omega
  · have low : d * 32 ≤ d * k := mul_le_mul_of_nonpos_left most falling
    have high : d * k ≤ 0 := mul_nonpos_of_nonpos_of_nonneg falling least
    omega

theorem rampGain_between (previous next : Nat) {i : Nat} (inside : i < 32) :
    min (previous : Int) next ≤ rampGain previous next i ∧ rampGain previous next i ≤ max (previous : Int) next := by
  have share := share_between (k := i + 1) ((next : Int) - previous) (by omega) (by omega)
  unfold rampGain
  omega

/-- A sample of the ramp is a gain applied, the gain of that sample being none below zero. -/
theorem rampSample_eq_applyGain {previous next i g : Nat} (gain : rampGain previous next i = g) (m : Int) :
    rampSample previous next i m = applyGain g m := by
  rw [rampSample_eq, applyGain_eq, gain]

theorem rampSample_range {previous next i : Nat} {m : Int} (inside : i < 32) (h : previous ≤ 32768) (k : next ≤ 32768)
    (low : -32768 ≤ m) (high : m ≤ 32767) :
    -32768 ≤ rampSample previous next i m ∧ rampSample previous next i m ≤ 32767 := by
  have between := rampGain_between previous next inside
  obtain ⟨g, gain⟩ : ∃ g : Nat, rampGain previous next i = g := Int.eq_ofNat_of_zero_le (by omega)
  rw [rampSample_eq_applyGain gain]
  exact applyGain_range (by omega) low high

theorem Suppressor.stages_send (x : Suppressor) (profile : Profile) (energy : Nat) (m : Frame) (i : Fin 32) :
    (x.stages profile energy m).send.cell i
      = rampSample x.gain (x.stages profile energy m).gain i.val (m.cell i) := Table.cell_build _ i

/-- Settles O18: the gain goes from the previous one to the new one by equal shares, so no output leaves the 16-bit range. -/
theorem suppressorRamp : Obligations.SuppressorRamp :=
  ⟨fun _ _ _ => rfl, rampGain_last, fun previous next _ => rampGain_between previous next, rampGain_self, rampSample_eq,
    fun _ _ _ _ => rampSample_range, fun x profile energy m => ⟨rfl, x.stages_send profile energy m⟩⟩

/-! ## One processed frame (R49, R50, R52) -/

/-- A later frame goes to stage 3 as the last one left it. -/
theorem Suppressor.run_later {x : Suppressor} (later : x.firstFrame = false) (profile : Profile) (m : Frame) :
    x.run profile m = x.stages profile (frameEnergy m) m := by
  simp [Suppressor.run, Suppressor.begun, later]

/-- A first frame goes to stage 3 with the floor, the index and the gain of stage 2. -/
theorem Suppressor.run_first {x : Suppressor} (first : x.firstFrame = true) (profile : Profile) (m : Frame) :
    x.run profile m = ({ x with
        floor := max (frameEnergy m) profile.nmin, index := 0, gain := profile.gains.cell 0, firstFrame := false }
          : Suppressor).stages profile (frameEnergy m) m := by
  simp [Suppressor.run, Suppressor.begun, first]

theorem Suppressor.run_firstFrame (x : Suppressor) (profile : Profile) (m : Frame) :
    (x.run profile m).firstFrame = false := by
  cases flag : x.firstFrame with
  | false => rw [Suppressor.run_later flag]; exact flag
  | true => rw [Suppressor.run_first flag]; rfl

theorem Suppressor.run_wasConnected (x : Suppressor) (profile : Profile) (m : Frame) :
    (x.run profile m).wasConnected = x.wasConnected := by
  cases flag : x.firstFrame with
  | false => rw [Suppressor.run_later flag]; rfl
  | true => rw [Suppressor.run_first flag]; rfl

/-- Stages 3 to 7 on a floor at or above the energy, with index 0 and the profile's first gain: no SPEECH, and the gain stays
as it is across the frame. -/
theorem Suppressor.stages_quiet {x : Suppressor} {profile : Profile} {energy : Nat} (quiet : energy ≤ x.floor)
    (index : x.index = 0) (gain : x.gain = profile.gains.cell 0) (threshold : 1 ≤ profile.threshold) (m : Frame) :
    let y := x.stages profile energy m
    y.speech = false ∧ y.index = 0 ∧ y.floor = max profile.nmin energy ∧ y.gain = profile.gains.cell 0
      ∧ ∀ i, y.send.cell i = applyGain (profile.gains.cell 0) (m.cell i) := by
  have lowest : (x.stages profile energy m).index = 0 := by
    show nextIndex (speechClass energy x.floor) x.index = 0
    rw [speechClass_of_le quiet, index]
    rfl
  have held : (x.stages profile energy m).gain = profile.gains.cell 0 := congrArg (profile.gains.nth · 0) lowest
  refine ⟨?_, lowest, nextFloor_of_le profile.nmin quiet, held, fun i => ?_⟩
  · rw [← Bool.not_eq_true, Suppressor.stages_speech_iff, speechClass_of_le quiet]
    omega
  · rw [Suppressor.stages_send, held, gain, rampSample_eq_applyGain (rampGain_self _ _)]

/-- Settles O19: the energy is the sum of squares; a later frame is stages 3 to 7 alone, and a first frame is one that stage 2
has made quiet. -/
theorem suppressorFrame : Obligations.SuppressorFrame := by
  intro x profile m
  refine ⟨frameEnergy_eq m, ⟨rfl, fun n positive => ⟨two_pow_bitlen_le positive, lt_two_pow_bitlen n⟩⟩, frameEnergy_le,
    x.run_firstFrame profile m, x.run_wasConnected profile m, fun later => ?_, fun first threshold => ?_⟩
  · rw [Suppressor.run_later later]
    exact ⟨x.stages_speech_iff profile _ m, rfl, rfl, rfl, x.stages_send profile _ m⟩
  · rw [Suppressor.run_first first, Nat.max_comm _ profile.nmin]
    exact Suppressor.stages_quiet (Nat.le_max_right _ _) rfl rfl threshold m

/-! ## What the agent timeslot hands over (R4, R5, R19) -/

theorem heard_eq_some_iff (l : Law) (received : Option (List Byte)) (m : Frame) : heard l received = some m
    ↔ ∃ codes, received = some codes ∧ codes.length = 32 ∧ m = Table.ofList 32 0 (codes.map (expand l)) := by
  cases received with
  | none => simp [heard]
  | some codes => by_cases whole : codes.length = 32 <;> simp [heard, whole, eq_comm]

theorem State.agentLine_eq_some_iff (s : State) (p : Fin 64) (l : Line) :
    s.agentLine p = some l ↔ ∃ a, (s.pos p).agentSlot = some a ∧ s.highway.agent.cell a = some l := by
  unfold State.agentLine
  cases (s.pos p).agentSlot with
  | none => simp
  | some a => simp

theorem State.microphone_eq_some_iff (s : State) (p : Fin 64) (m : Frame) :
    s.microphone p = some m ↔ ∃ l, s.agentLine p = some l ∧ heard s.law l.received = some m := by
  unfold State.microphone
  cases s.agentLine p with
  | none => simp
  | some l => simp

theorem State.headset_eq (s : State) (p : Fin 64) : s.headset p = (s.pos p).agentSlot.map s.debounced := by
  unfold State.headset
  cases (s.pos p).agentSlot with
  | none => rfl
  | some a => rfl

theorem State.headsetPresent_iff (s : State) (p : Fin 64) :
    s.headsetPresent p = true ↔ ∃ a, (s.pos p).agentSlot = some a ∧ (s.debounced a).present = true := by
  rw [State.headsetPresent, State.headset_eq]
  cases (s.pos p).agentSlot with
  | none => simp
  | some a => simp

theorem State.headsetMuted_iff (s : State) (p : Fin 64) :
    s.headsetMuted p = true ↔ ∃ a, (s.pos p).agentSlot = some a ∧ (s.debounced a).mute = true := by
  rw [State.headsetMuted, State.headset_eq]
  cases (s.pos p).agentSlot with
  | none => simp
  | some a => simp

/-! ## What the suppressor leaves for a position (R47, R54, R55) -/

theorem State.suppress1_of_closed {s : State} {p : Fin 64} (closed : (s.pos p).state = .closed) :
    s.suppress1 p = s.suppressor p := by
  simp [State.suppress1, closed]

theorem State.suppress1_of_open {s : State} {p : Fin 64} (opened : (s.pos p).state ≠ .closed) :
    s.suppress1 p = { s.suppressed p with wasConnected := decide ((s.pos p).state = .connected) } := by
  unfold State.suppress1
  cases state : (s.pos p).state with
  | closed => exact absurd state opened
  | connected => rfl
  | idle => rfl
  | announce => rfl
  | held => rfl

theorem State.suppressed_of_absent {s : State} {p : Fin 64}
    (absent : s.microphone p = none ∨ s.headsetPresent p = false) : s.suppressed p = (s.suppressor p).silent := by
  unfold State.suppressed
  rcases absent with unheard | away
  · rw [unheard]
  · cases s.microphone p with
    | none => rfl
    | some m => simp [away]

theorem State.suppressed_of_present {s : State} {p : Fin 64} {m : Frame} (handed : s.microphone p = some m)
    (present : s.headsetPresent p = true) : s.suppressed p
      = if s.headsetMuted p then ((s.suppressor p).run (s.profile (s.pos p).profile) m).silent
        else (s.suppressor p).run (s.profile (s.pos p).profile) m := by
  simp [State.suppressed, handed, present]

/-- Settles O20: what the timeslot hands over, and for an open position silence, the frame processed, or the frame processed
and silenced. -/
theorem suppressorDecision : Obligations.SuppressorDecision := by
  intro s p
  refine ⟨fun m => ?_, s.headsetPresent_iff p, s.headsetMuted_iff p, State.suppress1_of_closed, fun opened => ?_⟩
  · rw [State.microphone_eq_some_iff]
    simp only [State.agentLine_eq_some_iff, heard_eq_some_iff]
    constructor
    · rintro ⟨l, ⟨a, slot, line⟩, codes, received, whole, frame⟩
      exact ⟨a, l, codes, slot, line, received, whole, frame⟩
    · rintro ⟨a, l, codes, slot, line, received, whole, frame⟩
      exact ⟨l, ⟨a, slot, line⟩, codes, received, whole, frame⟩
  · rw [State.suppress1_of_open opened]
    refine ⟨fun absent => ?_, fun m handed present => ⟨fun unmuted => ?_, fun muted => ?_⟩⟩
    · rw [State.suppressed_of_absent absent]
      rfl
    · rw [State.suppressed_of_present handed present, unmuted]
      rfl
    · rw [State.suppressed_of_present handed present, muted]
      rfl

/-! ## WRITE PROFILE (R58, R59) -/

/-- The adjustments of R58. -/
theorem storedProfile_eq (gains : Table 16 Half) (threshold : Byte) (nmin : Wide) : storedProfile gains threshold nmin
    = ⟨Table.build fun i => min (gains.cell i).toNat 32768, max 1 (min threshold.toNat 15),
        max 1 (min nmin.toNat (2 ^ 30))⟩ := by
  unfold storedProfile clampTo
  rw [Nat.min_comm 15, Nat.min_comm 1073741824]
  rfl

theorem State.replaceProfile_taken (s : State) (port : Port) (code : Byte) (n : Fin 4) (x : Profile)
    (payload : List Byte) : ((s.taken port code).replaceProfile n x).answer port .ok payload
      = (s.replaceProfile n x).replied port code .ok payload :=
  State.taken_answer (s.replaceProfile n x) port code .ok payload

/-- Settles O35: the request names a profile, so its effect is the replacement of that profile by the adjusted one. -/
theorem writeProfile : Obligations.WriteProfile := by
  intro s port number n gains threshold nmin takes named
  show Host.Outcome.next (s.request port Code.writeProfile _) = _
  rw [State.request_of_takes takes, named]
  dsimp only
  rw [State.replaceProfile_taken, storedProfile_eq]
  rfl

end Sys2Proof.Machine
end

section
/-! PROOFS. The segment pool: every segment stays free or held at one place of one position's list, and the free ones stay
listed in ascending order (R62 to R65). -/

namespace Sys2Proof.Machine

/-! ## What leaves the pool alone -/

/-- From `s` to `t` the pool, every position's list, its EC tail, and whether it is open have not changed. -/
structure PoolKept (s t : State) : Prop where
  free : t.echo.free = s.echo.free
  segments : ∀ p, t.segments p = s.segments p
  closed : ∀ p, (t.pos p).state = .closed ↔ (s.pos p).state = .closed
  tail : ∀ p, (t.pos p).tail = (s.pos p).tail

theorem SettingsKept.tail {s t : State} (h : SettingsKept s t) (p : Fin 64) : (t.pos p).tail = (s.pos p).tail :=
  congrArg (·.2.2.1) (h p)

/-- Records may change while the echo canceller does not. -/
theorem PoolKept.of_records {s t : State} (echo : t.echo = s.echo) (slots : SlotsKept s t)
    (tail : ∀ p, (t.pos p).tail = (s.pos p).tail) : PoolKept s t where
  free := congrArg Echo.free echo
  segments p := congrArg (fun e : Echo => (e.positions.cell p).segments) echo
  closed := slots.closed_iff
  tail := tail

theorem PoolKept.of_touches {parts : List Part} {s t : State} (h : Touches parts s t) (echo : .echo ∉ parts)
    (positions : .positions ∉ parts) : PoolKept s t :=
  .of_records (h .echo echo) (.of_touches h positions) (SettingsKept.of_touches h positions).tail

theorem State.segmentsSound_of_kept {s t : State} (sound : s.segmentsSound) (kept : PoolKept s t) : t.segmentsSound := by
  obtain ⟨free, segments, closed, tail⟩ := kept
  unfold State.segmentsSound at sound ⊢
  simp only [free, segments, closed, tail, ne_eq] at sound ⊢
  exact sound

theorem State.segmentsSound_of_touches {parts : List Part} {s t : State} (sound : s.segmentsSound) (h : Touches parts s t)
    (echo : .echo ∉ parts) (positions : .positions ∉ parts) : t.segmentsSound :=
  State.segmentsSound_of_kept sound (.of_touches h echo positions)

/-! ## A frame completion (R4, R67) -/

theorem State.echo1_free (s : State) (p : Fin 64) : (s.echo1 p).2.echo.free = s.echo.free := by
  unfold State.echo1
  split
  · show (s.afterEcho p _).echo.free = _
    rw [State.afterEcho_echo]
  · rfl

theorem State.echo1_segments (s : State) (p q : Fin 64) : (s.echo1 p).2.segments q = s.segments q := by
  unfold State.echo1
  split
  · exact s.afterEcho_segments p q _
  · rfl

theorem State.echoFrames_pool (s : State) :
    s.echoFrames.2.echo.free = s.echo.free ∧ ∀ q, s.echoFrames.2.segments q = s.segments q := by
  unfold State.echoFrames
  refine foldl_keeps (P := fun acc : Table 64 Frame × State => acc.2.echo.free = s.echo.free
    ∧ ∀ q, acc.2.segments q = s.segments q) (fun acc p kept => ?_) (List.finRange 64) _ ⟨rfl, fun _ => rfl⟩
  obtain ⟨free, segments⟩ := kept
  exact ⟨(acc.2.echo1_free p).trans free, fun q => (acc.2.echo1_segments p q).trans (segments q)⟩

theorem State.completeFrame_poolKept (s : State) : PoolKept s s.completeFrame := by
  obtain ⟨free, segments⟩ := s.stamped.echoFrames_pool
  have echo := s.completeFrame_echo
  exact ⟨(congrArg Echo.free echo).trans free,
    fun p => (congrArg (fun e : Echo => (e.positions.cell p).segments) echo).trans (segments p),
    s.completeFrame_slotsKept.closed_iff, s.completeFrame_settingsKept.tail⟩

theorem State.settle_segmentsSound {s : State} (sound : s.segmentsSound) : s.settle.segmentsSound := by
  have debounced := State.segmentsSound_of_touches sound s.settleDebounce_touches (by decide) (by decide)
  unfold State.settle State.settleFrame
  split
  · exact State.segmentsSound_of_kept debounced (State.completeFrame_poolKept _)
  · exact debounced

/-! ## Segments between the pool and one position (R64, R65) -/

/-- One position's record and list change, and the pool with them: what the pool and the position hold between them stays
the same. -/
theorem State.segmentsSound_exchange {s t : State} (sound : s.segmentsSound) {p : Fin 64} {x : Position} {c : Canceller}
    (record : t.positions = s.positions.put p x) (canceller : t.echo.positions = s.echo.positions.put p c)
    (ascending : t.echo.free.Pairwise (· < ·)) (once : c.segments.Nodup)
    (together : ∀ g, g ∈ t.echo.free ∨ g ∈ c.segments ↔ g ∈ s.echo.free ∨ g ∈ s.segments p)
    (apart : ∀ g ∈ c.segments, g ∉ t.echo.free) (opened : x.state ≠ .closed → c.segments.length = x.tail)
    (closed : x.state = .closed → c.segments = []) : t.segmentsSound := by
  obtain ⟨-, each, unfree, disjoint, covered, full, empty⟩ := sound
  have pos : ∀ q, t.pos q = if p = q then x else s.pos q := fun q => by
    unfold State.pos
    rw [record, Table.cell_put]
  have here : t.segments p = c.segments := by
    unfold State.segments State.canceller
    rw [canceller, Table.cell_put_self]
  have there : ∀ q, p ≠ q → t.segments q = s.segments q := fun q other => by
    unfold State.segments State.canceller
    rw [canceller, Table.cell_put_other _ _ _ _ other]
  -- What another position holds is neither in the pool nor with `p`, before or after.
  have elsewhere : ∀ q, p ≠ q → ∀ g ∈ s.segments q, g ∉ t.echo.free ∧ g ∉ c.segments := fun q other g held =>
    not_or.mp fun moved => ((together g).mp moved).elim (unfree q g held) (disjoint q p (Ne.symm other) g held)
  refine ⟨ascending, fun q => ?_, fun q g held => ?_, fun q r different g held => ?_, fun g => ?_, fun q isOpen => ?_,
    fun q shut => ?_⟩
  · by_cases same : p = q
    · rw [← same, here]; exact once
    · rw [there q same]; exact each q
  · by_cases same : p = q
    · rw [← same, here] at held; exact apart g held
    · rw [there q same] at held; exact (elsewhere q same g held).1
  · by_cases same : p = q
    · subst same
      rw [here] at held
      rw [there r different]
      exact fun other => (elsewhere r different g other).2 held
    · rw [there q same] at held
      by_cases same' : p = r
      · rw [← same', here]; exact (elsewhere q same g held).2
      · rw [there r same']; exact disjoint q r different g held
  · have pooled : g ∈ s.echo.free ∨ g ∈ s.segments p → g ∈ t.echo.free ∨ ∃ q, g ∈ t.segments q := fun before =>
      ((together g).mpr before).imp_right fun held => ⟨p, by rw [here]; exact held⟩
    rcases covered g with free | ⟨q, held⟩
    · exact pooled (.inl free)
    · by_cases same : p = q
      · rw [← same] at held; exact pooled (.inr held)
      · exact .inr ⟨q, by rw [there q same]; exact held⟩
  · rw [pos] at isOpen ⊢
    by_cases same : p = q
    · rw [if_pos same] at isOpen ⊢
      rw [← same, here]; exact opened isOpen
    · rw [if_neg same] at isOpen ⊢
      rw [there q same]; exact full q isOpen
  · rw [pos] at shut
    by_cases same : p = q
    · rw [if_pos same] at shut
      rw [← same, here]; exact closed shut
    · rw [if_neg same] at shut
      rw [there q same]; exact empty q shut

/-- Allocation (R64): the first free segments join the end of the list. -/
theorem State.segmentsSound_allocated {s t : State} (sound : s.segmentsSound) {p : Fin 64} {x : Position} {c : Canceller}
    {n : Nat} (record : t.positions = s.positions.put p x) (canceller : t.echo.positions = s.echo.positions.put p c)
    (list : c.segments = s.segments p ++ s.echo.free.take n) (free : t.echo.free = s.echo.free.drop n)
    (enough : n ≤ s.echo.free.length) (isOpen : x.state ≠ .closed) (tail : (s.segments p).length + n = x.tail) :
    t.segmentsSound := by
  have ⟨ascending, each, unfree, _⟩ := sound
  have once : s.echo.free.Nodup := ascending.imp Fin.ne_of_lt
  have split : ∀ g, g ∈ s.echo.free ↔ g ∈ s.echo.free.take n ∨ g ∈ s.echo.free.drop n := fun g => by
    rw [← List.mem_append, List.take_append_drop]
  refine State.segmentsSound_exchange sound record canceller ?_ ?_ (fun g => ?_) (fun g held => ?_) (fun _ => ?_)
    (absurd · isOpen)
  · rw [free]
    exact ascending.drop
  · rw [list]
    exact (each p).append once.take fun g held taken => unfree p g held (List.mem_of_mem_take taken)
  · rw [free, list, List.mem_append, split g]
    tauto
  · rw [list, List.mem_append] at held
    rw [free]
    rcases held with held | taken
    · exact fun left => unfree p g held (List.mem_of_mem_drop left)
    · exact List.disjoint_take_drop once (Nat.le_refl n) taken
  · rw [list, List.length_append, List.length_take, Nat.min_eq_left enough, tail]

/-- Return (R65): the list keeps its first `n` segments, and the rest join the pool. -/
theorem State.segmentsSound_returned {s t : State} (sound : s.segmentsSound) {p : Fin 64} {x : Position} {c : Canceller}
    {n : Nat} (record : t.positions = s.positions.put p x) (canceller : t.echo.positions = s.echo.positions.put p c)
    (list : c.segments = (s.segments p).take n)
    (free : t.echo.free = segmentSet fun g => g ∈ s.echo.free || g ∈ (s.segments p).drop n)
    (opened : x.state ≠ .closed → ((s.segments p).take n).length = x.tail)
    (closed : x.state = .closed → (s.segments p).take n = []) : t.segmentsSound := by
  have ⟨_, each, unfree, _⟩ := sound
  have split : ∀ g, g ∈ s.segments p ↔ g ∈ (s.segments p).take n ∨ g ∈ (s.segments p).drop n := fun g => by
    rw [← List.mem_append, List.take_append_drop]
  have pool : ∀ g, g ∈ t.echo.free ↔ g ∈ s.echo.free ∨ g ∈ (s.segments p).drop n := fun g => by
    rw [free, mem_segmentSet, Bool.or_eq_true, decide_eq_true_iff, decide_eq_true_iff]
  refine State.segmentsSound_exchange sound record canceller ?_ ?_ (fun g => ?_) (fun g held => ?_)
    (fun h => (congrArg List.length list).trans (opened h)) fun h => list.trans (closed h)
  · rw [free]
    exact segmentSet_ascending _
  · rw [list]
    exact (each p).take
  · rw [pool, list, split g]
    tauto
  · rw [list] at held
    rw [pool]
    rintro (before | returned)
    · exact unfree p g (List.mem_of_mem_take held) before
    · exact List.disjoint_take_drop (each p) (Nat.le_refl n) held returned

/-! ## Position requests (R24, R25, R27, R30, R35) -/

theorem State.openAccepted_segmentsSound {s : State} (sound : s.segmentsSound) (port : Port) {p : Fin 64} (slot : Fin 64)
    {tail : Nat} (profile : Fin 4) (closed : (s.pos p).state = .closed) (enough : tail ≤ s.echo.free.length) :
    (s.openAccepted port p slot tail profile).segmentsSound := by
  have ⟨_, _, _, _, _, _, empty⟩ := sound
  rw [State.openAccepted_eq]
  refine State.segmentsSound_of_touches ?_ (State.answer_touches _ port .ok []) (by decide) (by decide)
  refine State.segmentsSound_allocated sound (t := s.openEffect port p slot tail profile) rfl rfl ?_ rfl enough
    (by simp [Position.opened]) ?_
  · rw [empty p closed]
    rfl
  · rw [empty p closed]
    exact Nat.zero_add tail

theorem State.closing_segmentsSound {s : State} (sound : s.segmentsSound) {cause : FlushCause} (other : cause ≠ .cancel)
    (p : Fin 64) : (s.closing p cause).segmentsSound := by
  have echo := s.closing_echo other p
  exact State.segmentsSound_returned sound (n := 0) (c := Canceller.zeroed []) (s.closing_positions other p) (by rw [echo])
    rfl (by rw [echo]; rfl) (absurd rfl ·) fun _ => rfl

/-- A record replaced by one that is open as before, and of the same tail, with the lists as they were. -/
theorem PoolKept.of_record {s t : State} {p : Fin 64} {x : Position} (record : ∀ q, t.pos q = if p = q then x else s.pos q)
    (free : t.echo.free = s.echo.free) (segments : ∀ q, t.segments q = s.segments q)
    (before : (s.pos p).state ≠ .closed) (after : x.state ≠ .closed) (tail : x.tail = (s.pos p).tail) : PoolKept s t where
  free := free
  segments := segments
  closed q := by
    rw [record]
    split
    · next same => rw [← same]; exact iff_of_false after before
    · rfl
  tail q := by
    rw [record]
    split
    · next same => rw [← same]; exact tail
    · rfl

theorem State.releasing_poolKept {s : State} {cause : FlushCause} (other : cause ≠ .cancel) {p : Fin 64}
    (isOpen : (s.pos p).state ≠ .closed) : PoolKept s (s.releasing p cause) := by
  have echo : (s.releasing p cause).echo = s.echo := s.releasing_releaseParts other p .echo (by decide)
  exact .of_record (s.releasing_pos other p) (congrArg Echo.free echo)
    (fun q => congrArg (fun e : Echo => (e.positions.cell q).segments) echo) isOpen (by simp [Position.released]) rfl

theorem State.connecting_poolKept {s : State} {p : Fin 64} (t : Fin 64) {state : PositionState} (stream : Option (Fin 16))
    (before : (s.pos p).state ≠ .closed) (after : state ≠ .closed) : PoolKept s (s.connecting p t state stream) := by
  have echo := s.connecting_echo p t state stream
  refine .of_record (fun q => s.connecting_pos p t q state stream) (by rw [echo]) (fun q => ?_) before after rfl
  unfold State.segments State.canceller
  rw [echo]
  dsimp only
  rw [Table.cell_put]
  split
  · next same => rw [← same]; rfl
  · rfl

theorem State.connect_segmentsSound {s : State} (sound : s.segmentsSound) (port : Port) {p : Fin 64} (t : Fin 64)
    (prompt : Option PromptArg) (stream : Option (Fin 16)) (isOpen : (s.pos p).state ≠ .closed) :
    (s.connect port p t prompt stream).segmentsSound := by
  have replied : ∀ {u : State} {status payload}, u.segmentsSound → (u.answer port status payload).segmentsSound := fun hu =>
    State.segmentsSound_of_touches hu (State.answer_touches _ port _ _) (by decide) (by decide)
  have linked : ∀ {state : PositionState} {stream}, state ≠ .closed → (s.connecting p t state stream).segmentsSound :=
    fun after => State.segmentsSound_of_kept sound (State.connecting_poolKept t _ isOpen after)
  refine State.connect_keeps (P := State.segmentsSound) (fun _ => replied sound) (fun kinds c i => ?_)
    (fun _ => replied (linked (by decide))) fun x _ => replied ?_
  · exact State.segmentsSound_of_touches sound (s.refuseFault_touches port kinds c i _) (by decide) (by decide)
  · exact State.segmentsSound_of_touches (linked (by decide)) (State.queueEntry_touches _ p port _ _) (by decide) (by decide)

theorem State.tailAccepted_echo (s : State) (port : Port) (p : Fin 64) (tail : Nat) :
    (s.tailAccepted port p tail).echo = s.tailEcho p tail := by
  unfold State.tailAccepted State.tailEcho
  dsimp only
  split
  · rfl
  · split
    · rfl
    · rfl

/-- SET TAIL takes what a larger tail needs, or returns what a smaller one leaves over (R35). -/
theorem State.tailAccepted_segmentsSound {s : State} (sound : s.segmentsSound) (port : Port) {p : Fin 64} {tail : Nat}
    (isOpen : (s.pos p).state ≠ .closed) (enough : tail - (s.pos p).tail ≤ s.echo.free.length) :
    (s.tailAccepted port p tail).segmentsSound := by
  have ⟨_, _, _, _, _, lengths, _⟩ := sound
  have full : (s.segments p).length = (s.pos p).tail := lengths p isOpen
  have record := s.tailAccepted_positions port p tail
  have echo := s.tailAccepted_echo port p tail
  unfold State.tailEcho at echo
  by_cases larger : (s.pos p).tail < tail
  · rw [if_pos larger] at echo
    exact State.segmentsSound_allocated sound record (by rw [echo]; rfl) rfl (by rw [echo]; rfl) enough isOpen
      (by rw [full]; exact Nat.add_sub_of_le larger.le)
  · rw [if_neg larger] at echo
    by_cases smaller : tail < (s.pos p).tail
    · rw [if_pos smaller] at echo
      refine State.segmentsSound_returned sound record (by rw [echo]; rfl) rfl (by rw [echo]; rfl) (fun _ => ?_)
        (absurd · isOpen)
      rw [List.length_take, full]
      exact Nat.min_eq_left smaller.le
    · rw [if_neg smaller] at echo
      refine State.segmentsSound_of_kept sound (.of_records echo (s.tailAccepted_slotsKept port p tail) fun q => ?_)
      unfold State.pos
      rw [record, Table.cell_put]
      split
      · next same => rw [← same]; exact Nat.le_antisymm (Nat.not_lt.mp larger) (Nat.not_lt.mp smaller)
      · rfl

/-! ## RESET PORT (R41, R42, R176) -/

theorem State.tearDown_segmentsSound {s : State} (sound : s.segmentsSound) (p : Fin 64) : (s.tearDown p).segmentsSound := by
  unfold State.tearDown
  split
  · next called =>
    have isOpen : (s.pos p).state ≠ .closed := fun closed => by
      rw [closed] at called
      exact nomatch called
    exact State.closing_segmentsSound (State.segmentsSound_of_kept sound (State.releasing_poolKept (by decide) isOpen))
      (by decide) p
  · exact State.closing_segmentsSound sound (by decide) p

theorem State.resetTeardown_segmentsSound {s : State} (sound : s.segmentsSound) (port : Port) :
    (s.resetTeardown port).segmentsSound := by
  have kept : ∀ {u v : State} {parts : List Part}, u.segmentsSound → Touches parts u v → .echo ∉ parts → SlotsKept u v →
      SettingsKept u v → v.segmentsSound := fun hu touched echo slots settings =>
    State.segmentsSound_of_kept hu (.of_records (touched .echo echo) slots settings.tail)
  refine State.resetTeardown_keeps (P := State.segmentsSound) ?_ ?_ ?_ ?_ ?_ ?_ ?_ sound
  · exact fun t p ht => kept ht (t.inherit_touches port p) (by decide) (t.inherit_slotsKept port p)
      (t.inherit_settingsKept port p)
  · exact fun t ht => kept ht (t.clearOffersTo_touches port) (by decide) (t.clearOffersTo_slotsKept port)
      (t.clearOffersTo_settingsKept port)
  · exact fun t p ht => State.tearDown_segmentsSound ht p
  · exact fun t k ht => kept ht (t.resetStream_touches k) (by decide) (t.resetStream_slotsKept k)
      (t.resetStream_settingsKept k)
  · exact fun t p ht => kept ht (t.flush_touches p _ _) (by decide) (t.flush_slotsKept p _ _) (t.flush_settingsKept p _ _)
  · exact fun t ht => State.segmentsSound_of_touches ht t.assignPlayers_touches (by decide) (by decide)
  · exact fun t u touched _ ht => State.segmentsSound_of_touches ht touched (by decide) (by decide)

/-! ## Every command -/

/-- The tail of a position changes only where the canceller's segments do (R24, R35, R42). -/
theorem exec_tail {c : Instr} {s t : State} (h : exec c s = .next t) (echo : .echo ∉ commandParts c) (p : Fin 64) :
    (t.pos p).tail = (s.pos p).tail := by
  by_cases keeps : setsParameters c = false
  · exact (exec_settingsKept h keeps).tail p
  cases c with
  | setPosition port position params =>
    refine exec_request_keeps (P := fun u => (u.pos p).tail = (s.pos p).tail) h rfl (fun _ _ same => same) fun u same => ?_
    split
    · refine State.checked_keeps (P := fun u => (u.pos p).tail = (s.pos p).tail) (fun _ => same) fun _ => Eq.trans ?_ same
      unfold State.pos
      rw [State.setAccepted_positions, Table.cell_put]
      split
      · next here => rw [← here]; rfl
      · rfl
    · exact same
  | pinReset | openPosition | closePosition | resetPort | setTail => exact absurd (by simp [commandParts, closeParts]) echo
  | _ => exact absurd rfl keeps

/-- A command that changes records and leaves the canceller alone binds no timeslot either. -/
theorem commandParts_of_records {c : Instr} (positions : .positions ∈ commandParts c) (echo : .echo ∉ commandParts c) :
    .highway ∉ commandParts c ∧ .phase ∉ commandParts c := by
  cases c <;> simp_all [commandParts, frameParts, closeParts, grantParts]

/-- A command that leaves the canceller alone neither opens nor closes a position. -/
theorem exec_poolKept {c : Instr} {s t : State} (h : exec c s = .next t) (echo : .echo ∉ commandParts c) : PoolKept s t := by
  by_cases positions : .positions ∈ commandParts c
  · obtain ⟨highway, phase⟩ := commandParts_of_records positions echo
    exact .of_records (exec_touches h .echo echo) (exec_slotsKept h highway phase) (exec_tail h echo)
  · exact .of_touches (exec_touches h) echo positions

theorem State.checked_segmentsSound {s : State} (sound : s.segmentsSound) {p : Port} {checks : List (Bool × Status)}
    {effect : State → State} (passed : (∀ c ∈ checks, c.1 = false) → (effect s).segmentsSound) :
    (s.checked p checks effect).segmentsSound :=
  State.checked_keeps (fun _ => sound) fun none => passed (firstRefusal_eq_none.mp none)

/-- The assignment of players and the reply are no business of the pool's. -/
theorem State.assigned_segmentsSound {u : State} (sound : u.segmentsSound) (port : Port) :
    (u.assignPlayers.answer port .ok []).segmentsSound :=
  State.segmentsSound_of_touches sound (u.assigned_answer_touches port .ok []) (by decide) (by decide)

theorem exec_segmentsSound {c : Instr} {s t : State} (sound : s.segmentsSound) (h : exec c s = .next t) : t.segmentsSound := by
  by_cases spared : .echo ∉ commandParts c
  · exact State.segmentsSound_of_kept sound (exec_poolKept h spared)
  have request := fun {p code body} (h : (Host.Outcome.next (s.request p code body) : Host.Outcome State Fault Refusal)
    = .next t) => exec_request_keeps (P := State.segmentsSound) h sound fun _ _ hu => hu
  have settled := State.settle_segmentsSound sound
  cases c with
  | pinReset => cases h; exact reset_segmentsSound
  | cycle trunkRx agentRx agentSig =>
    obtain e | ⟨-, e⟩ := cycle_next h <;> rw [e]
    · exact sound
    · exact State.segmentsSound_of_touches settled (State.cycled_touches _ _ _ _) (by decide) (by decide)
  | frameCompletion =>
    cases h
    split
    · exact settled
    · exact sound
  | syncLossMissingPulse =>
    obtain e | e := syncLossMissingPulse_next h <;> rw [e]
    · exact sound
    · exact State.segmentsSound_of_touches settled (State.loseSync_touches _ _ _) (by decide) (by decide)
  | fsPulse bit =>
    obtain e | ⟨-, e⟩ := fsPulse_next h <;> rw [e]
    · exact sound
    · exact State.segmentsSound_of_touches settled (State.pulsed_touches _ bit) (by decide) (by decide)
  | resetPort port => exact request h fun u hu => State.resetTeardown_segmentsSound hu port
  | openPosition port position slot tail profile =>
    refine request h fun u hu => ?_
    split
    · refine State.checked_segmentsSound hu fun passed => ?_
      simp only [List.forall_mem_cons, decide_eq_false_iff_not, not_not, Nat.not_lt] at passed
      obtain ⟨-, -, closed, -, enough, -⟩ := passed
      exact State.openAccepted_segmentsSound hu port _ _ closed enough
    · exact hu
  | closePosition port position =>
    exact request h fun u hu => State.withNumber_keeps (fun _ => hu) fun p => State.checked_segmentsSound hu fun _ =>
      State.assigned_segmentsSound (State.closing_segmentsSound hu (by decide) p) port
  | connect port position trunk prompt stream =>
    refine request h fun u hu => ?_
    split
    · refine State.checked_segmentsSound hu fun passed => ?_
      simp only [List.forall_mem_cons, decide_eq_false_iff_not] at passed
      obtain ⟨isOpen, -⟩ := passed
      exact State.connect_segmentsSound hu port _ _ _ isOpen
    · exact hu
  | release port position =>
    refine request h fun u hu => State.withNumber_keeps (fun _ => hu) fun p => State.checked_segmentsSound hu fun passed => ?_
    simp only [List.forall_mem_cons, decide_eq_false_iff_not] at passed
    obtain ⟨isOpen, -⟩ := passed
    exact State.assigned_segmentsSound (State.segmentsSound_of_kept hu (State.releasing_poolKept (by decide) isOpen)) port
  | setTail port position tail =>
    refine request h fun u hu => State.withNumber_keeps (fun _ => hu) fun p => State.checked_segmentsSound hu fun _ =>
      State.checked_segmentsSound hu fun passed => ?_
    simp only [List.forall_mem_cons, decide_eq_false_iff_not, Nat.not_lt] at passed
    obtain ⟨isOpen, -, -, enough, -⟩ := passed
    exact State.tailAccepted_segmentsSound hu port isOpen enough
  | _ => exact absurd (by simp [commandParts, grantParts]) spared

/-- Settles O55: every command keeps the pool and the lists apart, and the queue of commands is no part of them. -/
theorem segmentsStaySound : Obligations.SegmentsStaySound := by
  intro s t sound h
  unfold step at h
  split at h
  · cases h; exact sound
  · next c rest _ => exact exec_segmentsSound (s := { s with pending := rest }) sound h

end Sys2Proof.Machine
end

section
/-! PROOFS. One sample of the echo canceller: the history, the power and the window maximum, the estimate and the error, the
double-talk test, and the update of the taps (R69 to R74, R78, R79). -/

namespace Sys2Proof.Machine

/-! ## The window maximum (R69) -/

theorem peak_append (l : List Int) (x : Int) : peak (l ++ [x]) = max (peak l) x.natAbs := List.foldl_append ..

/-- The window maximum is no less than any magnitude of the window. -/
theorem natAbs_le_peak {l : List Int} {x : Int} (member : x ∈ l) : x.natAbs ≤ peak l := by
  induction l using List.reverseRecOn with
  | nil => exact nomatch member
  | append_singleton l y ih =>
    rw [peak_append]
    rcases List.mem_append.mp member with earlier | last
    · exact (ih earlier).trans (Nat.le_max_left _ _)
    · rw [List.mem_singleton.mp last]
      exact Nat.le_max_right _ _

/-- The window maximum is the magnitude of a sample of the window. -/
theorem exists_natAbs_eq_peak {l : List Int} (nonempty : l ≠ []) : ∃ x ∈ l, peak l = x.natAbs := by
  induction l using List.reverseRecOn with
  | nil => exact absurd rfl nonempty
  | append_singleton l y ih =>
    rw [peak_append]
    rcases Nat.le_total (peak l) y.natAbs with last | earlier
    · exact ⟨y, by simp, Nat.max_eq_right last⟩
    · rw [Nat.max_eq_left earlier]
      by_cases empty : l = []
      · subst empty
        exact ⟨y, by simp, Nat.le_antisymm (Nat.zero_le _) earlier⟩
      · obtain ⟨x, member, same⟩ := ih empty
        exact ⟨x, List.mem_append_left _ member, same⟩

/-- The newest `n` entries of a history, one by one. -/
theorem mem_take_iff_getD {l : List Int} {n : Nat} (short : n ≤ l.length) (x : Int) :
    x ∈ l.take n ↔ ∃ k < n, l.getD k 0 = x := by
  rw [List.mem_take_iff_getElem]
  constructor
  · rintro ⟨k, inside, same⟩
    exact ⟨k, by omega, by rw [List.getD_eq_getElem _ _ (by omega)]; exact same⟩
  · rintro ⟨k, inside, same⟩
    rw [List.getD_eq_getElem _ _ (by omega)] at same
    exact ⟨k, by omega, same⟩

/-! ## The steps of a sample -/

theorem EchoRun.enter_taps (r : EchoRun) (x : Int) : (r.enter x).taps = r.taps := rfl

/-- R69: the power gains the square of the sample that enters and loses that of the one that leaves the window. -/
theorem EchoRun.enter_power {r : EchoRun} (taps : 1 ≤ r.taps.length) (x : Int) : (r.enter x).power
    = r.power + x.natAbs ^ 2 - (r.history.getD (r.taps.length - 1) 0).natAbs ^ 2 := by
  show r.power + x.natAbs * x.natAbs - (if r.taps.length = 0 then x else r.history.getD (r.taps.length - 1) 0).natAbs
    * (if r.taps.length = 0 then x else r.history.getD (r.taps.length - 1) 0).natAbs = _
  rw [if_neg (Nat.ne_of_gt taps), Nat.pow_two, Nat.pow_two]

/-- R72: the test changes the hangover only, and not in BYPASS. -/
theorem EchoRun.doubleTalk_eq (r : EchoRun) (mode : EcMode) (hang : Nat) (d : Int) : r.doubleTalk mode hang d
    = { r with hangover := if mode ≠ .bypass ∧ r.window / 2 < d.natAbs then hang else r.hangover } := by
  have half : r.window >>> 1 = r.window / 2 := Nat.shiftRight_one _
  unfold EchoRun.doubleTalk
  rw [half]
  cases mode with
  | bypass => simp
  | adapt => by_cases loud : r.window / 2 < d.natAbs <;> simp [loud]
  | frozen => by_cases loud : r.window / 2 < d.natAbs <;> simp [loud]

/-- R73: without permission, or while the hangover runs, nothing is adapted. -/
theorem EchoRun.adapt_of_held {r : EchoRun} {allowed : Bool} (held : ¬(allowed = true ∧ r.hangover = 0)) (reg step : Nat)
    (e : Int) : r.adapt allowed reg step e = r := by
  unfold EchoRun.adapt
  rw [if_neg (by simpa using held)]

/-- R74: every tap is updated from its own value and the history entry beside it. -/
theorem EchoRun.adapt_of_allowed {r : EchoRun} {allowed : Bool} (permitted : allowed = true) (quiet : r.hangover = 0)
    (reg step : Nat) (e : Int) : r.adapt allowed reg step e
      = { r with taps := List.zipWith (fun h x => adaptTap (adaptShift r.power reg step) e x h) r.taps r.history } := by
  unfold EchoRun.adapt
  rw [if_pos (by simp [permitted, quiet])]

/-- Adaptation changes the taps only. -/
theorem EchoRun.adapt_eq (r : EchoRun) (allowed : Bool) (reg step : Nat) (e : Int) :
    r.adapt allowed reg step e = { r with taps := (r.adapt allowed reg step e).taps } := by
  by_cases update : allowed = true ∧ r.hangover = 0
  · rw [EchoRun.adapt_of_allowed update.1 update.2]
  · rw [EchoRun.adapt_of_held update]

/-- R70, R79: the estimate, as a rounded division. -/
theorem EchoRun.estimate_eq (r : EchoRun) (mode : EcMode) : r.estimate mode
    = if mode = .bypass then 0 else saturate (((List.zipWith (· * ·) r.taps r.history).sum + 2 ^ 14) / 2 ^ 15) := by
  have rounded : echoEstimate r.taps r.history
      = saturate (((List.zipWith (· * ·) r.taps r.history).sum + 2 ^ 14) / 2 ^ 15) := by
    unfold echoEstimate
    rw [shiftRight_eq_div]
    rfl
  cases mode with
  | bypass => rfl
  | adapt => exact rounded
  | frozen => exact rounded

/-! ## One sample (R69 to R74) -/

section
variable (rec : Position) (allowed : Bool) (r : EchoRun) (d x : Int)

/-- The error of a sample (R71). -/
def EchoRun.errorOf : Int := saturate (d - (r.enter x).estimate rec.mode)

/-- A run once the double-talk test of a sample has been made. -/
def EchoRun.tested : EchoRun := (r.enter x).doubleTalk rec.mode rec.hang d

theorem EchoRun.sample_eq : r.sample rec allowed (d, x) =
    { (r.tested rec d x).adapt allowed rec.reg rec.step (r.errorOf rec d x) with
      errors := ((r.tested rec d x).adapt allowed rec.reg rec.step (r.errorOf rec d x)).errors ++ [r.errorOf rec d x] } := rfl

/-- Everything but the taps after a sample. -/
theorem EchoRun.sample_fields : r.sample rec allowed (d, x) = {
    history := (r.enter x).history
    power := (r.enter x).power
    window := (r.enter x).window
    hangover := if rec.mode ≠ .bypass ∧ (r.enter x).window / 2 < d.natAbs then rec.hang else r.hangover
    taps := (r.sample rec allowed (d, x)).taps
    errors := r.errors ++ [r.errorOf rec d x] } := by
  rw [EchoRun.sample_eq, EchoRun.adapt_eq]
  unfold EchoRun.tested
  rw [EchoRun.doubleTalk_eq]
  rfl

theorem EchoRun.sample_history : (r.sample rec allowed (d, x)).history = x :: r.history.take 511 := by
  rw [EchoRun.sample_fields]
  rfl

theorem EchoRun.sample_power : (r.sample rec allowed (d, x)).power = (r.enter x).power := by
  rw [EchoRun.sample_fields]

theorem EchoRun.sample_window :
    (r.sample rec allowed (d, x)).window = peak ((r.sample rec allowed (d, x)).history.take r.taps.length) := by
  rw [EchoRun.sample_fields]
  rfl

theorem EchoRun.sample_hangover : (r.sample rec allowed (d, x)).hangover
    = if rec.mode ≠ .bypass ∧ (r.sample rec allowed (d, x)).window / 2 < d.natAbs then rec.hang else r.hangover := by
  rw [EchoRun.sample_fields]

theorem EchoRun.sample_errors : (r.sample rec allowed (d, x)).errors = r.errors ++ [r.errorOf rec d x] := by
  rw [EchoRun.sample_fields]

theorem EchoRun.tested_hangover : (r.tested rec d x).hangover = (r.sample rec allowed (d, x)).hangover := by
  unfold EchoRun.tested
  rw [EchoRun.doubleTalk_eq, EchoRun.sample_fields]
  rfl

theorem EchoRun.sample_taps_held (held : ¬(allowed = true ∧ (r.sample rec allowed (d, x)).hangover = 0)) :
    (r.sample rec allowed (d, x)).taps = r.taps := by
  rw [← EchoRun.tested_hangover] at held
  rw [EchoRun.sample_eq, EchoRun.adapt_of_held held]
  unfold EchoRun.tested
  rw [EchoRun.doubleTalk_eq]
  rfl

theorem EchoRun.sample_taps_adapted (permitted : allowed = true) (quiet : (r.sample rec allowed (d, x)).hangover = 0) :
    (r.sample rec allowed (d, x)).taps = List.zipWith
      (fun h x' => adaptTap (adaptShift (r.sample rec allowed (d, x)).power rec.reg rec.step) (r.errorOf rec d x) x' h)
      r.taps (r.sample rec allowed (d, x)).history := by
  have power : (r.tested rec d x).power = (r.sample rec allowed (d, x)).power := by
    unfold EchoRun.tested
    rw [EchoRun.doubleTalk_eq, EchoRun.sample_fields]
  rw [← power, EchoRun.sample_history]
  rw [← EchoRun.tested_hangover] at quiet
  rw [EchoRun.sample_eq, EchoRun.adapt_of_allowed permitted quiet]
  unfold EchoRun.tested
  rw [EchoRun.doubleTalk_eq]
  rfl

end

/-- The entries of a table of taps updated one by one. -/
theorem getD_zipWith {f : Int → Int → Int} {l m : List Int} {k : Nat} (left : k < l.length) (right : k < m.length) :
    (List.zipWith f l m).getD k 0 = f (l.getD k 0) (m.getD k 0) := by
  rw [List.getD_eq_getElem _ _ (by rw [List.length_zipWith]; omega), List.getD_eq_getElem _ _ left,
    List.getD_eq_getElem _ _ right, List.getElem_zipWith]

/-- Settles O21: the sample enters the history first, and the estimate, the test and the update read what stands then. -/
theorem echoSample : Obligations.EchoSample := by
  intro rec allowed r d x full least most L after bypass y e t
  have history : after.history = x :: r.history.take 511 := r.sample_history rec allowed d x
  have length : after.history.length = 512 := (r.sample_lengths rec allowed (d, x) most full).2
  have window : after.window = peak (after.history.take L) := r.sample_window rec allowed d x
  have newest := fun v => mem_take_iff_getD (l := after.history) (n := L) (by omega) v
  have error : r.errorOf rec d x = e := by
    have entered : (r.enter x).history = after.history := history.symm
    unfold EchoRun.errorOf
    rw [EchoRun.estimate_eq, entered, EchoRun.enter_taps]
  refine ⟨history, ?_, fun k inside => ?_, ?_, ?_, ?_, r.sample_taps_held rec allowed d x, fun permitted quiet => ?_⟩
  · exact (r.sample_power rec allowed d x).trans (r.enter_power least x)
  · rw [window]
    exact natAbs_le_peak ((newest _).mpr ⟨k, inside, rfl⟩)
  · have nonempty : after.history.take L ≠ [] := List.ne_nil_of_length_pos (by rw [List.length_take]; omega)
    obtain ⟨v, member, same⟩ := exists_natAbs_eq_peak nonempty
    obtain ⟨k, inside, rfl⟩ := (newest v).mp member
    exact ⟨k, inside, window.trans same⟩
  · rw [← error]
    exact r.sample_errors rec allowed d x
  · exact r.sample_hangover rec allowed d x
  · have taps := r.sample_taps_adapted rec allowed d x permitted quiet
    rw [error] at taps
    refine ⟨(r.sample_lengths rec allowed (d, x) most full).1, fun _ k inside => ?_⟩
    show (r.sample rec allowed (d, x)).taps.getD k 0 = _
    rw [taps, getD_zipWith inside (inside.trans_le (most.trans length.ge))]
    unfold adaptTap
    rw [shiftRight_eq_div]
    rfl

/-- Settles O22: the sum of the squares of the newest entries follows the sample that enters and the one that leaves. -/
theorem echoPowerIsExact : Obligations.EchoPowerIsExact := by
  rintro rec allowed r ⟨d, x⟩ full least most power after
  obtain ⟨taps, length⟩ := r.sample_lengths rec allowed (d, x) most full
  refine ⟨length, taps, ?_⟩
  have short : r.taps.length - 1 < r.history.length := by omega
  have entered := squares_enter x short
  rw [Nat.sub_add_cancel least] at entered
  calc after.power = (r.enter x).power := r.sample_power rec allowed d x
    _ = r.power + x.natAbs ^ 2 - (r.history.getD (r.taps.length - 1) 0).natAbs ^ 2 := r.enter_power least x
    _ = squares ((x :: r.history).take r.taps.length) := by
      rw [entered, power, Nat.pow_two, Nat.pow_two]
      rfl
    _ = squares (after.history.take after.taps.length) := by
      rw [taps, EchoRun.sample_history, ← List.take_succ_cons, List.take_take, Nat.min_eq_left most]

end Sys2Proof.Machine
end

section
/-! PROOFS. The echo canceller at a frame completion: the frames it takes, its run, what the divergence guard and the NLP do,
and what BYPASS leaves (R55, R63, R67, R68, R73, R75 to R77, R79). -/

namespace Sys2Proof.Machine

/-! ## What a frame takes (R4, R55, R67) -/

theorem State.sentSpeech_iff (s : State) (p : Fin 64) : s.sentSpeech p = true ↔ (s.suppressor p).speech = true
    ∧ (s.suppressor p).wasConnected = true ∧ s.highway.firstFrame = false := by
  unfold State.sentSpeech
  simp only [Bool.and_eq_true, Bool.not_eq_true', and_assoc]

theorem State.trunkLine_eq {s : State} {p u : Fin 64} {l : TrunkLine} (slot : (s.pos p).trunkSlot = some u)
    (line : s.highway.trunk.cell u = some l) : s.trunkLine p = some l := by
  unfold State.trunkLine
  rw [slot]
  exact line

/-- A trunk timeslot that assembled a frame hands over what it received and what was sent on it. -/
theorem State.echoInput_of_heard {s : State} {p : Fin 64} {l : TrunkLine} {codes : List Byte} (line : s.trunkLine p = some l)
    (received : l.line.received = some codes) (whole : codes.length = 32) : s.echoInput p
      = (Table.ofList 32 0 (codes.map (expand s.law)), Table.ofList 32 0 (l.sent.map (expand s.law))) := by
  have handed := (heard_eq_some_iff s.law l.line.received _).mpr ⟨codes, received, whole, rfl⟩
  unfold State.echoInput State.lineFrames
  rw [line]
  dsimp only
  rw [handed]
  rfl

/-- A trunk timeslot that assembled none makes the canceller run with zeros. -/
theorem State.echoInput_of_unheard {s : State} {p : Fin 64} {l : TrunkLine} (line : s.trunkLine p = some l)
    (received : l.line.received = none) : s.echoInput p = (Table.fill 32 0, Table.fill 32 0) := by
  unfold State.echoInput State.lineFrames
  rw [line]
  dsimp only
  rw [received]
  rfl

/-! ## The run (R68, R73) -/

/-- R73's conditions on a whole frame, as one test. -/
theorem State.adaptAllowed_eq (s : State) (p : Fin 64) :
    ((s.pos p).mode = .adapt && s.connected p && s.sentSpeech p)
      = decide ((s.pos p).mode = .adapt ∧ (s.pos p).state = .connected ∧ s.sentSpeech p = true) := by
  unfold State.connected
  simp [Bool.and_assoc]

theorem State.echoSamples_eq (s : State) (p : Fin 64) : s.echoSamples p
    = (List.zip (s.echoInput p).1.toList (s.echoInput p).2.toList).foldl
        (EchoRun.sample (s.pos p)
          (decide ((s.pos p).mode = .adapt ∧ (s.pos p).state = .connected ∧ s.sentSpeech p = true)))
        ⟨(s.canceller p).history.toList, (s.canceller p).power, (s.canceller p).window,
          if (s.pos p).mode = .bypass then 0 else (s.canceller p).hangover, s.taps p, []⟩ := by
  rw [← State.adaptAllowed_eq]
  rfl

theorem State.echoSamples_taps_length {s : State} {p : Fin 64} (most : (s.segments p).length ≤ 4) :
    (s.echoSamples p).taps.length = 128 * (s.segments p).length := by
  have taps := s.taps_length p
  rw [← taps]
  exact EchoRun.fold_taps_length _ _ _ _ (by dsimp only; omega) Vector.length_toList

/-! ## The guard and the NLP (R75 to R77) -/

/-- The guard and the NLP work in CONNECTED, and not in BYPASS. -/
def State.echoActive (s : State) (p : Fin 64) : Prop := (s.pos p).state = .connected ∧ (s.pos p).mode ≠ .bypass

/-- R76's comparison of the frame energies. -/
def State.echoDiverges (s : State) (p : Fin 64) : Prop :=
  s.echoActive p ∧ 4 * frameEnergy (s.echoInput p).1 < energyOf (s.echoSamples p).errors
    ∧ 2 ^ 16 ≤ frameEnergy (s.echoInput p).1

/-- R77's conditions. -/
def State.nlpActs (s : State) (p : Fin 64) : Prop :=
  s.echoActive p ∧ (s.pos p).nlp = true ∧ s.sentSpeech p = true ∧ (s.echoSamples p).hangover = 0
    ∧ energyOf (s.echoSamples p).errors < frameEnergy (s.echoInput p).2 / 2 ^ (s.pos p).shift

theorem State.echoActive_iff (s : State) (p : Fin 64) :
    (s.connected p && decide ((s.pos p).mode ≠ .bypass)) = true ↔ s.echoActive p := by
  unfold State.connected State.echoActive
  rw [Bool.and_eq_true, decide_eq_true_iff, decide_eq_true_iff]

theorem State.echoFrame_acts_iff (s : State) (p : Fin 64) : (s.echoFrame p).acts = true ↔ s.nlpActs p := by
  unfold State.nlpActs
  rw [← State.echoActive_iff, ← Nat.shiftRight_eq_div_pow]
  unfold State.echoFrame
  simp only [Bool.and_eq_true, decide_eq_true_iff, and_assoc]

theorem State.echoFrame_talk_iff (s : State) (p : Fin 64) :
    (s.echoFrame p).talk = true ↔ (s.pos p).state = .connected ∧ 0 < (s.echoSamples p).hangover := by
  unfold State.echoFrame State.connected
  simp only [Bool.and_eq_true, decide_eq_true_iff]

theorem State.divergence_of_diverges {s : State} {p : Fin 64} (h : s.echoDiverges p) :
    (s.echoFrame p).divergence = (s.canceller p).divergence + 1 := by
  obtain ⟨active, louder, heard⟩ := h
  have guarded := (s.echoActive_iff p).mpr active
  unfold State.echoFrame divergenceAfter
  dsimp only
  rw [guarded, decide_eq_true louder, decide_eq_true (show 65536 ≤ _ from heard)]
  rfl

theorem State.divergence_of_not_diverges {s : State} {p : Fin 64} (h : ¬s.echoDiverges p) : (s.echoFrame p).divergence = 0 := by
  unfold State.echoFrame divergenceAfter
  dsimp only
  refine if_neg fun guarded => h ?_
  rw [Bool.and_eq_true, State.echoActive_iff, Bool.and_eq_true, decide_eq_true_iff, decide_eq_true_iff] at guarded
  exact guarded

/-- The guard acts when the fourth frame in a row diverges (R76). -/
theorem State.echoFrame_diverged_iff (s : State) (p : Fin 64) :
    (s.echoFrame p).diverged = true ↔ s.echoDiverges p ∧ (s.canceller p).divergence = 3 := by
  unfold EchoFrame.diverged
  rw [decide_eq_true_iff]
  by_cases diverges : s.echoDiverges p
  · rw [State.divergence_of_diverges diverges]
    simp [diverges]
  · rw [State.divergence_of_not_diverges diverges]
    simp [diverges]

/-- The divergence counter a frame leaves (R76). -/
theorem State.afterFrame_divergence {s : State} {p : Fin 64} {diverges fires : Prop} [Decidable diverges] [Decidable fires]
    (diverging : s.echoDiverges p ↔ diverges) (firing : (s.echoFrame p).diverged = true ↔ fires) :
    ((s.canceller p).afterFrame (s.echoFrame p)).divergence
      = if diverges ∧ ¬fires then (s.canceller p).divergence + 1 else 0 := by
  show (if (s.echoFrame p).diverged then 0 else (s.echoFrame p).divergence) = _
  rw [if_congr firing rfl rfl]
  by_cases fire : fires
  · rw [if_pos fire, if_neg fun h => h.2 fire]
  · rw [if_neg fire]
    by_cases more : diverges
    · rw [if_pos ⟨more, fire⟩, State.divergence_of_diverges (diverging.mpr more)]
    · rw [if_neg fun h => more h.1, State.divergence_of_not_diverges fun h => more (diverging.mp h)]

/-! ## What a frame leaves (R63, R75 to R77) -/

theorem State.echo1_of_called {s : State} {p : Fin 64} (called : (s.pos p).state.inCall = true) :
    s.echo1 p = ((s.echoFrame p).clean, s.afterEcho p (s.echoFrame p)) := if_pos called

theorem State.echo1_of_uncalled {s : State} {p : Fin 64} (uncalled : (s.pos p).state.inCall = false) :
    s.echo1 p = (Table.fill 32 0, s) := if_neg (by rw [uncalled]; exact Bool.false_ne_true)

/-- The statistics a frame counts, by what the frame's stages have found (R75 to R77). -/
theorem Stats.afterEcho_eq (x : Stats) {f : EchoFrame} {talk acts fires : Prop} [Decidable talk] [Decidable acts]
    [Decidable fires] (talking : f.talk = true ↔ talk) (acting : f.acts = true ↔ acts) (firing : f.diverged = true ↔ fires) :
    x.afterEcho f = { x with
      doubleTalk := if talk then min 4294967295 (x.doubleTalk + 1) else x.doubleTalk
      nlpFrames := if acts then min 4294967295 (x.nlpFrames + 1) else x.nlpFrames
      echoResets := if fires then min 65535 (x.echoResets + 1) else x.echoResets } := by
  unfold Stats.afterEcho
  rw [if_congr talking rfl rfl, if_congr acting rfl rfl, if_congr firing rfl rfl]
  rfl

theorem State.afterEcho_pos (s : State) (p q : Fin 64) (f : EchoFrame) : (s.afterEcho p f).pos q
    = if p = q then { s.pos p with stats := (s.pos p).stats.afterEcho f } else s.pos q := by
  have positions : (s.afterEcho p f).positions
      = s.positions.put p { s.pos p with stats := (s.pos p).stats.afterEcho f } := by
    unfold State.afterEcho
    dsimp only
    split
    · exact State.fileOwner_touches _ _ _ _ _ .positions (by decide)
    · rfl
  unfold State.pos
  rw [positions, Table.cell_put]
  rfl

theorem State.afterEcho_events_of_diverged {s : State} {f : EchoFrame} (acts : f.diverged = true) (p : Fin 64) :
    (s.afterEcho p f).events = (s.fileOwner (s.pos p).owner .ecReset p.val
      (min 65535 ((s.pos p).stats.echoResets + 1))).events := by
  unfold State.afterEcho
  dsimp only
  rw [if_pos acts, show ((s.pos p).stats.afterEcho f).echoResets = min 65535 ((s.pos p).stats.echoResets + 1) from if_pos acts]
  exact State.fileOwner_events (by rfl) (by rfl) (by rfl) _ _ _ _

theorem State.afterEcho_events_of_not_diverged {s : State} {f : EchoFrame} (rests : f.diverged = false) (p : Fin 64) :
    (s.afterEcho p f).events = s.events := by
  unfold State.afterEcho
  dsimp only
  rw [rests]
  rfl

/-- The taps of a position after a frame are those of its run, or all 0. -/
theorem State.afterEcho_taps {s : State} {p : Fin 64} (once : (s.segments p).Nodup) {f : EchoFrame}
    (length : f.run.taps.length = 128 * (s.segments p).length) : (s.afterEcho p f).taps p = f.tapsAfter := by
  have full : f.tapsAfter.length = 128 * (s.segments p).length := by
    unfold EchoFrame.tapsAfter
    split
    · rw [List.length_map, length]
    · exact length
  unfold State.taps
  rw [State.afterEcho_segments, State.afterEcho_echo]
  exact writeTaps_read _ once _ full _

theorem State.afterEcho_coefficients_other {s : State} {p : Fin 64} (f : EchoFrame) {g : Fin 128} (other : g ∉ s.segments p) :
    (s.afterEcho p f).echo.coefficients.cell g = s.echo.coefficients.cell g := by
  rw [State.afterEcho_echo]
  exact writeTaps_other _ _ _ g other

/-! ## BYPASS (R79) -/

theorem EchoRun.errorOf_of_bypass {rec : Position} (bypass : rec.mode = .bypass) (r : EchoRun) (d x : Int) :
    r.errorOf rec d x = saturate d := by
  unfold EchoRun.errorOf
  rw [bypass]
  exact congrArg saturate (Int.sub_zero d)

/-- In BYPASS a run leaves the hangover and the taps, and its errors are the samples received. -/
theorem EchoRun.samples_of_bypass {rec : Position} (bypass : rec.mode = .bypass) (l : List (Int × Int)) (r : EchoRun) :
    (l.foldl (EchoRun.sample rec false) r).errors = r.errors ++ l.map (fun dx => saturate dx.1)
      ∧ (l.foldl (EchoRun.sample rec false) r).hangover = r.hangover
      ∧ (l.foldl (EchoRun.sample rec false) r).taps = r.taps := by
  induction l generalizing r with
  | nil => exact ⟨(List.append_nil _).symm, rfl, rfl⟩
  | cons dx l ih =>
    obtain ⟨d, x⟩ := dx
    obtain ⟨errors, hangover, taps⟩ := ih (r.sample rec false (d, x))
    refine ⟨errors.trans ?_, hangover.trans ?_, taps.trans ?_⟩
    · rw [EchoRun.sample_errors, EchoRun.errorOf_of_bypass bypass, List.append_assoc]
      rfl
    · rw [EchoRun.sample_hangover, if_neg fun h => h.1 bypass]
    · exact r.sample_taps_held rec false d x fun h => Bool.false_ne_true h.1

theorem Table.ofList_toList {n : Nat} {α : Type} (d : α) (t : Table n α) : Table.ofList n d t.toList = t :=
  Vector.toList_inj.mp (Table.toList_ofList d Vector.length_toList)

/-- The run of a frame in BYPASS. -/
theorem State.echoSamples_of_bypass {s : State} {p : Fin 64} (bypass : (s.pos p).mode = .bypass) :
    (s.echoSamples p).errors = (s.echoInput p).1.toList ∧ (s.echoSamples p).hangover = 0
      ∧ (s.echoSamples p).taps = s.taps p := by
  have held : decide ((s.pos p).mode = .adapt ∧ (s.pos p).state = .connected ∧ s.sentSpeech p = true) = false :=
    decide_eq_false fun h => by
      rw [bypass] at h
      exact nomatch h.1
  obtain ⟨errors, hangover, taps⟩ := EchoRun.samples_of_bypass bypass
    (List.zip (s.echoInput p).1.toList (s.echoInput p).2.toList)
    ⟨(s.canceller p).history.toList, (s.canceller p).power, (s.canceller p).window,
      if (s.pos p).mode = .bypass then 0 else (s.canceller p).hangover, s.taps p, []⟩
  have received : (List.zip (s.echoInput p).1.toList (s.echoInput p).2.toList).map (fun dx => saturate dx.1)
      = (s.echoInput p).1.toList := by
    have firsts : (List.zip (s.echoInput p).1.toList (s.echoInput p).2.toList).map Prod.fst = (s.echoInput p).1.toList :=
      List.map_fst_zip (by rw [Vector.length_toList, Vector.length_toList])
    calc _ = ((List.zip (s.echoInput p).1.toList (s.echoInput p).2.toList).map Prod.fst).map saturate := by
          rw [List.map_map]
          rfl
      _ = (s.echoInput p).1.toList.map saturate := by rw [firsts]
      _ = (s.echoInput p).1.toList.map id := List.map_congr_left fun v member => by
          obtain ⟨i, rfl⟩ := Table.mem_toList.mp member
          obtain ⟨low, high⟩ := s.echoInput_range p i
          exact saturate_of_range low high
      _ = (s.echoInput p).1.toList := List.map_id _
  rw [State.echoSamples_eq, held]
  exact ⟨errors.trans received, hangover.trans (if_pos bypass), taps⟩

/-- A frame in BYPASS passes unchanged, and leaves the taps, the record and no count running. -/
theorem State.echo1_of_bypass {s : State} {p : Fin 64} (called : (s.pos p).state.inCall = true)
    (bypass : (s.pos p).mode = .bypass) : (s.echo1 p).1 = (s.echoInput p).1
      ∧ (s.echo1 p).2.echo.coefficients = s.echo.coefficients ∧ (s.echo1 p).2.pos p = s.pos p
      ∧ ((s.echo1 p).2.canceller p).hangover = 0 ∧ ((s.echo1 p).2.canceller p).divergence = 0 := by
  obtain ⟨errors, hangover, taps⟩ := State.echoSamples_of_bypass bypass
  have inactive : ¬s.echoActive p := fun active => active.2 bypass
  have passes : (s.echoFrame p).acts = false :=
    Bool.eq_false_iff.mpr fun acts => inactive ((s.echoFrame_acts_iff p).mp acts).1
  have silent : (s.echoFrame p).talk = false := Bool.eq_false_iff.mpr fun talk => by
    have running := ((s.echoFrame_talk_iff p).mp talk).2
    rw [hangover] at running
    exact Nat.lt_irrefl 0 running
  have divergence : (s.echoFrame p).divergence = 0 := State.divergence_of_not_diverges fun diverges => inactive diverges.1
  have rests : (s.echoFrame p).diverged = false := by
    unfold EchoFrame.diverged
    rw [divergence]
    rfl
  rw [State.echo1_of_called called]
  dsimp only
  rw [State.afterEcho_echo, State.afterEcho_pos, State.afterEcho_canceller, if_pos rfl, if_pos rfl]
  refine ⟨?_, ?_, ?_, ?_, ?_⟩
  · unfold EchoFrame.clean
    rw [passes]
    exact (congrArg (Table.ofList 32 0) errors).trans (Table.ofList_toList 0 _)
  · have same : (s.echoFrame p).tapsAfter = s.taps p := by
      unfold EchoFrame.tapsAfter
      rw [rests]
      exact taps
    dsimp only
    rw [same]
    exact writeTaps_same (s.segments p) s.echo.coefficients
  · unfold Stats.afterEcho
    rw [rests, silent, passes]
    rfl
  · show (s.echoSamples p).hangover - 1 = 0
    rw [hangover]
  · show (if (s.echoFrame p).diverged then 0 else (s.echoFrame p).divergence) = 0
    rw [rests]
    exact divergence

/-! ## The statement -/

/-- Settles O23: the fold over the positions, then for one position the frames it takes, its run, and what the stages after the
run leave when the NLP and the guard act or rest. -/
theorem echoFrames : Obligations.EchoFrames := by
  refine ⟨fun s => foldl_finRange_cells State.echo1 (Table.fill 64 Frame.zero) s, ?_⟩
  intro s p self f d x Ed Ee connected active diverges acts fires
  refine ⟨s.sentSpeech_iff p, fun u l slot line => ⟨fun codes received whole => ?_, fun received => ?_⟩, rfl,
    State.echo1_of_uncalled, s.echoSamples_eq p, fun called _ => ?_, State.echo1_of_bypass⟩
  · have input := State.echoInput_of_heard (State.trunkLine_eq slot line) received whole
    exact ⟨congrArg Prod.fst input, congrArg Prod.snd input⟩
  · have input := State.echoInput_of_unheard (State.trunkLine_eq slot line) received
    exact ⟨congrArg Prod.fst input, congrArg Prod.snd input⟩
  · intro t
    have result : s.echo1 p = (f.clean, s.afterEcho p f) := State.echo1_of_called called
    have after : t = s.afterEcho p f := congrArg Prod.snd result
    have acting : f.acts = true ↔ acts := s.echoFrame_acts_iff p
    have firing : f.diverged = true ↔ fires := s.echoFrame_diverged_iff p
    have canceller : t.canceller p = (s.canceller p).afterFrame f := by rw [after, State.afterEcho_canceller, if_pos rfl]
    refine ⟨fun act => ?_, fun rest => ?_, by rw [canceller]; rfl, congrArg Canceller.power canceller,
      congrArg Canceller.window canceller,
      (congrArg Canceller.segments canceller).trans (Canceller.afterFrame_segments _ _), congrArg Canceller.hangover canceller,
      (congrArg Canceller.divergence canceller).trans (State.afterFrame_divergence Iff.rfl firing), ?_, fun fire => ?_,
      fun rest => ?_, fun q other => ?_, fun g other => ?_, fun once most => ?_⟩
    · rw [result]
      exact if_pos (acting.mpr act)
    · rw [result]
      exact if_neg fun act => rest (acting.mp act)
    · rw [after, State.afterEcho_pos, if_pos rfl, Stats.afterEcho_eq _ (s.echoFrame_talk_iff p) acting firing]
      rfl
    · rw [after]
      exact State.afterEcho_events_of_diverged (firing.mpr fire) p
    · rw [after]
      exact State.afterEcho_events_of_not_diverged (Bool.eq_false_iff.mpr fun fire => rest (firing.mp fire)) p
    · rw [after, State.afterEcho_pos, State.afterEcho_canceller, if_neg (Ne.symm other), if_neg (Ne.symm other)]
      exact ⟨rfl, rfl⟩
    · rw [after]
      exact State.afterEcho_coefficients_other f other
    · rw [after, State.afterEcho_taps once (State.echoSamples_taps_length most)]
      exact if_congr firing rfl rfl

end Sys2Proof.Machine
end

section
/-! PROOFS. The tap table: what its searches find, the entries it holds, and the limits of R96 at every moment (R24, R25, R27,
R96, R97, R99, R101, R176). -/

namespace Sys2Proof.Machine

/-! ## What the searches find (R96, R97) -/

theorem State.find?_tapsInUse_none (s : State) (test : Tap → Bool) :
    (s.tapsInUse.find? fun y => test y.2).map Prod.snd = none ↔ ∀ u x, s.tap u = some x → test x = false := by
  rw [Option.map_eq_none_iff, List.find?_eq_none]
  constructor
  · intro fails u x used
    simpa using fails (u, x) ((s.mem_tapsInUse u x).mpr used)
  · rintro fails ⟨u, x⟩ used
    simpa using fails u x ((s.mem_tapsInUse u x).mp used)

theorem State.listenerTap_none (s : State) (p : Fin 64) :
    s.listenerTap p = none ↔ ∀ u x, s.tap u = some x → x.listener ≠ p := by
  refine (s.find?_tapsInUse_none fun x => x.listener = p).trans ?_
  simp

theorem State.coachTap_none (s : State) (p : Fin 64) :
    s.coachTap p = none ↔ ∀ u x, s.tap u = some x → ¬(x.target = p ∧ x.kind = .coach) := by
  refine (s.find?_tapsInUse_none fun x => x.target = p && x.kind = .coach).trans ?_
  simp

theorem State.freeTap_some (s : State) (u : Fin 16) :
    s.freeTap = some u ↔ s.tap u = none ∧ ∀ v, v < u → (s.tap v).isSome = true := by
  unfold State.freeTap
  rw [find?_finRange_some]
  simp

/-- The limits of R96, and a free entry, when ADD TAP finds none exceeded. -/
theorem State.tapLimit_false (s : State) (l g : Fin 64) (k : TapKind) :
    s.tapLimit l g k = false ↔ s.listenerTap l = none ∧ (s.tapsInUse.filter fun x => x.2.target = g).length < 3
      ∧ (k = .coach → s.coachTap g = none) ∧ s.freeTap.isSome = true := by
  unfold State.tapLimit
  cases s.freeTap <;> simp [and_assoc]

/-! ## Entries placed and freed (R97, R99) -/

theorem State.setTap_tap (s : State) (u v : Fin 16) (x : Option Tap) :
    (s.setTap u x).tap v = if u = v then x else s.tap v := Table.cell_put ..

theorem State.tapsInUse_nodup (s : State) : s.tapsInUse.Nodup :=
  s.tapsInUse_ascending.imp fun below same => absurd below (by rw [same]; exact lt_irrefl _)

/-- A tap placed in a free entry joins the taps in use. -/
theorem State.tapsInUse_setTap {s : State} {u : Fin 16} (free : s.tap u = none) (x : Tap) :
    (s.setTap u (some x)).tapsInUse.Perm ((u, x) :: s.tapsInUse) := by
  have fresh : (u, x) ∉ s.tapsInUse := fun used => by
    rw [State.mem_tapsInUse, free] at used
    exact nomatch used
  refine (List.perm_ext_iff_of_nodup (State.tapsInUse_nodup _) (s.tapsInUse_nodup.cons fresh)).mpr fun ⟨v, y⟩ => ?_
  rw [List.mem_cons, State.mem_tapsInUse, State.mem_tapsInUse, State.setTap_tap, Prod.mk.injEq]
  by_cases same : u = v
  · subst same
    simp [free, eq_comm]
  · simp [same, Ne.symm same]

/-! ## Taps that only go -/

/-- From `s` to `t` no tap has come, and each that stays still joins an IDLE listener to an open target if it did. -/
structure TapsThinned (s t : State) : Prop where
  taps : ∀ u x, t.tap u = some x → s.tap u = some x
  listener : ∀ u x, t.tap u = some x → (s.pos x.listener).state = .idle → (t.pos x.listener).state = .idle
  target : ∀ u x, t.tap u = some x → (s.pos x.target).state ≠ .closed → (t.pos x.target).state ≠ .closed

theorem TapsThinned.targets_le {s t : State} (h : TapsThinned s t) (p : Fin 64) :
    (t.tapsInUse.filter fun x => x.2.target = p).length ≤ (s.tapsInUse.filter fun x => x.2.target = p).length := by
  refine (List.subperm_of_subset (t.tapsInUse_nodup.filter _) (List.filter_subset _ fun ⟨u, x⟩ used => ?_)).length_le
  exact (s.mem_tapsInUse u x).mpr (h.taps u x ((t.mem_tapsInUse u x).mp used))

theorem State.tapsSound_of_thinned {s t : State} (sound : s.tapsSound) (h : TapsThinned s t) : t.tapsSound := by
  obtain ⟨ends, listeners, coaches, targets⟩ := sound
  refine ⟨fun u x used => ?_, fun u v x y hx hy => listeners u v x y (h.taps u x hx) (h.taps v y hy),
    fun u v x y hx hy => coaches u v x y (h.taps u x hx) (h.taps v y hy), fun p => (h.targets_le p).trans (targets p)⟩
  obtain ⟨apart, idle, opened⟩ := ends u x (h.taps u x used)
  exact ⟨apart, h.listener u x used idle, h.target u x used opened⟩

theorem SlotsKept.idle_iff {s t : State} (h : SlotsKept s t) (p : Fin 64) :
    (t.pos p).state = .idle ↔ (s.pos p).state = .idle := by
  have idle : ∀ x : PositionState, x = .idle ↔ x ≠ .closed ∧ x.inCall = false := fun x => by cases x <;> decide
  rw [idle, idle, ne_eq, ne_eq, h.closed_iff, h.inCall]

theorem TapsThinned.of_slots {s t : State} (taps : t.mixer.taps = s.mixer.taps) (slots : SlotsKept s t) :
    TapsThinned s t where
  taps u x used := by
    unfold State.tap at used ⊢
    rwa [taps] at used
  listener _ x _ := (slots.idle_iff x.listener).mpr
  target _ x _ := (slots.closed_iff x.target).not.mpr

theorem State.tapsSound_of_touches {parts : List Part} {s t : State} (sound : s.tapsSound) (h : Touches parts s t)
    (mixer : .mixer ∉ parts) (positions : .positions ∉ parts) : t.tapsSound :=
  State.tapsSound_of_thinned sound (.of_slots (congrArg Mixer.taps (h .mixer mixer)) (.of_touches h positions))

/-- One record changes, and with it the taps that name its position. -/
theorem TapsThinned.of_record {s t : State} {p : Fin 64} {y : Position}
    (record : ∀ q, t.pos q = if p = q then y else s.pos q) (taps : ∀ u x, t.tap u = some x → s.tap u = some x)
    (listener : ∀ u x, t.tap u = some x → x.listener = p → (s.pos p).state = .idle → y.state = .idle)
    (target : ∀ u x, t.tap u = some x → x.target = p → (s.pos p).state ≠ .closed → y.state ≠ .closed) :
    TapsThinned s t where
  taps := taps
  listener u x used idle := by
    rw [record]
    split
    · next same => exact listener u x used same.symm (by rwa [← same] at idle)
    · exact idle
  target u x used opened := by
    rw [record]
    split
    · next same => exact target u x used same.symm (by rwa [← same] at opened)
    · exact opened

/-! ## The requests that open, connect, release and close (R24, R25, R27, R30) -/

theorem State.openAccepted_tapsThinned {s : State} (port : Port) {p : Fin 64} (slot : Fin 64) (tail : Nat) (profile : Fin 4)
    (closed : (s.pos p).state = .closed) : TapsThinned s (s.openAccepted port p slot tail profile) := by
  rw [State.openAccepted_eq]
  refine .of_record (fun q => s.setPos_pos p q _) (fun _ _ used => used) (fun _ _ _ _ _ => rfl) fun _ _ _ _ opened => ?_
  exact absurd closed opened

/-- The taps that name a position go with its closure (R101). -/
theorem State.closing_tapsThinned (s : State) {cause : FlushCause} (other : cause ≠ .cancel) (p : Fin 64) :
    TapsThinned s (s.closing p cause) := by
  have stays : ∀ u x, (s.closing p cause).tap u = some x → s.tap u = some x ∧ x.listener ≠ p ∧ x.target ≠ p :=
    fun u x used => by
      rw [State.closing_tap other, Option.filter_eq_some_iff, decide_eq_true_iff] at used
      exact used
  refine .of_record (s.closing_pos other p) (fun u x used => (stays u x used).1) (fun u x used named => ?_)
    fun u x used named => ?_
  · obtain ⟨-, listener, -⟩ := stays u x used
    exact absurd named listener
  · obtain ⟨-, -, target⟩ := stays u x used
    exact absurd named target

theorem State.releasing_tapsThinned (s : State) {cause : FlushCause} (other : cause ≠ .cancel) (p : Fin 64) :
    TapsThinned s (s.releasing p cause) := by
  refine .of_record (s.releasing_pos other p) (fun u x used => ?_) (fun _ _ _ _ _ => rfl) fun _ _ _ _ _ =>
    PositionState.noConfusion
  have mixer := s.releasing_releaseParts other p .mixer (by decide)
  exact (congrArg (fun m : Mixer => m.taps.cell u) mixer).symm.trans used

/-- The tap whose listener a position is goes with its CONNECT (R101). -/
theorem State.connecting_tapsThinned (s : State) (p t : Fin 64) {state : PositionState} (stream : Option (Fin 16))
    (opened : state ≠ .closed) : TapsThinned s (s.connecting p t state stream) := by
  have stays : ∀ u x, (s.connecting p t state stream).tap u = some x → s.tap u = some x ∧ x.listener ≠ p :=
    fun u x used => by
      rw [State.connecting_tap, Option.filter_eq_some_iff, decide_eq_true_iff] at used
      exact used
  refine .of_record (fun q => s.connecting_pos p t q state stream) (fun u x used => (stays u x used).1)
    (fun u x used named => ?_) fun _ _ _ _ _ => opened
  exact absurd named (stays u x used).2

theorem State.connect_tapsSound {s : State} (sound : s.tapsSound) (port : Port) (p t : Fin 64) (prompt : Option PromptArg)
    (stream : Option (Fin 16)) : (s.connect port p t prompt stream).tapsSound := by
  have linked : ∀ {state : PositionState} {stream}, state ≠ .closed → (s.connecting p t state stream).tapsSound :=
    fun opened => State.tapsSound_of_thinned sound (s.connecting_tapsThinned p t _ opened)
  refine State.connect_keeps (P := State.tapsSound) (fun _ => sound) (fun kinds c i => ?_) (fun _ => linked (by decide))
    fun x _ => ?_
  · exact State.tapsSound_of_touches sound (s.refuseFault_touches port kinds c i _) (by decide) (by decide)
  · exact State.tapsSound_of_touches (linked (state := .announce) (stream := stream) (by decide))
      ((State.queueEntry_touches _ p port _ _).answered (by decide) port .ok []) (by decide) (by decide)

/-! ## A frame completion (R4) -/

theorem State.settle_tapsSound {s : State} (sound : s.tapsSound) : s.settle.tapsSound := by
  have debounced := State.tapsSound_of_touches sound s.settleDebounce_touches (by decide) (by decide)
  unfold State.settle State.settleFrame
  split
  · exact State.tapsSound_of_thinned debounced (.of_slots (State.completeFrame_taps _) (State.completeFrame_slotsKept _))
  · exact debounced

/-! ## RESET PORT (R176) -/

/-- A position whose record a port reset keeps stays in its state. -/
theorem State.portReset_state {s : State} {port : Port} {p : Fin 64} (stays : p ∉ s.keptBy port) :
    ((s.portReset port).pos p).state = (s.pos p).state := by
  rw [State.portReset_pos, State.resetPositions_pos, if_neg stays]
  unfold Position.losing Position.inherited Position.unoffered
  split
  · rfl
  · split
    · rfl
    · rfl

theorem State.portReset_tapsThinned (s : State) (port : Port) : TapsThinned s (s.portReset port) := by
  have stays : ∀ u x, (s.portReset port).tap u = some x →
      s.tap u = some x ∧ x.owner ≠ port ∧ x.listener ∉ s.keptBy port ∧ x.target ∉ s.keptBy port := fun u x used => by
    rw [State.portReset_tap, Option.filter_eq_some_iff, decide_eq_true_iff] at used
    exact used
  refine ⟨fun u x used => (stays u x used).1, fun u x used => ?_, fun u x used => ?_⟩
  · obtain ⟨-, -, listener, -⟩ := stays u x used
    rw [State.portReset_state listener]
    exact id
  · obtain ⟨-, -, -, target⟩ := stays u x used
    rw [State.portReset_state target]
    exact id

/-! ## ADD TAP and REMOVE TAP (R97, R99) -/

/-- A tap within the limits, placed in a free entry, leaves the table within them. -/
theorem State.setTap_tapsSound {s : State} (sound : s.tapsSound) {u : Fin 16} {x : Tap} (free : s.tap u = none)
    (apart : x.listener ≠ x.target) (idle : (s.pos x.listener).state = .idle) (opened : (s.pos x.target).state ≠ .closed)
    (silent : s.listenerTap x.listener = none) (few : (s.tapsInUse.filter fun y => y.2.target = x.target).length < 3)
    (uncoached : x.kind = .coach → s.coachTap x.target = none) : (s.setTap u (some x)).tapsSound := by
  obtain ⟨ends, listeners, coaches, targets⟩ := sound
  have others := (s.listenerTap_none x.listener).mp silent
  have noCoach := fun coach => (s.coachTap_none x.target).mp (uncoached coach)
  -- An entry of the new table is the one placed, or one of the old table.
  have entry : ∀ {v y}, (s.setTap u (some x)).tap v = some y → u = v ∧ x = y ∨ s.tap v = some y := fun {v y} used => by
    rw [State.setTap_tap] at used
    split at used
    · next same => exact .inl ⟨same, Option.some.inj used⟩
    · exact .inr used
  refine ⟨fun v y used => ?_, fun v w y z hy hz same => ?_, fun v w y z hy hz same coachY coachZ => ?_, fun p => ?_⟩
  · rcases entry used with ⟨-, rfl⟩ | used
    · exact ⟨apart, idle, opened⟩
    · exact ends v y used
  · rcases entry hy with ⟨rfl, rfl⟩ | hy <;> rcases entry hz with ⟨rfl, rfl⟩ | hz
    · rfl
    · exact absurd same.symm (others w z hz)
    · exact absurd same (others v y hy)
    · exact listeners v w y z hy hz same
  · rcases entry hy with ⟨rfl, rfl⟩ | hy <;> rcases entry hz with ⟨rfl, rfl⟩ | hz
    · rfl
    · exact absurd ⟨same.symm, coachZ⟩ (noCoach coachY w z hz)
    · exact absurd ⟨same, coachY⟩ (noCoach coachZ v y hy)
    · exact coaches v w y z hy hz same coachY coachZ
  · rw [((State.tapsInUse_setTap free x).filter _).length_eq, List.filter_cons]
    split
    · next named =>
      rw [decide_eq_true_iff] at named
      subst named
      exact few
    · exact targets p

theorem State.addTapAccepted_tapsSound {s : State} (sound : s.tapsSound) (port : Port) {x : Tap}
    (apart : x.listener ≠ x.target) (idle : (s.pos x.listener).state = .idle) (opened : (s.pos x.target).state ≠ .closed)
    (room : s.tapLimit x.listener x.target x.kind = false) : (s.addTapAccepted port x).tapsSound := by
  obtain ⟨silent, few, uncoached, -⟩ := (s.tapLimit_false _ _ _).mp room
  unfold State.addTapAccepted
  split
  · next u found =>
    obtain ⟨free, -⟩ := (s.freeTap_some u).mp found
    have placed := State.setTap_tapsSound sound free apart idle opened silent few uncoached
    dsimp only
    refine State.tapsSound_of_touches ?_ (State.answer_touches _ port .ok _) (by decide) (by decide)
    split
    · exact State.tapsSound_of_touches placed (State.file_touches _ _ _ _ _) (by decide) (by decide)
    · exact placed
  · exact sound

theorem State.setTap_none_tapsThinned (s : State) (u : Fin 16) : TapsThinned s (s.setTap u none) where
  taps v x used := by
    rw [State.setTap_tap] at used
    split at used
    · exact nomatch used
    · exact used
  listener _ _ _ := id
  target _ _ _ := id

theorem State.removeTapAccepted_tapsSound {s : State} (sound : s.tapsSound) (port : Port) (u : Fin 16) (x : Tap) :
    (s.removeTapAccepted port u x).tapsSound := by
  have freed := State.tapsSound_of_thinned sound (s.setTap_none_tapsThinned u)
  unfold State.removeTapAccepted
  refine State.tapsSound_of_touches ?_ (State.answer_touches _ port .ok _) (by decide) (by decide)
  split
  · exact freed
  · exact State.tapsSound_of_touches freed (State.file_touches _ _ _ _ _) (by decide) (by decide)

/-! ## Every command -/

/-- A command that changes records and leaves the mixer alone binds no timeslot either. -/
theorem commandParts_of_records_unmixed {c : Instr} (positions : .positions ∈ commandParts c)
    (mixer : .mixer ∉ commandParts c) : .highway ∉ commandParts c ∧ .phase ∉ commandParts c := by
  cases c <;> simp_all [commandParts, frameParts, closeParts, grantParts]

/-- A command that leaves the mixer alone moves no position into or out of IDLE, and opens and closes none. -/
theorem exec_tapsThinned {c : Instr} {s t : State} (h : exec c s = .next t) (mixer : .mixer ∉ commandParts c) :
    TapsThinned s t := by
  have taps : t.mixer.taps = s.mixer.taps := congrArg Mixer.taps (exec_touches h .mixer mixer)
  by_cases positions : .positions ∈ commandParts c
  · obtain ⟨highway, phase⟩ := commandParts_of_records_unmixed positions mixer
    exact .of_slots taps (exec_slotsKept h highway phase)
  · exact .of_slots taps (.of_touches (exec_touches h) positions)

theorem State.checked_tapsSound {s : State} (sound : s.tapsSound) {p : Port} {checks : List (Bool × Status)}
    {effect : State → State} (passed : (∀ c ∈ checks, c.1 = false) → (effect s).tapsSound) :
    (s.checked p checks effect).tapsSound :=
  State.checked_keeps (fun _ => sound) fun none => passed (firstRefusal_eq_none.mp none)

/-- The assignment of players and the reply are no business of the tap table's. -/
theorem State.assigned_tapsSound {s u : State} (sound : s.tapsSound) (h : TapsThinned s u) (port : Port) :
    (u.assignPlayers.answer port .ok []).tapsSound :=
  State.tapsSound_of_touches (State.tapsSound_of_thinned sound h) (u.assigned_answer_touches port .ok []) (by decide)
    (by decide)

theorem exec_tapsSound {c : Instr} {s t : State} (sound : s.tapsSound) (h : exec c s = .next t) : t.tapsSound := by
  by_cases spared : .mixer ∉ commandParts c
  · exact State.tapsSound_of_thinned sound (exec_tapsThinned h spared)
  have request := fun {p code body} (h : (Host.Outcome.next (s.request p code body) : Host.Outcome State Fault Refusal)
    = .next t) => exec_request_keeps (P := State.tapsSound) h sound fun _ _ hu => hu
  have settled := State.settle_tapsSound sound
  cases c with
  | pinReset => cases h; exact reset_tapsSound
  | cycle trunkRx agentRx agentSig =>
    obtain e | ⟨-, e⟩ := cycle_next h <;> rw [e]
    · exact sound
    · exact State.tapsSound_of_touches settled (State.cycled_touches _ _ _ _) (by decide) (by decide)
  | frameCompletion =>
    cases h
    split
    · exact settled
    · exact sound
  | syncLossMissingPulse =>
    obtain e | e := syncLossMissingPulse_next h <;> rw [e]
    · exact sound
    · exact State.tapsSound_of_touches settled (State.loseSync_touches _ _ _) (by decide) (by decide)
  | fsPulse bit =>
    obtain e | ⟨-, e⟩ := fsPulse_next h <;> rw [e]
    · exact sound
    · exact State.tapsSound_of_touches settled (State.pulsed_touches _ bit) (by decide) (by decide)
  | resetPort port =>
    exact request h fun u hu => State.tapsSound_of_thinned hu (u.portReset_tapsThinned port)
  | openPosition port position slot tail profile =>
    refine request h fun u hu => ?_
    split
    · refine State.checked_tapsSound hu fun passed => ?_
      simp only [List.forall_mem_cons, decide_eq_false_iff_not, not_not] at passed
      obtain ⟨-, -, closed, -⟩ := passed
      exact State.tapsSound_of_thinned hu (State.openAccepted_tapsThinned port _ _ _ closed)
    · exact hu
  | closePosition port position =>
    exact request h fun u hu => State.withNumber_keeps (fun _ => hu) fun p => State.checked_tapsSound hu fun _ =>
      State.assigned_tapsSound hu (u.closing_tapsThinned (by decide) p) port
  | connect port position trunk prompt stream =>
    refine request h fun u hu => ?_
    split
    · exact State.checked_tapsSound hu fun _ => State.connect_tapsSound hu port _ _ _ _
    · exact hu
  | release port position =>
    exact request h fun u hu => State.withNumber_keeps (fun _ => hu) fun p => State.checked_tapsSound hu fun _ =>
      State.assigned_tapsSound hu (u.releasing_tapsThinned (by decide) p) port
  | addTap port listener target kind gain =>
    refine request h fun u hu => ?_
    split
    · refine State.checked_tapsSound hu fun passed => ?_
      simp only [List.forall_mem_cons, decide_eq_false_iff_not, not_not] at passed
      obtain ⟨apart, -, -, idle, opened, room, -⟩ := passed
      exact State.addTapAccepted_tapsSound hu port apart idle opened room
    · exact hu
  | removeTap port tap =>
    refine request h fun u hu => ?_
    split
    · split
      · exact State.checked_tapsSound hu fun _ => State.removeTapAccepted_tapsSound hu port _ _
      · exact hu
    · exact hu
  | _ => exact absurd (by simp [commandParts, grantParts]) spared

/-- Settles O56: every command keeps the limits, and the queue of commands is no part of them. -/
theorem tapsStaySound : Obligations.TapsStaySound := by
  intro s t sound h
  unfold step at h
  split at h
  · cases h; exact sound
  · next c rest _ => exact exec_tapsSound (s := { s with pending := rest }) sound h

end Sys2Proof.Machine
end

section
/-! PROOFS. ADD TAP and REMOVE TAP accepted (R96 to R99). -/

namespace Sys2Proof.Machine

/-! ## ADD TAP (R97, R98) -/

theorem Tap.onDetail_eq (u : Fin 16) (x : Tap) :
    Tap.onDetail u x = u.val + (if x.kind = .coach then 16 else 0) + 256 * x.listener.val := by
  rw [Tap.onDetail, tapKindNumber_eq]

/-- ADD TAP's effect, with the tap in the lowest free entry. -/
theorem State.addTapAccepted_taken {s : State} {u : Fin 16} (free : s.tap u = none)
    (lowest : ∀ v, v < u → (s.tap v).isSome = true) (port : Port) (code : Byte) (x : Tap) :
    (s.taken port code).addTapAccepted port x
      = (if (s.pos x.target).owner = some port.other then (s.setTap u (some x)).file port.other .tapOn x.target.val
          (u.val + (if x.kind = .coach then 16 else 0) + 256 * x.listener.val)
        else s.setTap u (some x)).replied port code .ok [numberByte u] := by
  have found : (s.taken port code).freeTap = some u := (s.freeTap_some u).mpr ⟨free, lowest⟩
  have owner : (((s.taken port code).setTap u (some x)).pos x.target).owner = (s.pos x.target).owner := rfl
  unfold State.addTapAccepted
  rw [found]
  dsimp only
  rw [owner, Tap.onDetail_eq]
  split
  · exact State.taken_file_answer (s.setTap u (some x)) port _ code _ _ _ _ _
  · exact State.taken_answer (s.setTap u (some x)) port code .ok _

/-! ## REMOVE TAP (R99) -/

theorem State.removeTapAccepted_taken_own (s : State) {port : Port} (code : Byte) (u : Fin 16) {x : Tap}
    (own : x.owner = port) :
    (s.taken port code).removeTapAccepted port u x = (s.setTap u none).replied port code .ok [] := by
  unfold State.removeTapAccepted
  rw [if_pos own]
  exact State.taken_answer (s.setTap u none) port code .ok []

theorem State.removeTapAccepted_taken_other (s : State) {port : Port} (code : Byte) (u : Fin 16) {x : Tap}
    (other : x.owner ≠ port) : (s.taken port code).removeTapAccepted port u x
      = ((s.setTap u none).file x.owner .tapDropped x.listener.val
          (u.val + (if x.kind = .coach then 16 else 0) + 256 * 4)).replied port code .ok [] := by
  unfold State.removeTapAccepted State.dropTap
  rw [if_neg other, tapKindNumber_eq]
  exact State.taken_file_answer (s.setTap u none) port _ code _ _ _ _ _

/-- REMOVE TAP of a tap that stands, for its owner or the owner of its target. -/
theorem exec_removeTap {s : State} {port : Port} {tap : Byte} {u : Fin 16} {x : Tap} (takes : s.takes port)
    (named : number? 16 tap = some u) (used : s.tap u = some x)
    (entitled : x.owner = port ∨ (s.pos x.target).owner = some port) :
    exec (.removeTap port tap) s = .next ((s.taken port Code.removeTap).removeTapAccepted port u x) := by
  have stands : (s.taken port Code.removeTap).tap u = some x := used
  show Host.Outcome.next (s.request port Code.removeTap _) = _
  rw [State.request_of_takes takes, named]
  dsimp only
  rw [stands]
  dsimp only
  rw [State.checked_pass]
  rcases entitled with own | owner
  · simp [firstRefusal, own]
  · simp [firstRefusal, owner]

/-! ## The statement -/

/-- Settles O36: the checks pass, and the entry that ADD TAP takes is the lowest free one. -/
theorem addAndRemoveTap : Obligations.AddAndRemoveTap := by
  refine ⟨?_, fun s port tap u x takes named used => ⟨fun own => ?_, fun other owner => ?_⟩⟩
  · intro s port listener target kind gain l g k takes named targetNamed kindNamed apart idle owner opened silent few
      uncoached u free lowest x t
    have room : (s.taken port Code.addTap).tapLimit l g k = false :=
      (s.tapLimit_false l g k).mpr ⟨silent, few, uncoached,
        Option.isSome_iff_exists.mpr ⟨u, (s.freeTap_some u).mpr ⟨free, lowest⟩⟩⟩
    show Host.Outcome.next (s.request port Code.addTap _) = _
    rw [State.request_of_takes takes, named, targetNamed, kindNamed]
    dsimp only
    unfold State.addTap
    rw [State.checked_pass]
    · exact congrArg _ (State.addTapAccepted_taken free lowest port Code.addTap x)
    · simp [firstRefusal, apart, idle, owner, opened, room]
  · rw [exec_removeTap takes named used (.inl own), State.removeTapAccepted_taken_own s _ u own]
  · rw [exec_removeTap takes named used (.inr owner), State.removeTapAccepted_taken_other s _ u other]

end Sys2Proof.Machine
end

section
/-! PROOFS. The mixer: the taps it finds, the contributions to an ear sample, the coach-duck hangover, and what it leaves in
transmit buffers and counts (R2, R6, R87, R89 to R96). -/

namespace Sys2Proof.Machine

/-! ## The taps of a position (R94 to R96) -/

theorem State.listenerTap_some (s : State) (p : Fin 64) (x : Tap) : s.listenerTap p = some x
    ↔ ∃ u, s.tap u = some x ∧ x.listener = p ∧ ∀ v, v < u → ∀ y, s.tap v = some y → ¬y.listener = p := by
  refine (s.find?_tapsInUse (fun y => y.listener = p) x).trans ?_
  simp only [decide_eq_true_iff, decide_eq_false_iff_not]

theorem State.coachTap_some (s : State) (p : Fin 64) (x : Tap) : s.coachTap p = some x
    ↔ ∃ u, s.tap u = some x ∧ (x.target = p ∧ x.kind = .coach)
      ∧ ∀ v, v < u → ∀ y, s.tap v = some y → ¬(y.target = p ∧ y.kind = .coach) := by
  refine (s.find?_tapsInUse (fun y => y.target = p && y.kind = .coach) x).trans ?_
  simp only [Bool.and_eq_true, decide_eq_true_iff, ← Bool.not_eq_true]

/-! ## Trunk-send frames (R87) -/

theorem State.trunkSend_eq (s : State) (m : MixInputs) (p : Fin 64) : s.trunkSend m p
    = match (s.pos p).state, (s.pos p).stream with
      | .connected, _ => (s.suppressor p).send
      | .announce, some k => m.streams.cell k
      | .held, some k => m.streams.cell k
      | _, _ => Table.fill 32 0 := by
  unfold State.trunkSend State.streamFrameOf
  cases (s.pos p).state <;> cases (s.pos p).stream <;> rfl

/-! ## Contributions to an ear sample (R91, R92, R94, R95) -/

section
variable (s : State) (m : MixInputs) (p : Fin 64) (i : Fin 32)

theorem State.callerPart_eq : s.callerPart m p i = if (s.pos p).state = .connected then applyGain
    (if (s.queue p).head?.map Entry.phase = some .sounding ∨ 0 < s.coachDuck p then (s.pos p).duck else 32768)
      ((m.clean.cell p).cell i) else 0 := by
  unfold State.callerPart State.duckFactor State.connected
  simp only [decide_eq_true_iff, Bool.or_eq_true, State.sounding_iff]

variable {s p}

theorem State.whisperPart_of_head {e : Entry} (head : (s.queue p).head? = some e) : s.whisperPart m p i
    = if (s.queue p).head?.map Entry.phase = some .sounding then applyGain e.gain ((m.whisper.cell p).cell i) else 0 := by
  unfold State.whisperPart
  simp only [head, Option.map_some, Option.some.injEq]

theorem State.whisperPart_of_empty (empty : s.queue p = []) : s.whisperPart m p i = 0 := by
  unfold State.whisperPart
  rw [empty]
  rfl

theorem State.coachPart_of_tap {x : Tap} (coach : s.coachTap p = some x) : s.coachPart p i
    = if (s.pos p).state = .connected then applyGain x.gain ((s.suppressor x.listener).send.cell i) else 0 := by
  unfold State.coachPart State.connected
  simp only [coach, decide_eq_true_iff]

theorem State.coachPart_of_none (none : s.coachTap p = none) : s.coachPart p i = 0 := by
  unfold State.coachPart
  rw [none]
  exact ite_self 0

theorem State.monitorPart_of_tap {x : Tap} (listens : s.listenerTap p = some x) : s.monitorPart m p i
    = if (s.pos x.target).state = .connected then
        ((m.clean.cell x.target).cell i + 1) / 2 + ((s.trunkSend m x.target).cell i + 1) / 2 else 0 := by
  unfold State.monitorPart State.connected
  simp only [listens, decide_eq_true_iff, halved_eq]

theorem State.monitorPart_of_none (none : s.listenerTap p = none) : s.monitorPart m p i = 0 := by
  unfold State.monitorPart
  rw [none]

end

/-! ## The coach-duck hangover (R93) -/

theorem State.coachDuckAfter_of_open {s : State} {p : Fin 64} (opened : (s.pos p).state ≠ .closed) : s.coachDuckAfter p
    = if (s.coachTap p).any (fun x => (s.suppressor x.listener).speech) then 8 else s.coachDuck p - 1 := by
  have speaks : s.coachSpeaks p = (s.coachTap p).any fun x => (s.suppressor x.listener).speech := by
    unfold State.coachSpeaks
    cases s.coachTap p <;> rfl
  unfold State.coachDuckAfter
  rw [if_neg opened, speaks]

theorem State.coachDuckAfter_of_closed {s : State} {p : Fin 64} (closed : (s.pos p).state = .closed) :
    s.coachDuckAfter p = s.coachDuck p := if_pos closed

/-! ## Transmit buffers and counts (R6, R89) -/

theorem State.mix_agent (s : State) (m : MixInputs) (a : Fin 64) : (s.mix m).highway.agent.cell a
    = (s.highway.agent.cell a).map fun l =>
        { l with transmit := Table.build fun i => compress s.law (saturate (s.earSum m l.position i)) } := by
  simp only [State.mix, State.earBuffers, Table.cell_map, coded_eq, Table.cell_build, State.earSums]

theorem State.mix_trunk (s : State) (m : MixInputs) (u : Fin 64) : (s.mix m).highway.trunk.cell u
    = (s.highway.trunk.cell u).map fun l => { l with line := { l.line with
        transmit := Table.build fun i => compress s.law (saturate ((s.trunkSend m l.line.position).cell i)) } } := by
  simp only [State.mix, State.trunkBuffers, Table.cell_map, coded_eq]

theorem clippedCount_build (f : Fin 32 → Int) : clippedCount (Table.build f)
    = ((List.finRange 32).filter fun i => f i < -32768 ∨ 32767 < f i).length := by
  show (((List.finRange 32).map f).filter clips).length = _
  rw [List.filter_map, List.length_map]
  refine congrArg List.length (List.filter_congr fun i _ => ?_)
  exact (Bool.decide_or _ _).symm

theorem State.mix_pos (s : State) (m : MixInputs) (p : Fin 64) : (s.mix m).pos p
    = if (s.pos p).state = .closed then s.pos p else { s.pos p with stats := { (s.pos p).stats with
        clipped := min 4294967295 ((s.pos p).stats.clipped + ((List.finRange 32).filter fun i =>
          s.earSum m p i < -32768 ∨ 32767 < s.earSum m p i).length) } } := by
  rw [← clippedCount_build]
  show (s.clippedCounted _).cell p = _
  unfold State.clippedCounted
  rw [Table.cell_build, Table.cell_build]
  rfl

/-! ## The statement -/

/-- Settles O24, contribution by contribution. -/
theorem earAndTrunkFrames : Obligations.EarAndTrunkFrames := by
  intro s m p self connected sounding lowest
  refine ⟨s.listenerTap_some p, s.listenerTap_none p, s.coachTap_some p, s.coachTap_none p, fun _ => rfl,
    s.trunkSend_eq m p, fun i => ?_, State.coachDuckAfter_of_open, State.coachDuckAfter_of_closed, s.mix_agent m,
    s.mix_trunk m, s.mix_pos m p⟩
  exact ⟨rfl, s.callerPart_eq m p i, fun e => State.whisperPart_of_head m i, State.whisperPart_of_empty m i,
    fun x => State.coachPart_of_tap i, State.coachPart_of_none i, fun x => State.monitorPart_of_tap m i,
    State.monitorPart_of_none m i⟩

end Sys2Proof.Machine
end

section
/-! PROOFS. The clip store's requests: descriptors, faults and page operations (R105, R107 to R113, R117, R119, R121, R122). -/

namespace Sys2Proof.Machine

/-! ## Page ranges (R105, R108) -/

theorem rangesMeet_iff {base1 length1 base2 length2 : Nat} (some1 : 1 ≤ length1) (some2 : 1 ≤ length2) :
    rangesMeet base1 length1 base2 length2 = true
      ↔ ∃ page, base1 ≤ page ∧ page < base1 + length1 ∧ base2 ≤ page ∧ page < base2 + length2 := by
  simp only [rangesMeet, Bool.and_eq_true, decide_eq_true_iff]
  constructor
  · rintro ⟨before, after⟩
    exact ⟨max base1 base2, by omega⟩
  · rintro ⟨page, inside⟩
    omega

/-- The later of two bases lies in both ranges, when they meet. -/
theorem State.overlaps_iff {s : State} {c : Fin 256} {base length : Nat} (some1 : 1 ≤ length)
    (long : ∀ d, d ≠ c → (s.clip d).defined = true → 1 ≤ (s.clip d).length) : s.overlaps c base length = true
      ↔ ∃ d, d ≠ c ∧ (s.clip d).defined = true ∧ ∃ page, base ≤ page ∧ page < base + length
        ∧ (s.clip d).base ≤ page ∧ page < (s.clip d).base + (s.clip d).length := by
  simp only [State.overlaps, List.any_eq_true, List.mem_finRange, true_and, Bool.and_eq_true, and_assoc,
    decide_eq_true_iff]
  refine exists_congr fun d => and_congr_right fun other => and_congr_right fun defined => ?_
  exact rangesMeet_iff some1 (long d other defined)

/-! ## DEFINE CLIP, SET KEYS and FREE CLIP accepted (R108 to R111) -/

theorem Clip.inUse_false {x : Clip} : x.inUse = false ↔ x.plays = 0 ∧ x.writeBusy = 0 := by
  simp [Clip.inUse]

theorem State.setClip_taken_answer (s : State) (port : Port) (code : Byte) (c : Fin 256) (x : Clip) :
    ((s.taken port code).setClip c x).answer port .ok [] = (s.setClip c x).replied port code .ok [] :=
  State.taken_answer (s.setClip c x) port code .ok []

theorem exec_defineClip_accepted {s : State} {port : Port} {clip key0 key1 : Byte} {base length fill : Half} {k0 k1 : Key}
    (takes : s.takes port) (named0 : key? key0 = some k0) (named1 : key? key1 = some k1) (short : 1 ≤ length.toNat)
    (long : length.toNat ≤ 4096) (filled : 1 ≤ fill.toNat) (fits : fill.toNat ≤ 256)
    (within : base.toNat + length.toNat ≤ s.pageCount)
    (idle : (s.clip (clipNumber clip)).defined = true → (s.clip (clipNumber clip)).owner = some port
      ∧ (s.clip (clipNumber clip)).plays = 0 ∧ (s.clip (clipNumber clip)).writeBusy = 0)
    (apart : s.overlaps (clipNumber clip) base.toNat length.toNat = false) :
    exec (.defineClip port clip base length fill key0 key1) s
      = .next ((s.setClip (clipNumber clip) ((s.clip (clipNumber clip)).redefined port base.toNat length.toNat fill.toNat
          ⟨k0, k1⟩)).replied port Code.defineClip .ok []) := by
  have owner : ((s.clip (clipNumber clip)).defined && (s.clip (clipNumber clip)).owner ≠ some port) = false := by
    simpa using fun defined => (idle defined).1
  have unused : ((s.clip (clipNumber clip)).defined && (s.clip (clipNumber clip)).inUse) = false := by
    simpa [Clip.inUse_false] using fun defined => (idle defined).2
  show Host.Outcome.next (s.request port Code.defineClip _) = _
  rw [State.request_of_takes takes, named0, named1]
  dsimp only
  unfold State.defineClip
  rw [State.checked_pass]
  · exact congrArg _ (State.setClip_taken_answer s port _ _ _)
  · have range : ¬ (s.taken port Code.defineClip).pageCount < base.toNat + length.toNat := not_lt.mpr within
    have owner : (((s.taken port Code.defineClip).clip (clipNumber clip)).defined
      && ((s.taken port Code.defineClip).clip (clipNumber clip)).owner ≠ some port) = false := owner
    have unused : (((s.taken port Code.defineClip).clip (clipNumber clip)).defined
      && ((s.taken port Code.defineClip).clip (clipNumber clip)).inUse) = false := unused
    have apart : (s.taken port Code.defineClip).overlaps (clipNumber clip) base.toNat length.toNat = false := apart
    rw [owner, unused, apart]
    simp only [firstRefusal, Bool.false_eq_true, if_false]
    simp [range]
    omega

theorem exec_setKeys_accepted {s : State} {port : Port} {clip key0 key1 : Byte} {k0 k1 : Key} (takes : s.takes port)
    (named0 : key? key0 = some k0) (named1 : key? key1 = some k1) (defined : (s.clip (clipNumber clip)).defined = true)
    (owner : (s.clip (clipNumber clip)).owner = some port) : exec (.setKeys port clip key0 key1) s
      = .next ((s.setClip (clipNumber clip) { s.clip (clipNumber clip) with
          keys := ⟨k0, k1⟩, accessed := false, written := false }).replied port Code.setKeys .ok []) := by
  have defined : ((s.taken port Code.setKeys).clip (clipNumber clip)).defined = true := defined
  have owner : ((s.taken port Code.setKeys).clip (clipNumber clip)).owner = some port := owner
  show Host.Outcome.next (s.request port Code.setKeys _) = _
  rw [State.request_of_takes takes, named0, named1]
  dsimp only
  rw [State.checked_pass]
  · exact congrArg _ (State.setClip_taken_answer s port _ _ _)
  · simp [firstRefusal, defined, owner]

theorem exec_freeClip_accepted {s : State} {port : Port} {clip : Byte} (takes : s.takes port)
    (defined : (s.clip (clipNumber clip)).defined = true) (owner : (s.clip (clipNumber clip)).owner = some port)
    (unplayed : (s.clip (clipNumber clip)).plays = 0) (unwritten : (s.clip (clipNumber clip)).writeBusy = 0) :
    exec (.freeClip port clip) s
      = .next ((s.setClip (clipNumber clip) Clip.freeContents).replied port Code.freeClip .ok []) := by
  have defined : ((s.taken port Code.freeClip).clip (clipNumber clip)).defined = true := defined
  have owner : ((s.taken port Code.freeClip).clip (clipNumber clip)).owner = some port := owner
  have unused : ((s.taken port Code.freeClip).clip (clipNumber clip)).inUse = false :=
    Clip.inUse_false.mpr ⟨unplayed, unwritten⟩
  show Host.Outcome.next (s.request port Code.freeClip _) = _
  rw [State.request_of_takes takes]
  dsimp only
  rw [State.checked_pass]
  · exact congrArg _ (State.setClip_taken_answer s port _ _ _)
  · simp [firstRefusal, defined, owner, unused]

/-- Settles O37: two ranges meet at the later of their bases, and the checks of each request pass. -/
theorem clipDescriptors : Obligations.ClipDescriptors := by
  refine ⟨fun s c base length => State.overlaps_iff, fun s port clip takes => ⟨?_, ?_, ?_⟩⟩
  · intro base length fill key0 key1 k0 k1 named0 named1 short long filled fits within idle apart lengths
    refine exec_defineClip_accepted takes named0 named1 short long filled fits within idle ?_
    rw [← Bool.not_eq_true, State.overlaps_iff short lengths]
    rintro ⟨d, other, defined, page, above, below, shared⟩
    exact apart d other defined page above below shared
  · intro key0 key1 k0 k1
    exact exec_setKeys_accepted takes
  · exact exec_freeClip_accepted takes

/-! ## Reference faults (R113, R121, R122) -/

theorem Clip.check_of_free {c : Clip} (free : c.defined = false) (port : Port) (kind : RefKind) (index : Option Nat) :
    c.check port kind index = ⟨true, false, false, false⟩ := by
  simp [Clip.check, free]

theorem Clip.check_of_defined {c : Clip} (defined : c.defined = true) (port : Port) (kind : RefKind) (index : Option Nat) :
    (c.check port kind index).undefined = false
      ∧ ((c.check port kind index).noAccess = true ↔ c.keys.cell port = .noAccess)
      ∧ ((c.check port kind index).length = true ↔ ∃ i, index = some i ∧ c.length ≤ i)
      ∧ ((c.check port kind index).readOnly = true
        ↔ kind = .write ∧ (c.keys.cell port = .play ∨ c.keys.cell port = .playNote)) := by
  have found : c.check port kind index = ⟨false, decide (c.keys.cell port = .noAccess),
    match index with | some i => decide (c.length ≤ i) | none => false,
    decide (kind = .write) && (c.keys.cell port = .play || c.keys.cell port = .playNote)⟩ := if_pos defined
  rw [found]
  refine ⟨rfl, decide_eq_true_iff, ?_, by simp⟩
  cases index with
  | none => simp
  | some i => simp

theorem FaultKinds.found_iff (k : FaultKinds) : k.found = true
    ↔ k.undefined = true ∨ k.noAccess = true ∨ k.length = true ∨ k.readOnly = true := by
  simp only [FaultKinds.found, Bool.or_eq_true, or_assoc]

/-- The primary kind is the first in the order of R113 that was found. -/
theorem FaultKinds.primary_first : ∀ k : FaultKinds, k.found = true →
    k.primary < 4 ∧ [k.undefined, k.noAccess, k.length, k.readOnly][k.primary]? = some true
      ∧ ∀ j < k.primary, [k.undefined, k.noAccess, k.length, k.readOnly][j]? = some false := by
  rintro ⟨undefined, noAccess, length, readOnly⟩
  revert undefined noAccess length readOnly
  decide

theorem State.recordFault_of_empty {s : State} {port : Port} (empty : (s.fault port).record = none) (kinds : FaultKinds)
    (clip : Fin 256) (index : Option Nat) (code : Byte) : s.recordFault port kinds clip index code
      = s.setFault port { s.fault port with record := some ⟨kinds, clip, index, code, s.highway.stamp⟩ } := by
  unfold State.recordFault
  rw [empty]

theorem State.recordFault_of_filled {s : State} {port : Port} (filled : (s.fault port).record ≠ none) (kinds : FaultKinds)
    (clip : Fin 256) (index : Option Nat) (code : Byte) : s.recordFault port kinds clip index code
      = s.setFault port { s.fault port with seconds := min 255 ((s.fault port).seconds + 1) } := by
  obtain ⟨r, filled⟩ := Option.ne_none_iff_exists'.mp filled
  unfold State.recordFault
  rw [filled]
  rfl

theorem exec_clearFault_taken {s : State} {port : Port} (takes : s.takes port) : exec (.clearFault port) s
    = .next ((s.setFault port ⟨none, 0⟩).replied port Code.clearFault .ok []) := by
  show Host.Outcome.next (s.request port Code.clearFault _) = _
  rw [State.request_of_takes takes]
  exact congrArg _ (State.taken_answer (s.setFault port ⟨none, 0⟩) port _ _ _)

theorem exec_readFault_of_empty {s : State} {port : Port} (takes : s.takes port) (empty : (s.fault port).record = none) :
    exec (.readFault port) s = .next (s.replied port Code.readFault .empty []) := by
  have empty : ((s.taken port Code.readFault).fault port).record = none := empty
  show Host.Outcome.next (s.request port Code.readFault _) = _
  rw [State.request_of_takes takes]
  rw [empty]
  exact congrArg _ (State.taken_refuse s port _ _)

theorem exec_readFault_of_filled {s : State} {port : Port} {r : FaultRecord} (takes : s.takes port)
    (filled : (s.fault port).record = some r) : exec (.readFault port) s
      = .next ((s.drawn 2).replied port Code.readFault .ok (r.bytes (s.fault port).seconds (s.freeBytes 2))) := by
  have filled : ((s.taken port Code.readFault).fault port).record = some r := filled
  show Host.Outcome.next (s.request port Code.readFault _) = _
  rw [State.request_of_takes takes]
  rw [filled]
  exact congrArg _ (State.taken_answer (s.drawn 2) port _ _ _)

/-- The presence byte and the index, as the statement puts them. -/
theorem faultIndexBytes_eq (index : Option Nat) (free : List Byte) : faultIndexBytes index free
    = flagByte index.isSome :: (match index with | some i => (halfOf i).bytes | none => free) := by
  cases index <;> rfl

/-- Settles O38, with the two free bytes that READ FAULT draws for the bytes of an absent index. -/
theorem referenceFaults : Obligations.ReferenceFaults := by
  refine ⟨fun c port kind index => ?_, fun s port kinds clip index code => ?_, fun s port => exec_clearFault_taken,
    fun s port => exec_readFault_of_empty, fun s port x takes filled => ?_⟩
  · exact ⟨fun free => Clip.check_of_free free port kind index, fun defined => Clip.check_of_defined defined port kind index,
      FaultKinds.found_iff _, FaultKinds.primary_first _⟩
  · exact ⟨fun empty => State.recordFault_of_empty empty kinds clip index code,
      fun filled => State.recordFault_of_filled filled kinds clip index code⟩
  · refine ⟨s.freeBytes 2, s.freeBytes_length 2, (exec_readFault_of_filled takes filled).trans ?_⟩
    unfold FaultRecord.bytes
    rw [faultIndexBytes_eq]
    simp only [List.cons_append, List.nil_append, FaultKinds.byte]
    rfl

/-! ## WRITE PAGE and READ PAGE admitted (R107, R117, R119) -/

theorem exec_writePage_admitted {s : State} {port : Port} {clip : Byte} {index : Half} (codes : PageCodes)
    (takes : s.takes port) (within : index.toNat ≤ 4095)
    (clear : ((s.clip (clipNumber clip)).check port .write (some index.toNat)).found = false)
    (unplayed : (s.clip (clipNumber clip)).plays = 0) : exec (.writePage port clip index codes) s
      = .next ((s.taken port Code.writePage).admitWrite port (clipNumber clip) index.toNat codes) := by
  have clear : (((s.taken port Code.writePage).clip (clipNumber clip)).check port .write (some index.toNat)).found = false :=
    clear
  have unplayed : ((s.taken port Code.writePage).clip (clipNumber clip)).plays = 0 := unplayed
  show Host.Outcome.next (s.request port Code.writePage _) = _
  rw [State.request_of_takes takes]
  dsimp only
  rw [if_neg (not_lt.mpr within), clear, unplayed]
  rfl

theorem exec_readPage_admitted {s : State} {port : Port} {clip : Byte} {index : Half} (takes : s.takes port)
    (within : index.toNat ≤ 4095)
    (clear : ((s.clip (clipNumber clip)).check port .read (some index.toNat)).found = false) :
    exec (.readPage port clip index) s
      = .next ((s.taken port Code.readPage).admitRead port (clipNumber clip) index.toNat) := by
  have clear : (((s.taken port Code.readPage).clip (clipNumber clip)).check port .read (some index.toNat)).found = false :=
    clear
  show Host.Outcome.next (s.request port Code.readPage _) = _
  rw [State.request_of_takes takes]
  dsimp only
  rw [if_neg (not_lt.mpr within), clear]
  rfl

theorem State.grant_of_isSome {s : State} (busy : s.arbiter.bus.isSome = true) : s.grant = s :=
  State.grant_of_busy fun free => by simp [free] at busy

/-- Settles O39: the checks pass, the admission joins the port's pending operation, and a busy bus grants nothing. -/
theorem pageOperationsAdmitted : Obligations.PageOperationsAdmitted := by
  refine fun s port clip index takes within => ⟨fun codes clear unplayed => ?_, fun clear => ?_⟩
  · exact ⟨exec_writePage_admitted codes takes within clear unplayed, fun busy => State.grant_of_isSome busy⟩
  · refine ⟨(exec_readPage_admitted takes within clear).trans ?_, fun busy => State.grant_of_isSome busy⟩
    unfold State.admitRead State.admitOp
    rw [State.note_touches _ port .pageRead _ .arbiter (by decide)]
    rfl

end Sys2Proof.Machine
end

section
/-! PROOFS. What the invariants of the clip store read of the state, and the acts that change it (R104, R105, R115, R124). -/

namespace Sys2Proof.Machine

/-! ## What the invariants read -/

/-- Of a clip: whether it is DEFINED, its page range and fill, its play count and its write-busy count (R104). -/
def Clip.core (x : Clip) : Bool × Nat × Nat × Nat × Nat × Nat := (x.defined, x.base, x.length, x.fill, x.plays, x.writeBusy)

/-- Of a stream: its state, its playlists, its fetch cursor and its next slot (R140). -/
def Stream.core (x : Stream) : StreamState × Option Playlist × Option Playlist × FetchCursor × StreamNext :=
  (x.state, x.current, x.staged, x.cursor, x.next)

/-- Of a whisper entry: its clip and its phase (R157). -/
def Entry.core (e : Entry) : Fin 256 × EntryPhase := (e.clip, e.phase)

/-- Of a prompt player: its position and its fetch cursor (R162). -/
def PromptPlayer.core (x : PromptPlayer) : Option (Fin 64) × PromptCursor := (x.assigned, x.cursor)

/-- Of the arbiter: what names pages (R124, R127, R129, R132). -/
def Arbiter.pages (x : Arbiter) : Option BusOp × List Fetch × PerPort (Option PortOp) × Nat :=
  (x.bus, x.queue, x.pendingOps, x.scrubPointer)

theorem Clip.core_inj {x y : Clip} : x.core = y.core ↔ x.defined = y.defined ∧ x.base = y.base ∧ x.length = y.length
    ∧ x.fill = y.fill ∧ x.plays = y.plays ∧ x.writeBusy = y.writeBusy := by
  simp only [Clip.core, Prod.mk.injEq]

theorem Stream.core_inj {x y : Stream} : x.core = y.core ↔ x.state = y.state ∧ x.current = y.current
    ∧ x.staged = y.staged ∧ x.cursor = y.cursor ∧ x.next = y.next := by
  simp only [Stream.core, Prod.mk.injEq]

/-- From `s` to `t` nothing has changed of what the invariants of the clip store read. -/
structure StoreKept (s t : State) : Prop where
  phase : t.phase = s.phase
  startUp : t.startUp = s.startUp
  clip : ∀ c, (t.clip c).core = (s.clip c).core
  stream : ∀ k, (t.stream k).core = (s.stream k).core
  queue : ∀ p, (t.queue p).map Entry.core = (s.queue p).map Entry.core
  player : ∀ w, (t.player w).core = (s.player w).core
  pages : t.arbiter.pages = s.arbiter.pages

/-- The pieces of the state these are part of. -/
def storeParts : List Part := [.phase, .startUp, .clipStore, .streams, .whisper, .arbiter]

section
variable {s t u : State}

theorem StoreKept.refl (s : State) : StoreKept s s := ⟨rfl, rfl, fun _ => rfl, fun _ => rfl, fun _ => rfl, fun _ => rfl, rfl⟩

theorem StoreKept.trans (h : StoreKept s t) (k : StoreKept t u) : StoreKept s u where
  phase := k.phase.trans h.phase
  startUp := k.startUp.trans h.startUp
  clip c := (k.clip c).trans (h.clip c)
  stream j := (k.stream j).trans (h.stream j)
  queue p := (k.queue p).trans (h.queue p)
  player w := (k.player w).trans (h.player w)
  pages := k.pages.trans h.pages

theorem StoreKept.of_parts (phase : t.phase = s.phase) (startUp : t.startUp = s.startUp)
    (clipStore : t.clipStore = s.clipStore) (streams : t.streams = s.streams) (whisper : t.whisper = s.whisper)
    (pages : t.arbiter.pages = s.arbiter.pages) : StoreKept s t where
  phase := phase
  startUp := startUp
  clip c := by unfold State.clip; rw [clipStore]
  stream k := by unfold State.stream; rw [streams]
  queue p := by unfold State.queue; rw [whisper]
  player w := by unfold State.player; rw [whisper]
  pages := pages

theorem StoreKept.of_touches {parts : List Part} (h : Touches parts s t) (untouched : ∀ x ∈ storeParts, x ∉ parts) :
    StoreKept s t :=
  .of_parts (h .phase (untouched _ (by decide))) (h .startUp (untouched _ (by decide)))
    (h .clipStore (untouched _ (by decide))) (h .streams (untouched _ (by decide)))
    (h .whisper (untouched _ (by decide))) (congrArg Arbiter.pages (h .arbiter (untouched _ (by decide))))

end

/-! ## Records replaced without a change of these -/

section
variable (s : State)

theorem State.setClip_clip (c d : Fin 256) (x : Clip) : (s.setClip c x).clip d = if c = d then x else s.clip d :=
  Table.cell_put ..

theorem State.setStream_kept (k : Fin 16) {x : Stream} (same : x.core = (s.stream k).core) :
    StoreKept s (s.setStream k x) where
  phase := rfl
  startUp := rfl
  clip _ := rfl
  stream j := by
    rw [State.setStream_stream]
    split
    · next equal => rw [← equal, same]
    · rfl
  queue _ := rfl
  player _ := rfl
  pages := rfl

theorem State.setPlayer_kept (w : Fin 16) {x : PromptPlayer} (same : x.core = (s.player w).core) :
    StoreKept s (s.setPlayer w x) where
  phase := rfl
  startUp := rfl
  clip _ := rfl
  stream _ := rfl
  queue _ := rfl
  player v := by
    rw [State.setPlayer_player]
    split
    · next equal => rw [← equal, same]
    · rfl
  pages := rfl

theorem State.setClip_kept (c : Fin 256) {x : Clip} (same : x.core = (s.clip c).core) : StoreKept s (s.setClip c x) where
  phase := rfl
  startUp := rfl
  clip d := by
    rw [State.setClip_clip]
    split
    · next equal => rw [← equal, same]
    · rfl
  stream _ := rfl
  queue _ := rfl
  player _ := rfl
  pages := rfl

theorem State.setQueue_kept (p : Fin 64) {l : List Entry} (same : l.map Entry.core = (s.queue p).map Entry.core) :
    StoreKept s (s.setQueue p l) where
  phase := rfl
  startUp := rfl
  clip _ := rfl
  stream _ := rfl
  queue q := by
    rw [State.setQueue_queue]
    split
    · next equal => rw [← equal, same]
    · rfl
  player _ := rfl
  pages := rfl

theorem State.file_kept (p : Port) (k : EventKind) (o d : Nat) : StoreKept s (s.file p k o d) :=
  .of_touches (s.file_touches p k o d) (by decide)

theorem State.fileOwner_kept (p : Option Port) (k : EventKind) (o d : Nat) : StoreKept s (s.fileOwner p k o d) :=
  .of_touches (s.fileOwner_touches p k o d) (by decide)

theorem State.answer_kept (p : Port) (status : Status) (payload : List Byte) : StoreKept s (s.answer p status payload) :=
  .of_touches (s.answer_touches p status payload) (by decide)

theorem State.setFault_kept (p : Port) (x : FaultState) : StoreKept s (s.setFault p x) :=
  ⟨rfl, rfl, fun _ => rfl, fun _ => rfl, fun _ => rfl, fun _ => rfl, rfl⟩

theorem State.refuseFault_kept (p : Port) (kinds : FaultKinds) (c : Fin 256) (i : Option Nat) (code : Byte) :
    StoreKept s (s.refuseFault p kinds c i code) := by
  refine StoreKept.trans ?_ (State.answer_kept _ p _ _)
  unfold State.recordFault
  split
  · exact s.setFault_kept p _
  · exact s.setFault_kept p _

theorem State.note_kept (p : Port) (kind : NoteKind) (c : Fin 256) : StoreKept s (s.note p kind c) := by
  unfold State.note
  split
  · refine StoreKept.trans ?_ (State.fileOwner_kept _ _ _ _ _)
    exact s.setClip_kept c rfl
  · exact .refl s

theorem State.addListener_kept (k : Option (Fin 16)) : StoreKept s (s.addListener k) := by
  cases k with
  | none => exact .refl s
  | some k => exact s.setStream_kept k rfl

theorem State.dropListener_kept (k : Option (Fin 16)) : StoreKept s (s.dropListener k) := by
  cases k with
  | none => exact .refl s
  | some k => exact s.setStream_kept k rfl

theorem State.setPos_kept (p : Fin 64) (x : Position) : StoreKept s (s.setPos p x) :=
  .of_touches (s.setPos_touches p x) (by decide)

theorem State.announceEnded_kept (p : Fin 64) (cancelled : Bool) : StoreKept s (s.announceEnded p cancelled) := by
  unfold State.announceEnded
  dsimp only
  refine StoreKept.trans ?_ (State.fileOwner_kept _ _ _ _ _)
  split
  · exact (s.setPos_kept p _).trans (State.dropListener_kept _ _)
  · exact s.setPos_kept p _
  · exact .refl s
  · exact .refl s
  · exact .refl s

theorem withAnnounceOrigin_core (port : Port) (q : List Entry) :
    (withAnnounceOrigin port q).map Entry.core = q.map Entry.core := by
  unfold withAnnounceOrigin
  rw [List.map_map]
  refine List.map_congr_left fun e _ => ?_
  show Entry.core (match e.kind with | .announce => { e with origin := port } | .prompt => e) = e.core
  cases e.kind <;> rfl

theorem State.passTo_kept (p : Fin 64) (port : Port) : StoreKept s (s.passTo p port) :=
  (s.setPos_kept p _).trans (State.setQueue_kept _ p (withAnnounceOrigin_core port _))

end

/-! ## The acts -/

/-- The clip of a reference that R114 accepts: DEFINED, with no page write in flight. -/
def State.playable (s : State) (c : Fin 256) : Prop := (s.clip c).defined = true ∧ (s.clip c).writeBusy = 0

theorem StoreKept.playable {s t : State} (h : StoreKept s t) {c : Fin 256} (playable : s.playable c) : t.playable c := by
  obtain ⟨defined, -, -, -, -, writeBusy⟩ := Clip.core_inj.mp (h.clip c)
  exact ⟨defined.trans playable.1, writeBusy.trans playable.2⟩

/-- Acts that raise no count of a clip and define none. -/
inductive Act : State → State → Prop
  | kept {s t} (same : StoreKept s t) : Act s t
  | granted {s} (running : s.phase = .running) : Act s s.grant
  | fetched {s f} (bus : s.arbiter.bus = some (.fetch f)) (upsets) : Act s (s.fetchCompleted f upsets)
  | written {s p clip index page codes noted} (bus : s.arbiter.bus = some (.port p (.write clip index page codes noted))) :
      Act s (s.writeCompleted p clip index page codes noted)
  | readOut {s p clip index page} (bus : s.arbiter.bus = some (.port p (.read clip index page))) (upsets) :
      Act s (s.readCompleted p clip index page upsets)
  | scrubbed {s} (bus : s.arbiter.bus = some .scrub) (upsets) : Act s (s.scrubCompleted upsets)
  | admitted {s c index op} (running : s.phase = .running) (defined : (s.clip c).defined = true)
      (within : index < (s.clip c).length) (page : op.page = (s.clip c).base + index) (port) : Act s (s.admitOp port op)
  | requested {s} (k) : Act s (s.streamRequest k)
  | ended {s} (k) : Act s (s.endIfDone k)
  | emptied {s} (k) : Act s (s.setStream k { s.stream k with next := .empty })
  | stopped {s} (k) : Act s (s.stopStream k)
  | prompted {s} (w) : Act s (s.promptRequest w)
  | sounded {s} : Act s s.soundHeads
  | played {s p w e rest} (queue : s.queue p = e :: rest) (player : s.playerOf p = some w) : Act s (s.entryDone p w e rest)
  | flushed {s} (p cause chosen) : Act s (s.flush p cause chosen)
  | assigned {s} : Act s s.assignPlayers

/-- A playlist taken and another given up, before the stream is set (R115). -/
def State.traded (s : State) (p : Port) (l : Playlist) (given : Option Playlist) : State :=
  (s.acceptItems p l.items).dropPlays given

/-- A list staged on a stream, in the place of the one staged before (R143). -/
def State.stagedOn (s : State) (p : Port) (k : Fin 16) (l : Playlist) : State :=
  (s.traded p l (s.stream k).staged).setStream k { s.stream k with staged := some l }

/-- What LOAD STREAM leaves before its request: an ENDED stream is restarted, a RUNNING one stages the list, and switches to
it when its cursor is exhausted (R143). -/
def State.loaded (s : State) (p : Port) (k : Fin 16) (l : Playlist) : State :=
  if (s.stream k).state = .ended then (s.traded p l (s.stream k).current).setStream k ((s.stream k).restarted l)
  else if (s.stream k).cursor = .exhausted then (s.stagedOn p k l).switch k (s.stream k).lastItem
  else s.stagedOn p k l

/-- What START STREAM leaves before its request (R142). -/
def State.begun (s : State) (p : Port) (k : Fin 16) (l : Playlist) : State :=
  (s.acceptItems p l.items).setStream k ((s.stream k).started p l)

/-- Acts that raise a count of a clip (R115, R117). -/
inductive Gain : State → State → Prop
  | started {s k l} (stopped : (s.stream k).state = .stopped) (playable : ∀ i ∈ l.items, s.playable i.clip) (p) :
      Gain s (s.begun p k l)
  | loaded {s k l} (going : (s.stream k).state ≠ .stopped) (playable : ∀ i ∈ l.items, s.playable i.clip) (p) :
      Gain s (s.loaded p k l)
  | queued {s p e place} (playable : s.playable e.clip) (waiting : e.phase = .waiting)
      (placed : place = (fun q => q ++ [e]) ∨ place = placeAnnounce e) (port) : Gain s (s.enqueued p port e place)
  | marked {s c} (unplayed : (s.clip c).plays = 0) :
      Gain s (s.setClip c { s.clip c with writeBusy := (s.clip c).writeBusy + 1 })

/-- Acts that define or free clips, or bring the part up. -/
inductive Reshape : State → State → Prop
  | reset {s t} (same : StoreKept State.reset t) : Reshape s t
  | shifted {s} (shifting : s.phase = .shifting) (word) :
      Reshape s { s.bothReady with phase := .preparing, startUp := startUpOf word }
  | prepared {s} (preparing : s.phase = .preparing) (memory highway) :
      Reshape s { s with phase := .running, arbiter := Arbiter.atReset, memory := memory, highway := highway }
  | defined {s c x} (running : s.phase = .running) (defined : x.defined = true) (unplayed : x.plays = 0)
      (unwritten : x.writeBusy = 0) (short : 1 ≤ x.length) (long : x.length ≤ 4096) (filled : 1 ≤ x.fill)
      (fits : x.fill ≤ 256) (within : x.base + x.length ≤ s.pageCount)
      (idle : (s.clip c).defined = true → (s.clip c).plays = 0 ∧ (s.clip c).writeBusy = 0)
      (apart : s.overlaps c x.base x.length = false) : Reshape s (s.setClip c x)
  | freed {s c} (unplayed : (s.clip c).plays = 0) (unwritten : (s.clip c).writeBusy = 0) :
      Reshape s (s.setClip c Clip.freeContents)

/-- An act of any kind, and any number of them. -/
def Move (s t : State) : Prop := Act s t ∨ Gain s t ∨ Reshape s t

structure Moves (s t : State) : Prop where
  path : Relation.ReflTransGen Move s t

theorem Moves.refl (s : State) : Moves s s := ⟨.refl⟩

theorem Moves.trans {s t u : State} (h : Moves s t) (k : Moves t u) : Moves s u := ⟨h.path.trans k.path⟩

theorem Act.moves {s t : State} (h : Act s t) : Moves s t := ⟨.single (.inl h)⟩

theorem Gain.moves {s t : State} (h : Gain s t) : Moves s t := ⟨.single (.inr (.inl h))⟩

theorem Reshape.moves {s t : State} (h : Reshape s t) : Moves s t := ⟨.single (.inr (.inr h))⟩

theorem StoreKept.moves {s t : State} (h : StoreKept s t) : Moves s t := (Act.kept h).moves

/-- What every act keeps, any number of them keep. -/
theorem Moves.keeps {P : State → Prop} (each : ∀ s t, Move s t → P s → P t) {s t : State} (h : Moves s t) (start : P s) :
    P t := by
  obtain ⟨path⟩ := h
  induction path with
  | refl => exact start
  | tail _ move ih => exact each _ _ move ih

theorem Moves.foldl {α : Type} {f : State → α → State} (each : ∀ s x, Moves s (f s x)) (l : List α) (s : State) :
    Moves s (l.foldl f s) := foldl_keeps (P := Moves s) (fun t x h => h.trans (each t x)) l s (.refl s)

theorem Moves.foldl_pair {α β : Type} {f : β × State → α → β × State} (each : ∀ a x, Moves a.2 (f a x).2) (l : List α)
    (a : β × State) : Moves a.2 (l.foldl f a).2 :=
  foldl_keeps (P := fun b : β × State => Moves a.2 b.2) (fun b x h => h.trans (each b x)) l a (.refl a.2)

theorem Moves.answered {s t : State} (h : Moves s t) (p : Port) (status : Status) (payload : List Byte) :
    Moves s (t.answer p status payload) := h.trans (State.answer_kept _ p status payload).moves

end Sys2Proof.Machine
end

section
/-! PROOFS. Every command is a sequence of these acts (R4, R22, R115, R124, R176). -/

namespace Sys2Proof.Machine

theorem Moves.of_touches {parts : List Part} {s t : State} (h : Touches parts s t) (untouched : ∀ x ∈ storeParts, x ∉ parts) :
    Moves s t := (StoreKept.of_touches h untouched).moves

section
variable (s : State)

/-! ## Streams at a frame completion (R147, R150, R151) -/

theorem State.streamPlay_moves (k : Fin 16) (y : StreamPlaying) : Moves s (s.streamPlay k y).2 := by
  unfold State.streamPlay
  dsimp only
  split
  · exact StoreKept.moves (s.setStream_kept k rfl)
  · refine Moves.trans ?_ (Act.ended k).moves
    exact StoreKept.moves (s.setStream_kept k rfl)

/-- The page leaves the next slot, and then enters the playing slot. -/
theorem State.streamTake_moves (k : Fin 16) (page : StreamPage) : Moves s (s.streamTake k page) := by
  have emptied : Moves s (s.setStream k { s.stream k with next := .empty }) := (Act.emptied k).moves
  refine Moves.trans (emptied.trans (StoreKept.moves ?_)) (Act.requested k).moves
  refine ⟨rfl, rfl, fun _ => rfl, fun j => ?_, fun _ => rfl, fun _ => rfl, rfl⟩
  rw [State.setStream_stream, State.setStream_stream]
  split
  · rfl
  · rfl

theorem State.streamStarve_moves (k : Fin 16) (item : Nat) : Moves s (s.streamStarve k item) := by
  unfold State.streamStarve
  dsimp only
  split
  · exact .refl s
  · generalize starved : s.setStream k _ = t
    have kept : StoreKept s t := by
      rw [← starved]
      exact s.setStream_kept k rfl
    split
    · exact kept.moves
    · exact (kept.trans (State.fileOwner_kept _ _ _ _ _)).moves

theorem State.streamSample_moves (k : Fin 16) : Moves s (s.streamSample k).2 := by
  unfold State.streamSample
  split
  · split
    · exact s.streamPlay_moves k _
    · split
      · exact (s.streamTake_moves k _).trans (State.streamPlay_moves _ k _)
      · exact s.streamStarve_moves k _
      · exact (Act.ended k).moves
  · exact .refl s
  · exact .refl s

theorem streamSamples_moves (k : Fin 16) (n : Nat) (s : State) : Moves s (State.streamSamples k n s).2 := by
  induction n generalizing s with
  | zero => exact .refl s
  | succ n ih => exact (s.streamSample_moves k).trans (ih _)

theorem State.streamFrame_moves (k : Fin 16) : Moves s (s.streamFrame k).2 := by
  by_cases running : (s.stream k).state = .running
  · rw [State.streamFrame_of_running running]
    dsimp only
    exact streamSamples_moves k 32 s
  · rw [State.streamFrame_of_not_running running]
    exact .refl s

theorem State.streamFrames_moves : Moves s s.streamFrames.2 :=
  Moves.foldl_pair (β := Table 16 Frame) (fun a k => a.2.streamFrame_moves k) (List.finRange 16)
    (Table.fill 16 Frame.zero, s)

/-! ## Whisper frames and completions (R164 to R166) -/

theorem State.promptPlay_moves (w : Fin 16) (y : PromptPlaying) : Moves s (s.promptPlay w y).2 :=
  StoreKept.moves (s.setPlayer_kept w rfl)

theorem State.promptTake_moves (w : Fin 16) (page : PromptPage) : Moves s (s.promptTake w page) := by
  refine Moves.trans ?_ (Act.prompted w).moves
  exact StoreKept.moves (s.setPlayer_kept w rfl)

theorem State.whisperSample_moves (p : Fin 64) (w : Fin 16) : Moves s (s.whisperSample p w).2 := by
  unfold State.whisperSample
  split
  · exact s.promptPlay_moves w _
  · exact (s.promptTake_moves w _).trans (State.promptPlay_moves _ w _)
  · exact (s.setPos_kept p _).moves
  · exact .refl s

theorem whisperSamples_moves (p : Fin 64) (w : Fin 16) (n : Nat) (s : State) : Moves s (State.whisperSamples p w n s).2 := by
  induction n generalizing s with
  | zero => exact .refl s
  | succ n ih => exact (s.whisperSample_moves p w).trans (ih _)

theorem State.whisperFrame_moves (p : Fin 64) : Moves s (s.whisperFrame p).2 := by
  cases player : s.playerOf p with
  | none =>
    rw [State.whisperFrame_of_unheld player]
    exact .refl s
  | some w =>
    by_cases sounds : s.sounding p = true
    · rw [State.whisperFrame_of_sounding player sounds]
      dsimp only
      exact whisperSamples_moves p w 32 s
    · rw [State.whisperFrame_of_silent (Bool.eq_false_iff.mpr sounds)]
      exact .refl s

theorem State.whisperFrames_moves : Moves s s.whisperFrames.2 :=
  Moves.foldl_pair (β := Table 64 Frame) (fun a p => a.2.whisperFrame_moves p) (List.finRange 64)
    (Table.fill 64 Frame.zero, s)

theorem State.entryEnded_kept (p : Fin 64) (w : Fin 16) (e : Entry) (rest : List Entry) :
    StoreKept (s.entryDone p w e rest) (s.entryEnded p w e rest) := by
  unfold State.entryEnded
  split
  · exact State.announceEnded_kept _ p false
  · exact .refl _

theorem State.completeHead_moves (p : Fin 64) : Moves s (s.completeHead p) := by
  cases queue : s.queue p with
  | nil =>
    have idle : s.completeHead p = s := by unfold State.completeHead; rw [queue]; rfl
    rw [idle]
    exact .refl s
  | cons e rest =>
    cases player : s.playerOf p with
    | none =>
      have idle : s.completeHead p = s := by unfold State.completeHead; rw [queue, player]; rfl
      rw [idle]
      exact .refl s
    | some w =>
      rw [State.completeHead_eq player queue, State.completeEntry_eq queue]
      split
      · exact ((Act.played queue player).moves.trans (s.entryEnded_kept p w e rest).moves).trans Act.assigned.moves
      · exact .refl s

/-! ## Frame completions (R4) -/

theorem State.framed_moves : Moves s s.framed := by
  have streams : Moves s s.stamped.echoFrames.2.suppressFrames.streamFrames.2 :=
    (((Moves.of_touches (Touches.of_highway s _) (by decide) : Moves s s.stamped).trans
      (.of_touches (State.echoFrames_touches _) (by decide))).trans
      (.of_touches (State.suppressFrames_touches _) (by decide))).trans (State.streamFrames_moves _)
  have whisper : Moves s s.preMix := (streams.trans Act.sounded.moves).trans (State.whisperFrames_moves _)
  have mixed := fun m => (whisper.trans (.of_touches s.preMix.updateCoachDuck_touches (by decide))).trans
    (Moves.of_touches (State.mix_touches _ m) (by decide))
  exact (mixed _).trans (.of_touches ((State.beginFrame_touches _).trans (State.pastFirstFrame_touches _)) (by decide))

theorem State.settle_moves : Moves s s.settle := by
  have debounced : Moves s s.settleDebounce := .of_touches s.settleDebounce_touches (by decide)
  unfold State.settle State.settleFrame
  split
  · rw [State.completeFrame_eq]
    exact (debounced.trans (State.framed_moves _)).trans (Moves.foldl State.completeHead_moves _ _)
  · exact debounced

/-! ## Positions (R25, R27, R30) -/

theorem State.releasing_moves {cause : FlushCause} (other : cause ≠ .cancel) (p : Fin 64) :
    Moves s (s.releasing p cause) := by
  rw [State.releasing_eq other]
  refine Moves.trans ?_ (State.setPos_kept _ p _).moves
  refine Moves.trans ?_ (Moves.of_touches (State.unbindTrunk_touches _ _) (by decide))
  refine Moves.trans ?_ (State.dropListener_kept _ _).moves
  have flushed : Moves s (s.flush p cause fun _ => true) := (Act.flushed p cause _).moves
  split
  · exact flushed.trans (State.fileOwner_kept _ _ _ _ _).moves
  · exact flushed

theorem State.closing_moves {cause : FlushCause} (other : cause ≠ .cancel) (p : Fin 64) : Moves s (s.closing p cause) :=
  (Act.flushed p cause _).moves.trans (.of_touches (State.closing_after_flush other s p) (by decide))

theorem State.connecting_kept (p t : Fin 64) (state : PositionState) (stream : Option (Fin 16)) :
    StoreKept s (s.connecting p t state stream) := by
  unfold State.connecting
  dsimp only
  refine StoreKept.trans ?_ (State.addListener_kept _ stream)
  have bound := fun x => (s.setPos_kept p x).trans (.of_touches (State.bindTrunk_touches _ t p) (by decide))
  have cleared := fun x => (bound x).trans (.of_touches (State.clearCanceller_touches _ p) (by decide))
  have untapped := fun x => (cleared x).trans (.of_touches (State.dropListenerTaps_touches _ p) (by decide))
  exact (untapped _).trans (.of_touches (Touches.of_suppress _ _) (by decide))

/-! ## RESET PORT (R41, R42, R156, R161, R176) -/

theorem State.inherit_kept (port : Port) (p : Fin 64) : StoreKept s (s.inherit port p) :=
  (s.passTo_kept p port.other).trans (State.file_kept _ _ _ _ _)

theorem State.tearDown_moves (p : Fin 64) : Moves s (s.tearDown p) :=
  State.tearDown_keeps (P := Moves s) (fun t q h => h.trans (t.releasing_moves (by decide) q))
    (fun t q h => h.trans (t.closing_moves (by decide) q)) (.refl s) p

theorem State.resetPositions_moves (port : Port) : Moves s (s.resetPositions port) := by
  rw [State.resetPositions_eq]
  have handed : Moves s (s.handedOver port) := Moves.foldl (fun t p => (t.inherit_kept port p).moves) _ s
  have cleared := handed.trans (.of_touches (State.clearOffersTo_touches _ port) (by decide))
  exact cleared.trans (Moves.foldl State.tearDown_moves _ _)

theorem State.resetStream_moves (k : Fin 16) : Moves s (s.resetStream k) := by
  rw [State.resetStream_eq]
  have unheard : ∀ t : State, Moves t (t.setStream k { t.stream k with listeners := 0 }) := fun t =>
    StoreKept.moves (t.setStream_kept k rfl)
  exact (Moves.trans (.of_touches (s.unnamed_touches k) (by decide)) (unheard _)).trans (Act.stopped k).moves

theorem State.resetLocal_kept (port : Port) : StoreKept s (s.resetLocal port) :=
  ⟨rfl, rfl, fun _ => rfl, fun _ => rfl, fun _ => rfl, fun _ => rfl, rfl⟩

theorem State.resetEnd_kept (port : Port) : StoreKept s (s.resetEnd port) :=
  ((StoreKept.of_touches (s.removeTapsOwned_touches port) (by decide)).trans (State.resetLocal_kept _ port)).trans
    (State.file_kept _ _ _ _ _)

theorem State.resetTeardown_moves (port : Port) : Moves s (s.resetTeardown port) := by
  rw [State.resetTeardown_eq_tornDown]
  have streams : Moves s ((s.resetPositions port).resetStreams port) :=
    (s.resetPositions_moves port).trans (Moves.foldl State.resetStream_moves _ _)
  have whispers : Moves s (s.tornDown port) :=
    streams.trans (Moves.foldl (fun t p => (Act.flushed p .portReset fun e => e.origin = port).moves) _ _)
  exact (whispers.trans Act.assigned.moves).trans (State.resetEnd_kept _ port).moves

/-! ## References for play (R114, R143, R158) -/

end

theorem State.playable_of_clear {s : State} {c : Fin 256} {p : Port}
    (clear : ((s.clip c).check p .play none).found = false) (still : (s.clip c).writeBusy = 0) : s.playable c := by
  refine ⟨?_, still⟩
  by_contra free
  rw [Clip.check_of_free (Bool.eq_false_iff.mpr free)] at clear
  exact nomatch clear

theorem State.playable_of_passed {s : State} {p : Port} {items : List Item} (clear : s.faultyItem p items = none)
    (still : s.itemsBusy items = false) : ∀ i ∈ items, s.playable i.clip := by
  induction items with
  | nil => exact fun i member => nomatch member
  | cons i items ih =>
    unfold State.faultyItem at clear
    dsimp only at clear
    rw [State.itemsBusy, List.any_cons, Bool.or_eq_false_iff, decide_eq_false_iff_not, Nat.not_lt, Nat.le_zero] at still
    split at clear
    · exact nomatch clear
    · next first =>
      exact List.forall_mem_cons.mpr
        ⟨State.playable_of_clear (Bool.eq_false_iff.mpr first) still.1, ih clear still.2⟩

theorem State.checkItems_moves {s : State} {port : Port} {code : Byte} {items : List Item} {effect : State → State}
    (passed : (∀ i ∈ items, s.playable i.clip) → Moves s (effect s)) : Moves s (s.checkItems port code items effect) := by
  unfold State.checkItems
  split
  · exact (s.refuseFault_kept port _ _ _ code).moves
  · next clear =>
    split
    · exact (s.answer_kept port _ _).moves
    · next still => exact passed (State.playable_of_passed clear (Bool.eq_false_iff.mpr still))

theorem State.checkEntry_moves {s : State} {port : Port} {code : Byte} {p : Fin 64} {c : Fin 256} {effect : State → State}
    (passed : s.playable c → Moves s (effect s)) : Moves s (s.checkEntry port code p c effect) := by
  unfold State.checkEntry
  split
  · exact (s.answer_kept port _ _).moves
  · exact State.checkItems_moves fun playable => passed (playable _ (List.mem_singleton_self _))

theorem State.queueEntry_moves {s : State} {e : Entry} {place : List Entry → List Entry} (playable : s.playable e.clip)
    (waiting : e.phase = .waiting) (placed : place = (fun q => q ++ [e]) ∨ place = placeAnnounce e) (p : Fin 64) (port : Port) :
    Moves s (s.queueEntry p port e place) :=
  (Gain.queued playable waiting placed port).moves.trans Act.assigned.moves

theorem State.acceptItems_stream (s : State) (p : Port) (items : List Item) : (s.acceptItems p items).stream = s.stream := by
  unfold State.stream
  rw [s.acceptItems_touches p items .streams (by decide)]

theorem State.startAccepted_moves {s : State} {k : Fin 16} {l : Playlist} (stopped : (s.stream k).state = .stopped)
    (playable : ∀ i ∈ l.items, s.playable i.clip) (p : Port) : Moves s (s.startAccepted p k l) := by
  have begun : Moves s (s.begun p k l) := (Gain.started stopped playable p).moves
  have same : s.startAccepted p k l = ((s.begun p k l).streamRequest k).answer p .ok [] := by
    unfold State.startAccepted State.begun
    dsimp only
    rw [State.acceptItems_stream]
  rw [same]
  exact (begun.trans (Act.requested k).moves).answered p _ _

/-- LOAD STREAM leaves its stream loaded, and may place a request. -/
theorem State.loadAccepted_eq {s : State} {k : Fin 16} (going : (s.stream k).state ≠ .stopped) (p : Port) (l : Playlist) :
    s.loadAccepted p k l = (s.loaded p k l).answer p .ok []
      ∨ s.loadAccepted p k l = ((s.loaded p k l).streamRequest k).answer p .ok [] := by
  unfold State.loadAccepted State.loaded
  dsimp only
  rw [State.acceptItems_stream]
  cases state : (s.stream k).state with
  | stopped => exact absurd state going
  | ended => exact .inr rfl
  | running =>
    dsimp only
    rw [if_neg nofun, ← state]
    split
    · next exhausted => rw [if_pos exhausted]; exact .inr rfl
    · next further => rw [if_neg further]; exact .inl rfl

theorem State.loadAccepted_moves {s : State} {k : Fin 16} {l : Playlist} (going : (s.stream k).state ≠ .stopped)
    (playable : ∀ i ∈ l.items, s.playable i.clip) (p : Port) : Moves s (s.loadAccepted p k l) := by
  have loaded : Moves s (s.loaded p k l) := (Gain.loaded going playable p).moves
  obtain same | same := State.loadAccepted_eq going p l <;> rw [same]
  · exact loaded.answered p _ _
  · exact (loaded.trans (Act.requested k).moves).answered p _ _

theorem State.connectPrompt_moves {s : State} {c : Fin 256} (playable : s.playable c) (port : Port) (p t : Fin 64)
    (gain : Half) (stream : Option (Fin 16)) : Moves s (s.connectPrompt port p t c gain stream) := by
  have connecting := s.connecting_kept p t .announce stream
  exact (connecting.moves.trans (State.queueEntry_moves (connecting.playable playable) rfl (.inr rfl) p port)).answered
    port _ _

/-! ## What a request's checks give -/

theorem Moves.of_request {s t : State} {p : Port} {code : Byte} {body : State → State}
    (h : (Host.Outcome.next (s.request p code body) : Host.Outcome State Fault Refusal) = .next t)
    (kept : ∀ u, u.phase = .running → Moves u (body u)) : Moves s t := by
  cases h
  have ports : ∀ x, Moves s { s with ports := x } := fun x => .of_touches (Touches.of_ports s x) (by decide)
  exact State.request_keeps (P := Moves s) (.refl s) ports fun takes => (ports _).trans (kept (s.taken p code) takes.1)

theorem State.refuse_moves (s : State) (p : Port) (status : Status) : Moves s (s.refuse p status) :=
  (s.answer_kept p status []).moves

theorem State.withNumber_moves {n : Nat} {s : State} {p : Port} {b : Byte} {body : Fin n → State → State}
    (found : ∀ i, Moves s (body i s)) : Moves s (s.withNumber p b body) :=
  State.withNumber_keeps (s.refuse_moves p) found

theorem State.checked_moves {s : State} {p : Port} {checks : List (Bool × Status)} {effect : State → State}
    (passed : (∀ c ∈ checks, c.1 = false) → Moves s (effect s)) : Moves s (s.checked p checks effect) :=
  State.checked_keeps (s.refuse_moves p) fun h => passed (firstRefusal_eq_none.mp h)

/-! ## Requests for clips and pages (R108 to R111, R117, R119) -/

theorem State.defineClip_moves {s : State} (running : s.phase = .running) (port : Port) (c : Fin 256)
    (base length fill : Nat) (keys : PerPort Key) : Moves s (s.defineClip port c base length fill keys) := by
  refine State.checked_moves fun passed => ?_
  simp only [List.forall_mem_cons, Bool.or_eq_false_iff, Bool.and_eq_false_imp, decide_eq_false_iff_not, Nat.not_lt,
    Clip.inUse_false] at passed
  obtain ⟨⟨⟨⟨⟨short, long⟩, filled⟩, fits⟩, within⟩, -, idle, apart, -⟩ := passed
  exact (Reshape.defined (x := (s.clip c).redefined port base length fill keys) running rfl rfl rfl short long filled fits
    within idle apart).moves.answered port _ _

/-- A page that passes the reference check lies in its clip (R113). -/
theorem Clip.within_of_check {x : Clip} {port : Port} {kind : RefKind} {index : Nat}
    (clear : (x.check port kind (some index)).found = false) : x.defined = true ∧ index < x.length := by
  have defined : x.defined = true := by
    by_contra free
    rw [Clip.check_of_free (Bool.eq_false_iff.mpr free)] at clear
    exact nomatch clear
  obtain ⟨-, -, long, -⟩ := Clip.check_of_defined defined port kind (some index)
  refine ⟨defined, Nat.lt_of_not_le fun beyond => ?_⟩
  have found := (FaultKinds.found_iff _).mpr (.inr (.inr (.inl (long.mpr ⟨index, rfl, beyond⟩))))
  exact absurd (found.symm.trans clear) (by decide)

theorem State.admitWrite_moves {s : State} (running : s.phase = .running) {port : Port} {c : Fin 256} {index : Nat}
    (clear : ((s.clip c).check port .write (some index)).found = false) (unplayed : (s.clip c).plays = 0)
    (codes : PageCodes) : Moves s (s.admitWrite port c index codes) := by
  obtain ⟨defined, within⟩ := Clip.within_of_check clear
  refine (Gain.marked unplayed).moves.trans (Act.admitted (c := c) (index := index) ?_ ?_ ?_ ?_ port).moves
  · exact running
  · rw [State.setClip_clip, if_pos rfl]; exact defined
  · rw [State.setClip_clip, if_pos rfl]; exact within
  · rw [State.setClip_clip, if_pos rfl]; rfl

theorem State.admitRead_moves {s : State} (running : s.phase = .running) {port : Port} {c : Fin 256} {index : Nat}
    (clear : ((s.clip c).check port .read (some index)).found = false) : Moves s (s.admitRead port c index) := by
  obtain ⟨defined, within⟩ := Clip.within_of_check clear
  have noted := s.note_kept port .pageRead c
  refine noted.moves.trans (Act.admitted (c := c) (index := index) (noted.phase.trans running) ?_ ?_ ?_ port).moves
  · rw [State.note_clip]; exact defined
  · rw [State.note_clip]; exact within
  · rw [State.note_clip]; rfl

/-! ## Every command -/

theorem exec_position_moves {c : Instr} {s t : State} (h : exec c s = .next t)
    (spared : ¬∀ x ∈ storeParts, x ∉ commandParts c) (position : .positions ∈ commandParts c) : Moves s t := by
  cases c with
  | pinReset =>
    cases h
    exact Reshape.moves (.reset (.of_parts rfl rfl rfl rfl rfl rfl))
  | cycle trunkRx agentRx agentSig =>
    obtain e | ⟨-, e⟩ := cycle_next h <;> rw [e]
    · exact .refl s
    · exact s.settle_moves.trans (.of_touches (State.cycled_touches _ _ _ _) (by decide))
  | frameCompletion =>
    cases h
    split
    · exact s.settle_moves
    · exact .refl s
  | syncLossMissingPulse =>
    obtain e | e := syncLossMissingPulse_next h <;> rw [e]
    · exact .refl s
    · exact s.settle_moves.trans (.of_touches (State.loseSync_touches _ _ _) (by decide))
  | fsPulse bit =>
    obtain e | ⟨-, e⟩ := fsPulse_next h <;> rw [e]
    · exact .refl s
    · exact s.settle_moves.trans (.of_touches (State.pulsed_touches _ bit) (by decide))
  | resetPort port => exact Moves.of_request h fun u _ => (u.resetTeardown_moves port).answered port _ _
  | closePosition port position =>
    exact Moves.of_request h fun u _ => State.withNumber_moves fun p => State.checked_moves fun _ =>
      ((u.closing_moves (by decide) p).trans Act.assigned.moves).answered port _ _
  | connect port position trunk prompt stream =>
    refine Moves.of_request h fun u _ => ?_
    split
    · refine State.checked_moves fun _ => ?_
      cases prompt with
      | none => exact (u.connecting_kept _ _ _ _).moves.answered port _ _
      | some x => exact State.checkEntry_moves fun playable => State.connectPrompt_moves playable port _ _ _ _
    · exact u.refuse_moves port _
  | hold port position stream =>
    refine Moves.of_request h fun u _ => ?_
    split
    · exact State.checked_moves fun _ => (((u.setPos_kept _ _).trans (State.dropListener_kept _ _)).trans
        (State.addListener_kept _ _)).moves.answered port _ _
    · exact u.refuse_moves port _
  | retrieve port position =>
    refine Moves.of_request h fun u _ => State.withNumber_moves fun p => State.checked_moves fun _ => ?_
    unfold State.retrieveAccepted
    dsimp only
    split
    · exact (u.setPos_kept p _).moves.answered port _ _
    · exact ((u.setPos_kept p _).trans (State.dropListener_kept _ _)).moves.answered port _ _
  | release port position =>
    exact Moves.of_request h fun u _ => State.withNumber_moves fun p => State.checked_moves fun _ =>
      ((u.releasing_moves (by decide) p).trans Act.assigned.moves).answered port _ _
  | acceptPosition port position =>
    exact Moves.of_request h fun u _ => State.withNumber_moves fun p => State.checked_moves fun _ =>
      ((u.passTo_kept p port).trans (State.fileOwner_kept _ _ _ _ _)).moves.answered port _ _
  | cancelWhisper port position =>
    exact Moves.of_request h fun u _ => State.withNumber_moves fun p => State.checked_moves fun _ =>
      ((Act.flushed p .cancel _).moves.trans Act.assigned.moves).answered port _ _
  | openPosition | setPosition | setTail | offerPositionOffer | offerPositionWithdraw | positionStats =>
    exact absurd (by simp [commandParts, storeParts]) spared
  | _ => exact absurd position (by simp [commandParts, grantParts])

theorem exec_store_moves {c : Instr} {s t : State} (h : exec c s = .next t)
    (spared : ¬∀ x ∈ storeParts, x ∉ commandParts c) (position : .positions ∉ commandParts c) : Moves s t := by
  cases c with
  | startUpWordShifted word =>
    obtain rfl | ⟨shifting, rfl⟩ := startUpWordShifted_next h
    · exact .refl _
    · exact (Reshape.shifted shifting word).moves
  | startUpMemoryPreparationComplete =>
    obtain rfl | ⟨preparing, rfl⟩ := startUpMemoryPreparationComplete_next h
    · exact .refl _
    · exact (Reshape.prepared preparing _ _).moves
  | refreshTimerExpiry =>
    replace h : execRefreshTimerExpiry s = .next t := h
    unfold execRefreshTimerExpiry at h
    split at h <;> cases h
    · next running =>
      have counted : StoreKept s (s.setArbiter { s.arbiter with owed := min 16 (s.arbiter.owed + 1) }) :=
        .of_parts rfl rfl rfl rfl rfl rfl
      exact counted.moves.trans (Act.moves (.granted running))
    · exact .refl _
    · exact .refl _
  | pageFetchCompletion upsets =>
    obtain rfl | ⟨f, bus, rfl⟩ := pageFetchCompletion_next h
    · exact .refl _
    · exact (Act.fetched bus upsets).moves
  | portPageWriteCompletion =>
    obtain rfl | ⟨p, clip, index, page, codes, noted, bus, rfl⟩ := portPageWriteCompletion_next h
    · exact .refl _
    · exact (Act.written bus).moves
  | portPageReadCompletion upsets =>
    obtain rfl | ⟨p, clip, index, page, bus, rfl⟩ := portPageReadCompletion_next h
    · exact .refl _
    · exact (Act.readOut bus upsets).moves
  | scrubStepCompletion upsets =>
    obtain rfl | ⟨bus, rfl⟩ := scrubStepCompletion_next h
    · exact .refl _
    · exact (Act.scrubbed bus upsets).moves
  | defineClip port clip base length fill key0 key1 =>
    refine Moves.of_request h fun u running => ?_
    split
    · exact State.defineClip_moves running port _ _ _ _ _
    · exact u.refuse_moves port _
  | setKeys port clip key0 key1 =>
    refine Moves.of_request h fun u _ => ?_
    dsimp only
    split
    · refine State.checked_moves fun _ => Moves.answered ?_ port _ _
      exact StoreKept.moves (u.setClip_kept _ rfl)
    · exact u.refuse_moves port _
  | freeClip port clip =>
    refine Moves.of_request h fun u _ => State.checked_moves fun passed => ?_
    simp only [List.forall_mem_cons, Clip.inUse_false] at passed
    obtain ⟨-, -, ⟨unplayed, unwritten⟩, -⟩ := passed
    exact (Reshape.freed unplayed unwritten).moves.answered port _ _
  | clearFault port => exact Moves.of_request h fun u _ => (u.setFault_kept port _).moves.answered port _ _
  | writePage port clip index codes =>
    refine Moves.of_request h fun u running => ?_
    dsimp only
    split
    · exact u.refuse_moves port _
    · split
      · exact (u.refuseFault_kept port _ _ _ _).moves
      · next clear =>
        split
        · exact u.refuse_moves port _
        · next unplayed => exact State.admitWrite_moves running (Bool.eq_false_iff.mpr clear) (by omega) codes
  | readPage port clip index =>
    refine Moves.of_request h fun u running => ?_
    dsimp only
    split
    · exact u.refuse_moves port _
    · split
      · exact (u.refuseFault_kept port _ _ _ _).moves
      · next clear => exact State.admitRead_moves running (Bool.eq_false_iff.mpr clear)
  | startStream port stream playlist =>
    refine Moves.of_request h fun u _ => State.withNumber_moves fun k => State.checked_moves fun passed => ?_
    simp only [List.forall_mem_cons, decide_eq_false_iff_not, not_not] at passed
    obtain ⟨-, -, stopped, -⟩ := passed
    exact State.checkItems_moves fun playable => State.startAccepted_moves stopped playable port
  | loadStream port stream playlist =>
    refine Moves.of_request h fun u _ => State.withNumber_moves fun k => State.checked_moves fun passed => ?_
    simp only [List.forall_mem_cons, decide_eq_false_iff_not] at passed
    obtain ⟨-, going, -⟩ := passed
    exact State.checkItems_moves fun playable => State.loadAccepted_moves going playable port
  | stopStream port stream =>
    exact Moves.of_request h fun u _ => State.withNumber_moves fun k => State.checked_moves fun _ =>
      (Act.stopped k).moves.answered port _ _
  | streamInfo port stream clear =>
    refine Moves.of_request h fun u _ => State.withNumber_moves fun k => State.checked_moves fun _ => ?_
    have drawn : StoreKept u (u.drawn 24) := .of_parts rfl rfl rfl rfl rfl rfl
    dsimp only
    refine Moves.answered ?_ port _ _
    split
    · refine (drawn.trans ?_).moves
      exact State.setStream_kept _ k rfl
    · exact drawn.moves
  | whisper port position clip gain =>
    exact Moves.of_request h fun u _ => State.withNumber_moves fun p => State.checked_moves fun _ =>
      State.checkEntry_moves fun playable => (State.queueEntry_moves playable rfl (.inl rfl) p port).answered port _ _
  | pinReset | cycle | frameCompletion | syncLossMissingPulse | fsPulse | resetPort | closePosition | connect | hold
  | retrieve | release | acceptPosition | cancelWhisper =>
    exact absurd (by simp [commandParts, frameParts, closeParts]) position
  | _ => exact absurd (by simp [commandParts, storeParts]) spared

theorem exec_moves {c : Instr} {s t : State} (h : exec c s = .next t) : Moves s t := by
  by_cases spared : ∀ x ∈ storeParts, x ∉ commandParts c
  · exact .of_touches (exec_touches h) spared
  · by_cases position : .positions ∈ commandParts c
    · exact exec_position_moves h spared position
    · exact exec_store_moves h spared position

theorem step_moves {s t : State} (h : step s = .next t) : Moves s t := by
  unfold step at h
  split at h
  · cases h
    exact .refl s
  · next c rest _ =>
    exact Moves.trans (t := { s with pending := rest }) (StoreKept.moves (.of_parts rfl rfl rfl rfl rfl rfl)) (exec_moves h)

end Sys2Proof.Machine
end

section
/-! PROOFS. What reads neither pages nor players: it is kept by every act of play when it is kept by what these do to clips,
streams and queues (R115, R126, R128, R143, R146, R148, R163). -/

namespace Sys2Proof.Machine

/-! ## Streams in order (R143, R148, R150) -/

/-- What a stream holds in each state: a STOPPED one no playlist, an ENDED one no page that is to come; and behind an
exhausted cursor no playlist is staged. -/
structure Stream.Tidy (x : Stream) : Prop where
  stopped : x.state = .stopped → x.current = none ∧ x.staged = none
  ended : x.state = .ended → x.cursor = .exhausted ∧ x.next = .empty
  exhausted : x.cursor = .exhausted → x.staged = none

theorem Stream.Tidy.of_core {x y : Stream} (h : x.Tidy) (same : y.core = x.core) : y.Tidy := by
  obtain ⟨state, current, staged, cursor, next⟩ := Stream.core_inj.mp same
  refine ⟨?_, ?_, ?_⟩
  · rw [state, current, staged]; exact h.stopped
  · rw [state, cursor, next]; exact h.ended
  · rw [cursor, staged]; exact h.exhausted

/-- A stream with a page to come is not ENDED. -/
theorem Stream.Tidy.not_ended {x : Stream} (h : x.Tidy) (next : x.next ≠ .empty) : x.state ≠ .ended := fun ended =>
  next (h.ended ended).2

/-! ## What such a property reads -/

/-- From `s` to `t` clips, streams and what queues refer to are the same. -/
structure LedgerKept (s t : State) : Prop where
  phase : t.phase = s.phase
  startUp : t.startUp = s.startUp
  clip : ∀ c, (t.clip c).core = (s.clip c).core
  stream : ∀ k, (t.stream k).core = (s.stream k).core
  queue : ∀ p, (t.queue p).map Entry.clip = (s.queue p).map Entry.clip

theorem StoreKept.ledger {s t : State} (h : StoreKept s t) : LedgerKept s t where
  phase := h.phase
  startUp := h.startUp
  clip := h.clip
  stream := h.stream
  queue p := by
    have entries := congrArg (List.map Prod.fst) (h.queue p)
    rwa [List.map_map, List.map_map] at entries

theorem LedgerKept.of_parts {s t : State} (phase : t.phase = s.phase) (startUp : t.startUp = s.startUp)
    (clipStore : t.clipStore = s.clipStore) (streams : t.streams = s.streams)
    (queue : ∀ p, (t.queue p).map Entry.clip = (s.queue p).map Entry.clip) : LedgerKept s t where
  phase := phase
  startUp := startUp
  clip c := by unfold State.clip; rw [clipStore]
  stream k := by unfold State.stream; rw [streams]
  queue := queue

theorem LedgerKept.of_touches {parts : List Part} {s t : State} (h : Touches parts s t)
    (untouched : ∀ x ∈ ([.phase, .startUp, .clipStore, .streams, .whisper] : List Part), x ∉ parts) : LedgerKept s t :=
  .of_parts (h .phase (untouched _ (by decide))) (h .startUp (untouched _ (by decide)))
    (h .clipStore (untouched _ (by decide))) (h .streams (untouched _ (by decide)))
    fun p => by unfold State.queue; rw [h .whisper (untouched _ (by decide))]

/-- What remains to be shown of a property that reads neither pages nor players. -/
structure Blind (P : State → Prop) : Prop where
  kept : ∀ {s t}, LedgerKept s t → P s → P t
  restream : ∀ {s k x}, x.current = (s.stream k).current → x.staged = (s.stream k).staged →
    ((s.stream k).Tidy → x.Tidy) → P s → P (s.setStream k x)
  switched : ∀ {s k}, (s.stream k).next ≠ .empty → ∀ i, P s → P (s.switch k i)
  unmarked : ∀ {s c x}, x.core = ({ s.clip c with writeBusy := (s.clip c).writeBusy - 1 } : Clip).core → P s →
    P (s.setClip c x)
  stopped : ∀ {s} k, P s → P (s.stopStream k)
  played : ∀ {s p e rest}, s.queue p = e :: rest → ∀ w, P s → P (s.entryDone p w e rest)
  flushed : ∀ {s} p cause chosen, P s → P (s.flush p cause chosen)

theorem withHeadPhase_clips (phase : EntryPhase) (q : List Entry) :
    (withHeadPhase phase q).map Entry.clip = q.map Entry.clip := by
  cases q with
  | nil => rfl
  | cons e rest => rfl

namespace Blind

variable {P : State → Prop} (blind : Blind P) {s : State}
include blind

theorem touched {parts : List Part} {t : State} (h : Touches parts s t)
    (untouched : ∀ x ∈ ([.phase, .startUp, .clipStore, .streams, .whisper] : List Part), x ∉ parts) (start : P s) : P t :=
  blind.kept (.of_touches h untouched) start

/-! ## The arrival of a page and the grant (R126, R128, R146, R148) -/

/-- The decision at the end of an item whose last page is in the next slot. -/
theorem itemEnd {k : Fin 16} (next : (s.stream k).next ≠ .empty) (i : Nat) (start : P s) : P (s.itemEnd k i) := by
  unfold State.itemEnd
  dsimp only
  split
  · exact blind.switched next i start
  · next unstaged =>
    split
    · refine blind.restream ?_ ?_ (fun tidy => ⟨?_, ?_, ?_⟩) start
      · rfl
      · rfl
      · exact tidy.stopped
      · exact fun ended => absurd ended (tidy.not_ended next)
      · exact fun _ => unstaged
    · exact start

theorem streamArrival (k : Fin 16) (index : Nat) (codes : PageCodes) (start : P s) : P (s.streamArrival k index codes) := by
  unfold State.streamArrival
  dsimp only
  split
  · next awaited =>
    split
    · have going : (s.stream k).Tidy → (s.stream k).state ≠ .ended := fun tidy => tidy.not_ended (by rw [awaited]; nofun)
      have filled : ∀ page, P (s.setStream k { s.stream k with next := .filled page }) := fun page =>
        blind.restream rfl rfl (fun tidy => ⟨tidy.stopped, fun ended => absurd ended (going tidy), tidy.exhausted⟩) start
      split
      · exact blind.itemEnd (by rw [State.setStream_stream, if_pos rfl]; nofun) _ (filled _)
      · exact filled _
    · exact start
  · exact start

theorem deliver (f : Fetch) (codes : PageCodes) (start : P s) : P (s.deliver f codes) := by
  unfold State.deliver
  split
  · split
    · exact blind.streamArrival _ _ codes start
    · exact start
  · split
    · unfold State.promptArrival
      dsimp only
      split
      · exact blind.kept (s := s) (.of_parts rfl rfl rfl rfl fun _ => rfl) start
      · exact start
    · exact start

theorem arbiter (x : Arbiter) (start : P s) : P (s.setArbiter x) := blind.touched (s.setArbiter_touches x) (by decide) start

theorem grant (start : P s) : P s.grant := by
  refine State.grantRounds_keeps ?_ ?_ ?_ ?_ ?_ _ s start
  · exact fun t h _ => blind.arbiter _ h
  · exact fun t f rest h _ _ => blind.deliver f _ (blind.arbiter _ h)
  · exact fun t f rest h _ _ => blind.arbiter _ (blind.arbiter _ h)
  · exact fun t p clip index page h _ _ => blind.touched (State.readReply_touches _ p clip index _ _) (by decide)
      (blind.arbiter _ h)
  · exact fun t p op h _ _ => blind.arbiter _ (blind.arbiter _ h)

/-! ## Requests and completions (R128, R130, R132, R146, R164) -/

theorem streamRequest (k : Fin 16) (start : P s) : P (s.streamRequest k) := by
  unfold State.streamRequest
  dsimp only
  split
  · next running empty page =>
    split
    · refine blind.grant (blind.arbiter _ (blind.restream ?_ ?_ (fun tidy => ⟨?_, ?_, ?_⟩) start))
      · rfl
      · rfl
      · exact tidy.stopped
      · exact fun ended => nomatch running.symm.trans ended
      · intro exhausted
        split at exhausted <;> exact nomatch exhausted
    · exact start
  · exact start

theorem promptRequest (w : Fin 16) (start : P s) : P (s.promptRequest w) :=
  State.promptRequest_keeps (P := P) (fun _ _ _ => blind.kept (.of_parts rfl rfl rfl rfl fun _ => rfl))
    (fun _ _ => blind.arbiter _) (fun _ => blind.grant) start w

theorem headPhase (p : Fin 64) (phase : EntryPhase) (start : P s) : P (s.setQueue p (withHeadPhase phase (s.queue p))) := by
  refine blind.kept (s := s) (.of_parts rfl rfl rfl rfl fun q => ?_) start
  rw [State.setQueue_queue]
  split
  · next same => rw [withHeadPhase_clips, same]
  · rfl

theorem assignPlayers (start : P s) : P s.assignPlayers := by
  refine State.assignPlayers_keeps (fun t w p h _ _ => blind.promptRequest w ?_) s start
  exact blind.kept (s := t.setQueue p (withHeadPhase .priming (t.queue p))) (.of_parts rfl rfl rfl rfl fun _ => rfl)
    (blind.headPhase p .priming h)

theorem soundHeads (start : P s) : P s.soundHeads := by
  refine foldl_keeps (fun t p h => ?_) _ s start
  split
  · exact blind.headPhase p .sounding h
  · exact h

theorem endIfDone (k : Fin 16) (start : P s) : P (s.endIfDone k) := by
  unfold State.endIfDone
  dsimp only
  split
  · next empty exhausted =>
    refine blind.touched (State.fileOwner_touches _ _ _ _ _) (by decide) (blind.restream ?_ ?_ (fun tidy => ⟨?_, ?_, ?_⟩) start)
    · rfl
    · rfl
    · exact fun stopped => nomatch stopped
    · exact fun _ => ⟨exhausted, empty⟩
    · exact tidy.exhausted
  · exact start

theorem struckCounted (page finder : Nat) (upsets : List WordUpset) (start : P s) :
    P ((s.freeBus.struck page upsets).counted page finder) :=
  blind.touched (State.counted_touches _ page finder) (by decide)
    (blind.touched (State.struck_touches _ page upsets) (by decide) (blind.arbiter _ start))

theorem writeNoted (p : Port) (clip : Fin 256) (index : Nat) (noted : Bool) (start : P s) :
    P (s.writeNoted p clip index noted) := by
  unfold State.writeNoted
  dsimp only
  split
  · refine blind.touched (State.fileOwner_touches _ _ _ _ _) (by decide) ?_
    exact blind.unmarked rfl start
  · exact blind.unmarked rfl start

theorem writeCompleted (p : Port) (clip : Fin 256) (index page : Nat) (codes : PageCodes) (noted : Bool) (start : P s) :
    P (s.writeCompleted p clip index page codes noted) := by
  have unlisted : ∀ m, P ((s.freeBus.setMemory m).unlist page) := fun m =>
    blind.arbiter _ (blind.touched (Touches.of_memory _ m) (by decide) (blind.arbiter _ start))
  exact blind.grant (blind.touched (State.answer_touches _ p _ _) (by decide) (blind.writeNoted p clip index noted (unlisted _)))

theorem scrubCompleted (upsets : List WordUpset) (start : P s) : P (s.scrubCompleted upsets) := by
  refine blind.grant (blind.touched (State.advanceScrub_touches _) (by decide) ?_)
  have found : ∀ page, P ((s.freeBus.struck page upsets).counted page 0) := fun page => blind.struckCounted page 0 upsets start
  unfold State.scrubPage
  dsimp only
  split
  · exact blind.arbiter _ start
  · split
    · exact found _
    · exact blind.touched (Touches.of_memory _ _) (by decide) (found _)

/-- Every act of play keeps such a property. -/
theorem act {t : State} (act : Act s t) (start : P s) : P t := by
  cases act with
  | kept same => exact blind.kept same.ledger start
  | granted running => exact blind.grant start
  | fetched bus upsets => exact blind.grant (blind.deliver _ _ (blind.struckCounted _ _ upsets start))
  | written bus => exact blind.writeCompleted _ _ _ _ _ _ start
  | readOut bus upsets =>
    exact blind.grant (blind.touched (State.readReply_touches _ _ _ _ _ _) (by decide) (blind.struckCounted _ _ upsets start))
  | scrubbed bus upsets => exact blind.scrubCompleted upsets start
  | admitted running defined within page port => exact blind.grant (blind.arbiter _ start)
  | requested k => exact blind.streamRequest k start
  | ended k => exact blind.endIfDone k start
  | emptied k =>
    exact blind.restream rfl rfl (fun tidy => ⟨tidy.stopped, fun ended => ⟨(tidy.ended ended).1, rfl⟩, tidy.exhausted⟩) start
  | stopped k => exact blind.stopped k start
  | prompted w => exact blind.promptRequest w start
  | sounded => exact blind.soundHeads start
  | played queue player => exact blind.played queue _ start
  | flushed p cause chosen => exact blind.flushed p cause chosen start
  | assigned => exact blind.assignPlayers start

end Blind

end Sys2Proof.Machine
end

section
/-! PROOFS. Page ranges stay disjoint and within memory, and no clip is played and written at once (R104, R105, R115). -/

namespace Sys2Proof.Machine

/-! ## Clips from one state to another -/

/-- Of a clip: whether it is DEFINED, its page range and its fill. -/
def Clip.shape (x : Clip) : Bool × Nat × Nat × Nat := (x.defined, x.base, x.length, x.fill)

theorem Clip.shape_inj {x y : Clip} : x.shape = y.shape ↔ x.defined = y.defined ∧ x.base = y.base ∧ x.length = y.length
    ∧ x.fill = y.fill := by
  simp only [Clip.shape, Prod.mk.injEq]

theorem Clip.shape_of_core {x y : Clip} (same : x.core = y.core) : x.shape = y.shape := by
  obtain ⟨defined, base, length, fill, -⟩ := Clip.core_inj.mp same
  exact Clip.shape_inj.mpr ⟨defined, base, length, fill⟩

/-- From `s` to `t` no clip is defined, freed or moved. -/
structure ShapesKept (s t : State) : Prop where
  phase : t.phase = s.phase
  startUp : t.startUp = s.startUp
  shape : ∀ c, (t.clip c).shape = (s.clip c).shape

/-- From `s` to `t` no clip is defined, freed or moved, and no count of a clip rises. -/
structure ClipsCalm (s t : State) : Prop extends ShapesKept s t where
  plays : ∀ c, (t.clip c).plays ≤ (s.clip c).plays
  writeBusy : ∀ c, (t.clip c).writeBusy ≤ (s.clip c).writeBusy

section
variable {s t u : State}

theorem ShapesKept.trans (h : ShapesKept s t) (k : ShapesKept t u) : ShapesKept s u :=
  ⟨k.phase.trans h.phase, k.startUp.trans h.startUp, fun c => (k.shape c).trans (h.shape c)⟩

theorem ClipsCalm.trans (h : ClipsCalm s t) (k : ClipsCalm t u) : ClipsCalm s u :=
  ⟨h.toShapesKept.trans k.toShapesKept, fun c => (k.plays c).trans (h.plays c),
    fun c => (k.writeBusy c).trans (h.writeBusy c)⟩

theorem ClipsCalm.of_core (phase : t.phase = s.phase) (startUp : t.startUp = s.startUp)
    (core : ∀ c, (t.clip c).core = (s.clip c).core) : ClipsCalm s t := by
  refine ⟨⟨phase, startUp, fun c => Clip.shape_of_core (core c)⟩, fun c => ?_, fun c => ?_⟩
  · obtain ⟨-, -, -, -, plays, -⟩ := Clip.core_inj.mp (core c)
    exact plays.le
  · obtain ⟨-, -, -, -, -, busy⟩ := Clip.core_inj.mp (core c)
    exact busy.le

theorem ClipsCalm.refl (s : State) : ClipsCalm s s := .of_core rfl rfl fun _ => rfl

/-- Play counts that fall. -/
theorem ClipsCalm.of_drops (phase : t.phase = s.phase) (startUp : t.startUp = s.startUp) {n : Fin 256 → Nat}
    (clip : ∀ c, t.clip c = { s.clip c with plays := (s.clip c).plays - n c }) : ClipsCalm s t := by
  refine ⟨⟨phase, startUp, fun c => ?_⟩, fun c => ?_, fun c => ?_⟩ <;> rw [clip c]
  · rfl
  · exact Nat.sub_le _ _

theorem ShapesKept.pageCount (h : ShapesKept s t) : t.pageCount = s.pageCount := by
  unfold State.pageCount
  rw [h.startUp]

end

theorem State.dropPlays_clip_namings (s : State) (l : Option Playlist) (c : Fin 256) :
    (s.dropPlays l).clip c = { s.clip c with plays := (s.clip c).plays - namings c l } := by
  cases l with
  | none => rfl
  | some l => exact dropPlays_clip l.items s c

theorem State.dropPlays_calm (s : State) (l : Option Playlist) : ClipsCalm s (s.dropPlays l) :=
  .of_drops (s.dropPlays_touches l .phase (by decide)) (s.dropPlays_touches l .startUp (by decide)) (s.dropPlays_clip_namings l)

theorem State.switch_calm (s : State) (k : Fin 16) (i : Nat) : ClipsCalm s (s.switch k i) := by
  unfold State.switch
  split
  · exact .refl s
  · next l _ =>
    have filed := fun (t : State) p k o d => t.fileOwner_kept p k o d
    refine ClipsCalm.trans (t := s.dropPlays (s.stream k).current) (s.dropPlays_calm _) ?_
    exact .of_core (filed _ _ _ _ _).phase (filed _ _ _ _ _).startUp (filed _ _ _ _ _).clip

theorem State.entryDone_touches (s : State) (p : Fin 64) (w : Fin 16) (e : Entry) (rest : List Entry) :
    Touches [.whisper, .clipStore, .events] s (s.entryDone p w e rest) := by
  refine Touches.trans ?_ ((State.file_touches _ _ _ _ _).mono (by decide))
  exact (((s.setQueue_touches p rest).mono (by decide)).trans ((State.setClip_touches _ _ _).mono (by decide))).trans
    ((State.setPlayer_touches _ w _).mono (by decide))

theorem State.entryDone_clip (s : State) (p : Fin 64) (w : Fin 16) (e : Entry) (rest : List Entry) (c : Fin 256) :
    (s.entryDone p w e rest).clip c = { s.clip c with plays := (s.clip c).plays - if e.clip = c then 1 else 0 } := by
  unfold State.entryDone
  rw [State.file_keeps (fun t => t.clip c) (fun _ _ => rfl)]
  show (State.setClip _ _ _).clip c = _
  rw [State.setClip_clip]
  split
  · next same => subst same; rfl
  · rfl

/-- No act of play raises a count. -/
theorem calm_blind (s : State) : Blind (ClipsCalm s) where
  kept same calm := calm.trans (.of_core same.phase same.startUp same.clip)
  restream _ _ _ calm := calm.trans (.of_core rfl rfl fun _ => rfl)
  switched _ i calm := calm.trans (State.switch_calm _ _ i)
  unmarked {t c x} same calm := by
    obtain ⟨defined, base, length, fill, plays, busy⟩ := Clip.core_inj.mp same
    refine calm.trans ⟨⟨rfl, rfl, fun d => ?_⟩, fun d => ?_, fun d => ?_⟩ <;> rw [State.setClip_clip] <;> split
    · next equal => subst equal; exact Clip.shape_inj.mpr ⟨defined, base, length, fill⟩
    · rfl
    · next equal => subst equal; exact plays.le
    · exact Nat.le_refl _
    · next equal => subst equal; rw [busy]; exact Nat.sub_le _ 1
    · exact Nat.le_refl _
  stopped {t} k calm := calm.trans (((t.dropPlays_calm _).trans (State.dropPlays_calm _ _)).trans
    (.of_core rfl rfl fun _ => rfl))
  played {t p e rest} _ w calm := calm.trans (.of_drops (t.entryDone_touches p w e rest .phase (by decide))
    (t.entryDone_touches p w e rest .startUp (by decide)) (t.entryDone_clip p w e rest))
  flushed {t} p cause chosen calm := calm.trans (.of_drops (t.flush_touches p cause chosen .phase (by decide))
    (t.flush_touches p cause chosen .startUp (by decide)) (t.flush_clip p cause chosen))

theorem Act.calm {s t : State} (act : Act s t) : ClipsCalm s t := (calm_blind s).act act (.refl s)

/-! ## Counts that rise (R107, R115, R117) -/

section
variable (s : State) (p : Port)

theorem State.acceptItems_core (items : List Item) (c : Fin 256) : ((s.acceptItems p items).clip c).core
    = ({ s.clip c with plays := (s.clip c).plays + (items.filter fun i => i.clip = c).length } : Clip).core := by
  unfold State.acceptItems State.noteItems State.addPlays
  rw [notes_clip, addPlays_clip]
  rfl

theorem State.acceptItems_shapes (items : List Item) : ShapesKept s (s.acceptItems p items) where
  phase := s.acceptItems_touches p items .phase (by decide)
  startUp := s.acceptItems_touches p items .startUp (by decide)
  shape c := (Clip.shape_of_core (s.acceptItems_core p items c)).trans rfl

theorem State.begun_calm (k : Fin 16) (l : Playlist) : ClipsCalm (s.acceptItems p l.items) (s.begun p k l) :=
  .of_core rfl rfl fun _ => rfl

theorem State.loaded_calm (k : Fin 16) (l : Playlist) : ClipsCalm (s.acceptItems p l.items) (s.loaded p k l) := by
  have traded : ∀ l' x, ClipsCalm (s.acceptItems p l.items) ((s.traded p l l').setStream k x) := fun l' _ =>
    (State.dropPlays_calm _ l').trans (.of_core rfl rfl fun _ => rfl)
  unfold State.loaded
  split
  · exact traded _ _
  · split
    · exact (traded _ _).trans (State.switch_calm _ k _)
    · exact traded _ _

theorem State.enqueued_core (q : Fin 64) (e : Entry) (place : List Entry → List Entry) (c : Fin 256) :
    ((s.enqueued q p e place).clip c).core
      = ({ s.clip c with plays := (s.clip c).plays + if e.clip = c then 1 else 0 } : Clip).core := by
  rw [State.enqueued_clip]
  split
  · rfl
  · rfl

end

theorem Gain.shapes {s t : State} (gain : Gain s t) : ShapesKept s t := by
  cases gain with
  | started stopped playable p => exact (s.acceptItems_shapes p _).trans (s.begun_calm p _ _).toShapesKept
  | loaded going playable p => exact (s.acceptItems_shapes p _).trans (s.loaded_calm p _ _).toShapesKept
  | @queued q e place playable waiting placed port =>
    exact ⟨s.enqueued_touches q port e place .phase (by decide), s.enqueued_touches q port e place .startUp (by decide),
      fun c => (Clip.shape_of_core (s.enqueued_core port q e place c)).trans rfl⟩
  | @marked c unplayed =>
    refine ⟨rfl, rfl, fun d => ?_⟩
    rw [State.setClip_clip]
    split
    · next equal => subst equal; rfl
    · rfl

/-! ## Page ranges (R105, R108) -/

theorem State.clipsSound_of_shapes {s t : State} (h : ShapesKept s t) (sound : s.clipsSound) : t.clipsSound := by
  obtain ⟨apart, within, none⟩ := sound
  have shapes := fun c => Clip.shape_inj.mp (h.shape c)
  refine ⟨fun c d other => ?_, fun c => ?_, fun early c => ?_⟩
  · obtain ⟨definedC, baseC, lengthC, -⟩ := shapes c
    obtain ⟨definedD, baseD, lengthD, -⟩ := shapes d
    rw [definedC, definedD, baseC, lengthC, baseD, lengthD]
    exact apart c d other
  · obtain ⟨defined, base, length, fill⟩ := shapes c
    rw [defined, base, length, fill, h.pageCount]
    exact within c
  · obtain ⟨defined, -⟩ := shapes c
    rw [defined]
    exact none (h.phase ▸ early) c

theorem rangesMeet_comm (base1 length1 base2 length2 : Nat) :
    rangesMeet base1 length1 base2 length2 = rangesMeet base2 length2 base1 length1 := by
  unfold rangesMeet
  exact Bool.and_comm _ _

theorem State.overlaps_false {s : State} {c : Fin 256} {base length : Nat} (apart : s.overlaps c base length = false)
    {d : Fin 256} (other : d ≠ c) (defined : (s.clip d).defined = true) :
    rangesMeet base length (s.clip d).base (s.clip d).length = false := by
  have clear := List.any_eq_false.mp apart d (List.mem_finRange d)
  simpa [other, defined] using clear

theorem State.clipsSound_of_defined {s : State} {c : Fin 256} {x : Clip} (sound : s.clipsSound)
    (running : s.phase = .running) (short : 1 ≤ x.length) (long : x.length ≤ 4096) (filled : 1 ≤ x.fill) (fits : x.fill ≤ 256)
    (within : x.base + x.length ≤ s.pageCount) (apart : s.overlaps c x.base x.length = false) :
    (s.setClip c x).clipsSound := by
  obtain ⟨disjoint, ranges, -⟩ := sound
  refine ⟨fun d e other definedD definedE => ?_, fun d => ?_, fun early => absurd running early⟩
  · rw [State.setClip_clip] at definedD definedE ⊢
    rw [State.setClip_clip]
    by_cases first : c = d
    · have second : c ≠ e := fun same => other (first.symm.trans same)
      rw [if_neg second] at definedE ⊢
      rw [if_pos first]
      exact State.overlaps_false apart (Ne.symm second) definedE
    · rw [if_neg first] at definedD ⊢
      by_cases second : c = e
      · rw [if_pos second, rangesMeet_comm]
        exact State.overlaps_false apart (Ne.symm first) definedD
      · rw [if_neg second] at definedE ⊢
        exact disjoint d e other definedD definedE
  · rw [State.setClip_clip]
    split
    · exact fun _ => ⟨within, short, long, filled, fits⟩
    · exact ranges d

theorem State.clipsSound_of_freed {s : State} (c : Fin 256) (sound : s.clipsSound) :
    (s.setClip c Clip.freeContents).clipsSound := by
  obtain ⟨disjoint, ranges, none⟩ := sound
  have stays : ∀ d, ((s.setClip c Clip.freeContents).clip d).defined = true →
      (s.setClip c Clip.freeContents).clip d = s.clip d := fun d defined => by
    rw [State.setClip_clip] at defined ⊢
    split at defined
    · exact nomatch defined
    · next other => rw [if_neg other]
  refine ⟨fun d e other definedD definedE => ?_, fun d defined => ?_, fun early d => ?_⟩
  · have sameD := stays d definedD
    have sameE := stays e definedE
    rw [sameD] at definedD ⊢
    rw [sameE] at definedE ⊢
    exact disjoint d e other definedD definedE
  · have same := stays d defined
    rw [same] at defined ⊢
    exact ranges d defined
  · rw [State.setClip_clip]
    split
    · rfl
    · exact none early d

theorem Reshape.clipsSound {s t : State} (reshape : Reshape s t) (sound : s.clipsSound) : t.clipsSound := by
  cases reshape with
  | reset same =>
    exact State.clipsSound_of_shapes (ClipsCalm.of_core same.phase same.startUp same.clip).toShapesKept reset_clipsSound
  | shifted shifting word =>
    obtain ⟨-, -, none⟩ := sound
    have free : ∀ c, (s.clip c).defined = false := none fun running => nomatch shifting.symm.trans running
    exact ⟨fun c d _ defined => absurd defined (Bool.eq_false_iff.mp (free c)),
      fun c defined => absurd defined (Bool.eq_false_iff.mp (free c)), fun _ => free⟩
  | prepared preparing memory highway =>
    obtain ⟨disjoint, ranges, -⟩ := sound
    exact ⟨disjoint, ranges, fun early => absurd rfl early⟩
  | defined running defined unplayed unwritten short long filled fits within idle apart =>
    exact State.clipsSound_of_defined sound running short long filled fits within apart
  | freed unplayed unwritten => exact State.clipsSound_of_freed _ sound

theorem Move.clipsSound {s t : State} (move : Move s t) (sound : s.clipsSound) : t.clipsSound := by
  rcases move with act | gain | reshape
  · exact State.clipsSound_of_shapes act.calm.toShapesKept sound
  · exact State.clipsSound_of_shapes gain.shapes sound
  · exact reshape.clipsSound sound

/-! ## Playing and writing (R115, R117) -/

theorem State.playsExcludeWrites_of_calm {s t : State} (h : ClipsCalm s t) (sound : s.playsExcludeWrites) :
    t.playsExcludeWrites := fun c =>
  (sound c).imp (fun unplayed => Nat.le_zero.mp ((h.plays c).trans unplayed.le)) fun unwritten =>
    Nat.le_zero.mp ((h.writeBusy c).trans unwritten.le)

/-- Plays rise only of clips that are not being written. -/
theorem State.playsExcludeWrites_of_raised {s t : State} {n : Fin 256 → Nat}
    (raised : ∀ c, (t.clip c).core = ({ s.clip c with plays := (s.clip c).plays + n c } : Clip).core)
    (still : ∀ c, n c ≠ 0 → (s.clip c).writeBusy = 0) (sound : s.playsExcludeWrites) : t.playsExcludeWrites := fun c => by
  obtain ⟨-, -, -, -, plays, busy⟩ := Clip.core_inj.mp (raised c)
  rw [plays, busy]
  by_cases none : n c = 0
  · rw [none]; exact sound c
  · exact .inr (still c none)

theorem State.playsExcludeWrites_of_accepted {s : State} {items : List Item} (playable : ∀ i ∈ items, s.playable i.clip)
    (p : Port) (sound : s.playsExcludeWrites) : (s.acceptItems p items).playsExcludeWrites := by
  refine State.playsExcludeWrites_of_raised (s.acceptItems_core p items) (fun c named => ?_) sound
  obtain ⟨i, member⟩ := List.exists_mem_of_length_pos (Nat.pos_of_ne_zero named)
  obtain ⟨member, same⟩ := List.mem_filter.mp member
  rw [← of_decide_eq_true same]
  exact (playable i member).2

theorem Gain.playsExcludeWrites {s t : State} (gain : Gain s t) (sound : s.playsExcludeWrites) : t.playsExcludeWrites := by
  cases gain with
  | started stopped playable p =>
    exact State.playsExcludeWrites_of_calm (s.begun_calm p _ _) (State.playsExcludeWrites_of_accepted playable p sound)
  | loaded going playable p =>
    exact State.playsExcludeWrites_of_calm (s.loaded_calm p _ _) (State.playsExcludeWrites_of_accepted playable p sound)
  | @queued q e place playable waiting placed port =>
    refine State.playsExcludeWrites_of_raised (s.enqueued_core port q e place) (fun c named => ?_) sound
    split at named
    · next same => rw [← same]; exact playable.2
    · exact absurd rfl named
  | @marked c unplayed =>
    intro d
    rw [State.setClip_clip]
    split
    · exact .inl unplayed
    · exact sound d

theorem Reshape.playsExcludeWrites {s t : State} (reshape : Reshape s t) (sound : s.playsExcludeWrites) :
    t.playsExcludeWrites := by
  cases reshape with
  | reset same =>
    exact State.playsExcludeWrites_of_calm (.of_core same.phase same.startUp same.clip) reset_playsExcludeWrites
  | shifted shifting word => exact sound
  | prepared preparing memory highway => exact sound
  | defined running defined unplayed unwritten short long filled fits within idle apart =>
    intro d
    rw [State.setClip_clip]
    split
    · exact .inl unplayed
    · exact sound d
  | freed unplayed unwritten =>
    intro d
    rw [State.setClip_clip]
    split
    · exact .inl rfl
    · exact sound d

theorem Move.playsExcludeWrites {s t : State} (move : Move s t) (sound : s.playsExcludeWrites) : t.playsExcludeWrites := by
  rcases move with act | gain | reshape
  · exact State.playsExcludeWrites_of_calm act.calm sound
  · exact gain.playsExcludeWrites sound
  · exact reshape.playsExcludeWrites sound

end Sys2Proof.Machine
end

section
/-! PROOFS. A clip's play count stays the number of references for play (R115, R143, R149, R161, R166). -/

namespace Sys2Proof.Machine

/-! ## Counting references -/

theorem sum_finRange_of_one_changed {n : Nat} {f g : Fin n → Nat} (k : Fin n) (others : ∀ j, j ≠ k → g j = f j) :
    ((List.finRange n).map g).sum + f k = ((List.finRange n).map f).sum + g k := by
  have sums : ∀ h : Fin n → Nat, ((List.finRange n).map h).sum = h k + ∑ j ∈ Finset.univ.erase k, h j := fun h => by
    rw [← Fin.sum_univ_def, Finset.add_sum_erase _ h (Finset.mem_univ k)]
  have rest : ∑ j ∈ Finset.univ.erase k, g j = ∑ j ∈ Finset.univ.erase k, f j :=
    Finset.sum_congr rfl fun j member => others j (Finset.ne_of_mem_erase member)
  rw [sums f, sums g, rest]
  omega

/-- The items of a stream's playlists that name a clip. -/
def Stream.namings (c : Fin 256) (x : Stream) : Nat := Machine.namings c x.current + Machine.namings c x.staged

theorem State.references_eq (s : State) (c : Fin 256) : s.references c
    = ((List.finRange 16).map fun k => (s.stream k).namings c).sum
      + ((List.finRange 64).map fun p => namingEntries c (s.queue p)).sum := rfl

theorem Stream.namings_of_playlists {x y : Stream} (current : y.current = x.current) (staged : y.staged = x.staged)
    (c : Fin 256) : y.namings c = x.namings c := by
  unfold Stream.namings
  rw [current, staged]

theorem namingEntries_eq_count (c : Fin 256) (l : List Entry) : namingEntries c l = (l.map Entry.clip).count c := by
  unfold namingEntries List.count
  rw [← List.countP_eq_length_filter, List.countP_map]
  exact List.countP_congr fun e _ => by simp

theorem namingEntries_split (c : Fin 256) (chosen : Entry → Bool) (l : List Entry) :
    namingEntries c (l.filter fun e => !chosen e) + namingEntries c (l.filter chosen) = namingEntries c l := by
  simp only [namingEntries_eq_count, ← List.count_append, ← List.map_append]
  refine List.Perm.count_eq (List.Perm.map _ ?_) c
  exact List.perm_append_comm.trans (List.filter_append_perm chosen l)

section
variable {s t : State} (c : Fin 256)

theorem State.references_of_ledger (streams : ∀ k, (t.stream k).core = (s.stream k).core)
    (queues : ∀ p, (t.queue p).map Entry.clip = (s.queue p).map Entry.clip) : t.references c = s.references c := by
  have playlists : ∀ k, (t.stream k).namings c = (s.stream k).namings c := fun k => by
    obtain ⟨-, current, staged, -⟩ := Stream.core_inj.mp (streams k)
    exact Stream.namings_of_playlists current staged c
  simp only [State.references_eq, playlists, namingEntries_eq_count, queues]

theorem State.references_of_restream {k : Fin 16} {x : Stream} (stream : ∀ j, t.stream j = if k = j then x else s.stream j)
    (queue : t.queue = s.queue) : t.references c + (s.stream k).namings c = s.references c + x.namings c := by
  have changed := sum_finRange_of_one_changed (f := fun j => (s.stream j).namings c) (g := fun j => (t.stream j).namings c) k
    fun j other => by rw [stream, if_neg (Ne.symm other)]
  have own : t.stream k = x := (stream k).trans (if_pos rfl)
  rw [own] at changed
  rw [State.references_eq, State.references_eq, queue]
  omega

theorem State.references_of_requeue {p : Fin 64} {l : List Entry} (streams : ∀ k, (t.stream k).core = (s.stream k).core)
    (queue : ∀ q, t.queue q = if p = q then l else s.queue q) :
    t.references c + namingEntries c (s.queue p) = s.references c + namingEntries c l := by
  have playlists : ∀ k, (t.stream k).namings c = (s.stream k).namings c := fun k => by
    obtain ⟨-, current, staged, -⟩ := Stream.core_inj.mp (streams k)
    exact Stream.namings_of_playlists current staged c
  have changed := sum_finRange_of_one_changed (f := fun q => namingEntries c (s.queue q))
    (g := fun q => namingEntries c (t.queue q)) p fun q other => by rw [queue, if_neg (Ne.symm other)]
  have own : t.queue p = l := (queue p).trans (if_pos rfl)
  rw [own] at changed
  simp only [State.references_eq, playlists]
  omega

end

/-! ## What keeps the counts -/

theorem State.playsCounted_iff (s : State) : s.playsCounted ↔ (∀ c, (s.clip c).plays = s.references c)
    ∧ (∀ c, (s.clip c).defined = false → (s.clip c).plays = 0) ∧ ∀ k, (s.stream k).Tidy := by
  constructor
  · rintro ⟨counts, free, stopped, ended, exhausted⟩
    exact ⟨counts, free, fun k => ⟨stopped k, ended k, exhausted k⟩⟩
  · rintro ⟨counts, free, tidy⟩
    exact ⟨counts, free, fun k => (tidy k).stopped, fun k => (tidy k).ended, fun k => (tidy k).exhausted⟩

/-- References are made to DEFINED clips and given up, and play counts follow them. -/
theorem State.playsCounted_of_change {s t : State} {gained lost : Fin 256 → Nat} (counted : s.playsCounted)
    (references : ∀ c, t.references c + lost c = s.references c + gained c)
    (clip : ∀ c, (t.clip c).core = ({ s.clip c with plays := (s.clip c).plays + gained c - lost c } : Clip).core)
    (made : ∀ c, gained c ≠ 0 → (s.clip c).defined = true) (tidy : ∀ k, (t.stream k).Tidy) : t.playsCounted := by
  obtain ⟨counts, free, -⟩ := (State.playsCounted_iff s).mp counted
  refine (State.playsCounted_iff t).mpr ⟨fun c => ?_, fun c undefined => ?_, tidy⟩ <;>
    obtain ⟨defined, -, -, -, plays, -⟩ := Clip.core_inj.mp (clip c)
  · have balance := references c
    rw [plays, counts c]
    dsimp only
    omega
  · have unmade : gained c = 0 := by
      by_contra some
      exact absurd (made c some) (Bool.eq_false_iff.mp (defined.symm.trans undefined))
    rw [plays, free c (defined.symm.trans undefined), unmade]
    exact Nat.zero_sub _

/-- Only a stream changes, and only in its cursor, its next slot or its state. -/
theorem State.playsCounted_of_restream {s : State} {k : Fin 16} {x : Stream} (current : x.current = (s.stream k).current)
    (staged : x.staged = (s.stream k).staged) (keeps : (s.stream k).Tidy → x.Tidy) (counted : s.playsCounted) :
    (s.setStream k x).playsCounted := by
  obtain ⟨-, -, tidy⟩ := (State.playsCounted_iff s).mp counted
  refine State.playsCounted_of_change (gained := fun _ => 0) (lost := fun _ => 0) counted (fun c => ?_) (fun _ => rfl)
    (fun _ none => absurd rfl none) fun j => ?_
  · have changed := State.references_of_restream c (s.setStream_stream k · x) rfl
    rw [Stream.namings_of_playlists current staged] at changed
    omega
  · rw [State.setStream_stream]
    split
    · exact keeps (tidy k)
    · exact tidy j

/-- A stream that stays RUNNING is tidy while its cursor is not exhausted. -/
theorem Stream.Tidy.of_going {x y : Stream} (going : x.state ≠ .stopped) (notEnded : x.state ≠ .ended)
    (state : y.state = x.state) (cursor : y.cursor ≠ .exhausted) : y.Tidy :=
  ⟨fun stopped => absurd (state.symm.trans stopped) going, fun ended => absurd (state.symm.trans ended) notEnded,
    fun exhausted => absurd exhausted cursor⟩

/-- A stream gives up playlists, and the play counts of the clips they name. -/
theorem State.playsCounted_of_dropped {s t : State} {k : Fin 16} {x : Stream} {lost : Fin 256 → Nat}
    (counted : s.playsCounted) (stream : ∀ j, t.stream j = if k = j then x else s.stream j) (queue : t.queue = s.queue)
    (clip : ∀ c, t.clip c = { s.clip c with plays := (s.clip c).plays - lost c })
    (fewer : ∀ c, x.namings c + lost c = (s.stream k).namings c) (own : x.Tidy) : t.playsCounted := by
  obtain ⟨-, -, tidy⟩ := (State.playsCounted_iff s).mp counted
  refine State.playsCounted_of_change (gained := fun _ => 0) (lost := lost) counted (fun c => ?_) (fun c => ?_)
    (fun _ none => absurd rfl none) fun j => ?_
  · have changed := State.references_of_restream c stream queue
    have fewer := fewer c
    omega
  · rw [clip c]; rfl
  · rw [stream]
    split
    · exact own
    · exact tidy j

/-- A stream that switches to a list (R149). -/
def Stream.switched (x : Stream) (l : Playlist) : Stream :=
  { x with
    current := some l, staged := none, inner := loadRemainder l.inner.count,
    outer := loadRemainder l.outer.count, cursor := .page 0 0 }

theorem State.switch_of_unstaged {s : State} {k : Fin 16} (unstaged : (s.stream k).staged = none) (i : Nat) :
    s.switch k i = s := by
  unfold State.switch
  rw [unstaged]

theorem State.switch_of_staged {s : State} {k : Fin 16} {l : Playlist} (staged : (s.stream k).staged = some l) (i : Nat) :
    s.switch k i = ((s.dropPlays (s.stream k).current).setStream k ((s.stream k).switched l)).fileOwner (s.stream k).owner
      .streamSwitched k.val i := by
  unfold State.switch
  rw [staged]
  rfl

section
variable {s : State} {k : Fin 16} {l : Playlist} (staged : (s.stream k).staged = some l) (i : Nat)
include staged

theorem State.switch_of_staged_stream (j : Fin 16) :
    (s.switch k i).stream j = if k = j then (s.stream k).switched l else s.stream j := by
  rw [State.switch_of_staged staged, State.fileOwner_stream, State.setStream_stream, State.dropPlays_stream]

theorem State.switch_of_staged_clip (c : Fin 256) : (s.switch k i).clip c
    = { s.clip c with plays := (s.clip c).plays - Machine.namings c (s.stream k).current } := by
  rw [State.switch_of_staged staged, State.fileOwner_keeps State.clip fun _ _ => rfl]
  exact s.dropPlays_clip_namings _ c

end

theorem State.switch_queue (s : State) (k : Fin 16) (i : Nat) : (s.switch k i).queue = s.queue := by
  unfold State.queue
  rw [s.switch_touches k i .whisper (by decide)]

theorem State.switch_playsCounted {s : State} {k : Fin 16} (next : (s.stream k).next ≠ .empty) (i : Nat)
    (counted : s.playsCounted) : (s.switch k i).playsCounted := by
  obtain ⟨-, -, tidy⟩ := (State.playsCounted_iff s).mp counted
  cases staged : (s.stream k).staged with
  | none =>
    rw [State.switch_of_unstaged staged]
    exact counted
  | some l =>
    have going : (s.stream k).state ≠ .stopped := fun stopped => nomatch staged.symm.trans ((tidy k).stopped stopped).2
    refine State.playsCounted_of_dropped counted (State.switch_of_staged_stream staged i) (s.switch_queue k i)
      (State.switch_of_staged_clip staged i) (fun c => ?_) (.of_going going ((tidy k).not_ended next) rfl nofun)
    unfold Stream.namings
    rw [staged]
    exact Nat.add_comm (Machine.namings c (some l)) _

theorem State.stopStream_playsCounted {s : State} (k : Fin 16) (counted : s.playsCounted) :
    (s.stopStream k).playsCounted := by
  refine State.playsCounted_of_dropped (lost := (s.stream k).namings) counted (s.stopStream_stream k) ?_ (fun c => ?_)
    (fun c => Nat.zero_add _) ⟨fun _ => ⟨rfl, rfl⟩, nofun, nofun⟩
  · unfold State.queue
    rw [s.stopStream_touches k .whisper (by decide)]
  · refine (State.dropPlays_clip_namings (s.dropPlays (s.stream k).staged) _ c).trans ?_
    rw [State.dropPlays_clip_namings]
    simp only [Nat.sub_sub, Stream.namings, Nat.add_comm]

/-! ## Entries that leave a queue (R161, R166) -/

/-- A queue gives up entries, and the play counts of the clips they name. -/
theorem State.playsCounted_of_unqueued {s t : State} {p : Fin 64} {l : List Entry} {lost : Fin 256 → Nat}
    (counted : s.playsCounted) (streams : ∀ k, (t.stream k).core = (s.stream k).core)
    (queue : ∀ q, t.queue q = if p = q then l else s.queue q)
    (clip : ∀ c, t.clip c = { s.clip c with plays := (s.clip c).plays - lost c })
    (fewer : ∀ c, namingEntries c l + lost c = namingEntries c (s.queue p)) : t.playsCounted := by
  obtain ⟨-, -, tidy⟩ := (State.playsCounted_iff s).mp counted
  refine State.playsCounted_of_change (gained := fun _ => 0) (lost := lost) counted (fun c => ?_) (fun c => ?_)
    (fun _ none => absurd rfl none) fun k => (tidy k).of_core (streams k)
  · have changed := State.references_of_requeue c streams queue
    have fewer := fewer c
    omega
  · rw [clip c]; rfl

theorem State.flush_stream_core (s : State) (p : Fin 64) (cause : FlushCause) (chosen : Entry → Bool) :
    ∀ k, ((s.flush p cause chosen).stream k).core = (s.stream k).core := by
  refine s.flush_keeps (P := fun t => ∀ k, (t.stream k).core = (s.stream k).core) p cause chosen (fun _ => rfl) fun t e kept => ?_
  have dropped : ∀ u : State, u.streams = t.streams → ∀ k, (u.stream k).core = (s.stream k).core := fun u same k => by
    unfold State.stream
    rw [same]
    exact kept k
  have left : ∀ k o d, (((if e.phase = .waiting then t.dropPlay e.clip else (t.dropPlay e.clip).flushPlayer p).file e.origin
      k o d)).streams = t.streams := fun k o d => by
    rw [State.file_touches _ _ _ _ _ .streams (by decide)]
    split
    · rfl
    · exact State.flushPlayer_touches _ p .streams (by decide)
  unfold State.flushed
  dsimp only
  split
  · exact fun k => ((State.announceEnded_kept _ p true).stream k).trans (dropped _ (left _ _ _) k)
  · exact dropped _ (left _ _ _)

theorem State.flush_playsCounted {s : State} (p : Fin 64) (cause : FlushCause) (chosen : Entry → Bool)
    (counted : s.playsCounted) : (s.flush p cause chosen).playsCounted :=
  State.playsCounted_of_unqueued counted (s.flush_stream_core p cause chosen) (s.flush_queue p · cause chosen)
    (s.flush_clip p cause chosen) fun c => namingEntries_split c chosen (s.queue p)

theorem namingEntries_cons (c : Fin 256) (e : Entry) (l : List Entry) :
    namingEntries c (e :: l) = namingEntries c l + if e.clip = c then 1 else 0 := by
  rw [namingEntries_eq_count, namingEntries_eq_count, List.map_cons, List.count_cons]
  simp

theorem State.entryDone_queue (s : State) (p q : Fin 64) (w : Fin 16) (e : Entry) (rest : List Entry) :
    (s.entryDone p w e rest).queue q = if p = q then rest else s.queue q := by
  unfold State.queue
  rw [State.entryDone_whisper]
  exact Table.cell_put ..

theorem State.entryDone_playsCounted {s : State} {p : Fin 64} {e : Entry} {rest : List Entry} (queue : s.queue p = e :: rest)
    (w : Fin 16) (counted : s.playsCounted) : (s.entryDone p w e rest).playsCounted :=
  State.playsCounted_of_unqueued counted (fun k => by rw [State.entryDone_stream]) (s.entryDone_queue p · w e rest)
    (s.entryDone_clip p w e rest) fun c => by rw [queue, namingEntries_cons]

/-! ## Acts of play -/

theorem State.playsCounted_of_ledger {s t : State} (h : LedgerKept s t) (counted : s.playsCounted) : t.playsCounted := by
  obtain ⟨-, -, tidy⟩ := (State.playsCounted_iff s).mp counted
  exact State.playsCounted_of_change (gained := fun _ => 0) (lost := fun _ => 0) counted
    (fun c => by rw [State.references_of_ledger c h.stream h.queue]) h.clip (fun _ none => absurd rfl none)
    fun k => (tidy k).of_core (h.stream k)

/-- The write-busy count is no part of the play count. -/
theorem State.playsCounted_of_clip {s : State} {c : Fin 256} {x : Clip} (plays : x.plays = (s.clip c).plays)
    (free : x.defined = false → x.plays = 0) (counted : s.playsCounted) : (s.setClip c x).playsCounted := by
  obtain ⟨counts, empty, tidy⟩ := (State.playsCounted_iff s).mp counted
  refine (State.playsCounted_iff _).mpr ⟨fun d => ?_, fun d => ?_, tidy⟩ <;> rw [State.setClip_clip] <;> split
  · next same => subst same; exact plays.trans (counts c)
  · exact counts d
  · exact free
  · exact empty d

theorem counted_blind : Blind State.playsCounted where
  kept := State.playsCounted_of_ledger
  restream := State.playsCounted_of_restream
  switched := State.switch_playsCounted
  unmarked {s c x} same counted := by
    obtain ⟨defined, -, -, -, plays, -⟩ := Clip.core_inj.mp same
    obtain ⟨-, empty, -⟩ := (State.playsCounted_iff s).mp counted
    exact State.playsCounted_of_clip plays (fun free => plays.trans (empty c (defined.symm.trans free))) counted
  stopped := State.stopStream_playsCounted
  played := State.entryDone_playsCounted
  flushed := State.flush_playsCounted

/-! ## References made (R107, R142, R143, R158) -/

/-- A stream takes a playlist of DEFINED clips, and gives up what it held. -/
theorem State.playsCounted_of_taken {s t : State} {k : Fin 16} {x : Stream} {l : Playlist} {lost : Fin 256 → Nat}
    (counted : s.playsCounted) (playable : ∀ i ∈ l.items, s.playable i.clip)
    (stream : ∀ j, t.stream j = if k = j then x else s.stream j) (queue : t.queue = s.queue)
    (clip : ∀ c, (t.clip c).core = ({ s.clip c with
      plays := (s.clip c).plays + Machine.namings c (some l) - lost c } : Clip).core)
    (balance : ∀ c, x.namings c + lost c = (s.stream k).namings c + Machine.namings c (some l)) (own : x.Tidy) :
    t.playsCounted := by
  obtain ⟨-, -, tidy⟩ := (State.playsCounted_iff s).mp counted
  refine State.playsCounted_of_change counted (fun c => ?_) clip (fun c named => ?_) fun j => ?_
  · have changed := State.references_of_restream c stream queue
    have balance := balance c
    omega
  · obtain ⟨i, member⟩ := List.exists_mem_of_length_pos (Nat.pos_of_ne_zero named)
    obtain ⟨member, same⟩ := List.mem_filter.mp member
    rw [← of_decide_eq_true same]
    exact (playable i member).1
  · rw [stream]
    split
    · exact own
    · exact tidy j

section
variable (s : State) (p : Port) (k : Fin 16) (l : Playlist)

theorem State.acceptItems_queue (items : List Item) : (s.acceptItems p items).queue = s.queue := by
  unfold State.queue
  rw [s.acceptItems_touches p items .whisper (by decide)]

theorem State.traded_stream (x : Option Playlist) : (s.traded p l x).stream = s.stream := by
  unfold State.traded
  rw [← s.acceptItems_stream p l.items]
  exact funext fun j => State.dropPlays_stream _ x j

theorem State.traded_queue (x : Option Playlist) : (s.traded p l x).queue = s.queue := by
  rw [← s.acceptItems_queue p l.items]
  unfold State.queue State.traded
  rw [State.dropPlays_touches _ x .whisper (by decide)]

theorem State.traded_core (x : Option Playlist) (c : Fin 256) : ((s.traded p l x).clip c).core
    = ({ s.clip c with plays := (s.clip c).plays + Machine.namings c (some l) - Machine.namings c x } : Clip).core := by
  obtain ⟨defined, base, length, fill, plays, busy⟩ := Clip.core_inj.mp (s.acceptItems_core p l.items c)
  unfold State.traded
  rw [State.dropPlays_clip_namings]
  refine Clip.core_inj.mpr ⟨defined, base, length, fill, ?_, busy⟩
  exact congrArg (· - Machine.namings c x) plays

theorem State.stagedOn_stream (j : Fin 16) : (s.stagedOn p k l).stream j
    = if k = j then { s.stream k with staged := some l } else s.stream j := by
  unfold State.stagedOn
  rw [State.setStream_stream, State.traded_stream]

end

/-! ## LOAD STREAM before its request (R143) -/

section
variable {s : State} {k : Fin 16} {l : Playlist} (playable : ∀ i ∈ l.items, s.playable i.clip) (p : Port)
  (counted : s.playsCounted)
include playable counted

theorem State.begun_playsCounted (stopped : (s.stream k).state = .stopped) : (s.begun p k l).playsCounted := by
  obtain ⟨-, -, tidy⟩ := (State.playsCounted_iff s).mp counted
  obtain ⟨current, staged⟩ := (tidy k).stopped stopped
  refine State.playsCounted_of_taken (k := k) (x := (s.stream k).started p l) (lost := fun _ => 0) counted playable
    (fun j => ?_) (s.acceptItems_queue p _) (s.acceptItems_core p _) (fun c => ?_) ⟨nofun, nofun, nofun⟩
  · unfold State.begun
    rw [State.setStream_stream, State.acceptItems_stream]
  · unfold Stream.namings
    rw [current, staged]
    exact Nat.add_comm (Machine.namings c (some l)) 0

theorem State.loaded_playsCounted_of_ended (ended : (s.stream k).state = .ended) : (s.loaded p k l).playsCounted := by
  obtain ⟨-, -, tidy⟩ := (State.playsCounted_iff s).mp counted
  have unstaged := (tidy k).exhausted ((tidy k).ended ended).1
  unfold State.loaded
  rw [if_pos ended]
  refine State.playsCounted_of_taken (k := k) (x := (s.stream k).restarted l)
    (lost := fun c => Machine.namings c (s.stream k).current) counted playable (fun j => ?_) (s.traded_queue p l _)
    (s.traded_core p l _) (fun c => ?_) ⟨nofun, nofun, nofun⟩
  · rw [State.setStream_stream, State.traded_stream]
  · unfold Stream.namings
    rw [unstaged]
    exact Nat.add_comm (Machine.namings c (some l)) _

theorem State.stagedOn_playsCounted (running : (s.stream k).state = .running)
    (going : (s.stream k).cursor ≠ .exhausted) : (s.stagedOn p k l).playsCounted := by
  refine State.playsCounted_of_taken (k := k) (x := { s.stream k with staged := some l })
    (lost := fun c => Machine.namings c (s.stream k).staged) counted playable (fun j => ?_) (s.traded_queue p l _)
    (s.traded_core p l _) (fun c => ?_) ?_
  · exact s.stagedOn_stream p k l j
  · unfold Stream.namings
    dsimp only
    omega
  · exact .of_going (x := s.stream k) (fun stopped => nomatch running.symm.trans stopped)
      (fun ended => nomatch running.symm.trans ended) rfl going

/-- With an exhausted cursor no list was staged, so the switch gives up the current list alone. -/
theorem State.stagedOn_switch_playsCounted (running : (s.stream k).state = .running)
    (exhausted : (s.stream k).cursor = .exhausted) (i : Nat) : ((s.stagedOn p k l).switch k i).playsCounted := by
  obtain ⟨-, -, tidy⟩ := (State.playsCounted_iff s).mp counted
  have unstaged := (tidy k).exhausted exhausted
  have own := (s.stagedOn_stream p k l k).trans (if_pos rfl)
  have staged : ((s.stagedOn p k l).stream k).staged = some l := by rw [own]
  have clips : ∀ c, (((s.stagedOn p k l).switch k i).clip c).core
      = ((s.traded p l (s.stream k).current).clip c).core := fun c => by
    unfold State.traded
    rw [State.switch_of_staged_clip staged, own, State.dropPlays_clip_namings]
    unfold State.stagedOn State.traded
    rw [unstaged]
    rfl
  refine State.playsCounted_of_taken (k := k) (x := (s.stream k).switched l)
    (lost := fun c => Machine.namings c (s.stream k).current) counted playable (fun j => ?_) ?_
    (fun c => (clips c).trans (s.traded_core p l _ c)) (fun c => ?_) ?_
  · rw [State.switch_of_staged_stream staged, own, State.stagedOn_stream]
    split
    · rfl
    · rfl
  · exact (State.switch_queue _ k _).trans (s.traded_queue p l _)
  · unfold Stream.namings
    rw [unstaged]
    exact Nat.add_comm (Machine.namings c (some l)) _
  · exact .of_going (x := s.stream k) (fun stopped => nomatch running.symm.trans stopped)
      (fun ended => nomatch running.symm.trans ended) rfl nofun

theorem State.loaded_playsCounted (going : (s.stream k).state ≠ .stopped) : (s.loaded p k l).playsCounted := by
  by_cases ended : (s.stream k).state = .ended
  · exact State.loaded_playsCounted_of_ended playable p counted ended
  · have running : (s.stream k).state = .running := by
      cases state : (s.stream k).state with
      | stopped => exact absurd state going
      | ended => exact absurd state ended
      | running => rfl
    unfold State.loaded
    rw [if_neg ended]
    split
    · next exhausted => exact State.stagedOn_switch_playsCounted playable p counted running exhausted _
    · next going => exact State.stagedOn_playsCounted playable p counted running going

end

/-! ## Entries that join a queue (R158, R159) -/

theorem namingEntries_placed {e : Entry} {place : List Entry → List Entry}
    (placed : place = (fun q => q ++ [e]) ∨ place = placeAnnounce e) (c : Fin 256) (q : List Entry) :
    namingEntries c (place q) = namingEntries c q + if e.clip = c then 1 else 0 := by
  rw [← namingEntries_cons, namingEntries_eq_count, namingEntries_eq_count]
  refine List.Perm.count_eq (List.Perm.map _ ?_) c
  rcases placed with rfl | rfl
  · exact List.perm_append_singleton e q
  · cases q with
    | nil => exact List.Perm.refl _
    | cons f rest =>
      rw [placeAnnounce_cons]
      split
      · exact List.Perm.refl _
      · exact List.Perm.swap e f rest

theorem State.enqueued_playsCounted {s : State} {q : Fin 64} {e : Entry} {place : List Entry → List Entry}
    (playable : s.playable e.clip) (placed : place = (fun q => q ++ [e]) ∨ place = placeAnnounce e) (port : Port)
    (counted : s.playsCounted) : (s.enqueued q port e place).playsCounted := by
  obtain ⟨-, -, tidy⟩ := (State.playsCounted_iff s).mp counted
  have streams : (s.enqueued q port e place).stream = s.stream := by
    unfold State.stream
    rw [s.enqueued_touches q port e place .streams (by decide)]
  refine State.playsCounted_of_change (gained := fun c => if e.clip = c then 1 else 0) (lost := fun _ => 0) counted
    (fun c => ?_) (s.enqueued_core port q e place) (fun c named => ?_) fun k => by rw [streams]; exact tidy k
  · have changed := State.references_of_requeue c (fun k => by rw [streams]) (s.enqueued_queue q · port e place)
    rw [namingEntries_placed placed] at changed
    omega
  · split at named
    · next same => rw [← same]; exact playable.1
    · exact absurd rfl named

/-! ## The statement -/

theorem Gain.playsCounted {s t : State} (gain : Gain s t) (counted : s.playsCounted) : t.playsCounted := by
  cases gain with
  | started stopped playable p => exact State.begun_playsCounted playable p counted stopped
  | loaded going playable p => exact State.loaded_playsCounted playable p counted going
  | queued playable waiting placed port => exact State.enqueued_playsCounted playable placed port counted
  | @marked c unplayed => exact State.playsCounted_of_clip rfl (fun _ => unplayed) counted

theorem Reshape.playsCounted {s t : State} (reshape : Reshape s t) (counted : s.playsCounted) : t.playsCounted := by
  cases reshape with
  | reset same => exact State.playsCounted_of_ledger same.ledger reset_playsCounted
  | shifted shifting word => exact counted
  | prepared preparing memory highway => exact counted
  | @defined c x running defined unplayed unwritten short long filled fits within idle apart =>
    refine State.playsCounted_of_clip ?_ (fun _ => unplayed) counted
    obtain ⟨-, empty, -⟩ := (State.playsCounted_iff s).mp counted
    cases old : (s.clip c).defined with
    | true => exact unplayed.trans (idle old).1.symm
    | false => exact unplayed.trans (empty c old).symm
  | freed unplayed unwritten => exact State.playsCounted_of_clip unplayed.symm (fun _ => rfl) counted

theorem Move.playsCounted {s t : State} (move : Move s t) (counted : s.playsCounted) : t.playsCounted := by
  rcases move with act | gain | reshape
  · exact counted_blind.act act counted
  · exact gain.playsCounted counted
  · exact reshape.playsCounted counted

/-- Settles O60: each act of a command changes play counts as it changes references. -/
theorem playCountsCountReferences : Obligations.PlayCountsCountReferences := fun _ _ counted h =>
  (step_moves h).keeps (fun _ _ move => move.playsCounted) counted

end Sys2Proof.Machine
end

section
/-! PROOFS. Fetch cursors and the pages of memory operations: what a change carries along (R105, R124, R127, R140, R162). -/

namespace Sys2Proof.Machine

/-! ## The clips that are referred to (R104, R115) -/

/-- Play counts count the references, and clips lie within memory: so every clip that is referred to has pages. -/
def State.Grounded (s : State) : Prop := s.playsCounted ∧ s.clipsSound

theorem State.Grounded.counted {s : State} (h : s.Grounded) : s.playsCounted := h.1

theorem State.Grounded.clips {s : State} (h : s.Grounded) : s.clipsSound := h.2

/-- What calm clips keep is blind. -/
theorem Blind.of_calm {P : State → Prop} (calm : ∀ {s t}, ClipsCalm s t → P s → P t) : Blind P where
  kept same := calm ((calm_blind _).kept same (.refl _))
  restream current staged keeps := calm ((calm_blind _).restream current staged keeps (.refl _))
  switched next i := calm ((calm_blind _).switched next i (.refl _))
  unmarked same := calm ((calm_blind _).unmarked same (.refl _))
  stopped k := calm ((calm_blind _).stopped k (.refl _))
  played queue w := calm ((calm_blind _).played queue w (.refl _))
  flushed p cause chosen := calm ((calm_blind _).flushed p cause chosen (.refl _))

theorem Blind.both {P Q : State → Prop} (left : Blind P) (right : Blind Q) : Blind fun s => P s ∧ Q s where
  kept same h := ⟨left.kept same h.1, right.kept same h.2⟩
  restream current staged keeps h :=
    ⟨left.restream current staged keeps h.1, right.restream current staged keeps h.2⟩
  switched next i h := ⟨left.switched next i h.1, right.switched next i h.2⟩
  unmarked same h := ⟨left.unmarked same h.1, right.unmarked same h.2⟩
  stopped k h := ⟨left.stopped k h.1, right.stopped k h.2⟩
  played queue w h := ⟨left.played queue w h.1, right.played queue w h.2⟩
  flushed p cause chosen h := ⟨left.flushed p cause chosen h.1, right.flushed p cause chosen h.2⟩

theorem grounded_blind : Blind State.Grounded :=
  counted_blind.both (Blind.of_calm fun calm => State.clipsSound_of_shapes calm.toShapesKept)

theorem Move.grounded {s t : State} (move : Move s t) (h : s.Grounded) : t.Grounded :=
  ⟨move.playsCounted h.counted, move.clipsSound h.clips⟩

/-- A clip with pages in memory, in a part that runs. -/
structure State.Stands (s : State) (c : Fin 256) : Prop where
  running : s.phase = .running
  short : 1 ≤ (s.clip c).length
  within : (s.clip c).base + (s.clip c).length ≤ s.pageCount

theorem State.clipsSound.stands {s : State} (sound : s.clipsSound) {c : Fin 256} (defined : (s.clip c).defined = true) :
    s.Stands c := by
  obtain ⟨-, ranges, none⟩ := sound
  obtain ⟨within, short, -⟩ := ranges c defined
  refine ⟨?_, short, within⟩
  by_contra early
  exact absurd defined (Bool.eq_false_iff.mp (none early c))

theorem State.references_pos_of_item {s : State} {k : Fin 16} {l : Playlist} {i : Item}
    (current : (s.stream k).current = some l) (member : i ∈ l.items) : 0 < s.references i.clip := by
  have named : 0 < (s.stream k).namings i.clip := by
    have one : 0 < Machine.namings i.clip (some l) :=
      List.length_pos_of_mem (List.mem_filter.mpr ⟨member, decide_eq_true rfl⟩)
    unfold Stream.namings
    rw [current]
    omega
  have least := List.le_sum_of_mem (List.mem_map_of_mem (f := fun k => (s.stream k).namings i.clip) (List.mem_finRange k))
  rw [State.references_eq]
  omega

theorem State.references_pos_of_entry {s : State} {p : Fin 64} {e : Entry} (member : e ∈ s.queue p) :
    0 < s.references e.clip := by
  have named : 0 < namingEntries e.clip (s.queue p) :=
    List.length_pos_of_mem (List.mem_filter.mpr ⟨member, decide_eq_true rfl⟩)
  have least := List.le_sum_of_mem
    (List.mem_map_of_mem (f := fun p => namingEntries e.clip (s.queue p)) (List.mem_finRange p))
  rw [State.references_eq]
  omega

theorem State.Grounded.stands {s : State} (h : s.Grounded) {c : Fin 256} (referred : 0 < s.references c) : s.Stands c := by
  obtain ⟨⟨counts, free, -⟩, sound⟩ := h
  refine sound.stands ?_
  by_contra undefined
  have none := (counts c).symm.trans (free c (Bool.eq_false_iff.mpr undefined))
  omega

/-! ## Cursors (R140, R162) -/

/-- A stream whose playlist and cursor are as they were, or whose cursor names no page but an item's first. -/
def Stream.Onward (x y : Stream) : Prop :=
  y.current = x.current ∧ y.cursor = x.cursor ∨ ∀ item index, y.cursor = .page item index → index = 0

theorem Stream.Onward.of_core {x y : Stream} (same : y.core = x.core) : x.Onward y := by
  obtain ⟨-, current, -, cursor, -⟩ := Stream.core_inj.mp same
  exact .inl ⟨current, cursor⟩

theorem Stream.Onward.refl (x : Stream) : x.Onward x := .inl ⟨rfl, rfl⟩

/-- Each prompt player with a page to fetch plays the clip that it played, with its cursor as it was, or begins a clip. -/
def PromptsCarried (s t : State) : Prop :=
  ∀ w p e index, (t.player w).assigned = some p → (t.queue p).head? = some e → (t.player w).cursor = .page index →
    index = 0 ∨ (s.player w).assigned = some p ∧ (s.player w).cursor = .page index
      ∧ ∃ e', (s.queue p).head? = some e' ∧ e'.clip = e.clip

theorem PromptsCarried.of_core {s t : State} (player : ∀ w, (t.player w).core = (s.player w).core)
    (queue : ∀ p, (t.queue p).map Entry.clip = (s.queue p).map Entry.clip) : PromptsCarried s t := by
  intro w p e index own head cursor
  have same := player w
  unfold PromptPlayer.core at same
  obtain ⟨assigned, cursors⟩ := Prod.mk.injEq .. ▸ same
  have heads := congrArg List.head? (queue p)
  rw [List.head?_map, List.head?_map, head] at heads
  obtain ⟨e', head', clip⟩ := Option.map_eq_some_iff.mp heads.symm
  exact .inr ⟨assigned.symm.trans own, cursors.symm.trans cursor, e', head', clip⟩

/-- From `s` to `t` no clip is defined, freed or moved, cursors stand where they stood or at a first page, and nothing new
waits for memory. -/
structure Carried (s t : State) : Prop where
  shapes : ShapesKept s t
  streams : ∀ k, (s.stream k).Onward (t.stream k)
  prompts : PromptsCarried s t
  bus : t.arbiter.bus = s.arbiter.bus
  pendingOps : t.arbiter.pendingOps = s.arbiter.pendingOps
  pointer : t.arbiter.scrubPointer = s.arbiter.scrubPointer
  queue : ∀ f ∈ t.arbiter.queue, f ∈ s.arbiter.queue

theorem StoreKept.carried {s t : State} (h : StoreKept s t) : Carried s t := by
  obtain ⟨bus, queue, pendingOps, pointer⟩ : t.arbiter.bus = s.arbiter.bus ∧ t.arbiter.queue = s.arbiter.queue
      ∧ t.arbiter.pendingOps = s.arbiter.pendingOps ∧ t.arbiter.scrubPointer = s.arbiter.scrubPointer := by
    have pages := h.pages
    simpa only [Arbiter.pages, Prod.mk.injEq] using pages
  exact {
    shapes := (ClipsCalm.of_core h.phase h.startUp h.clip).toShapesKept
    streams := fun k => .of_core (h.stream k)
    prompts := .of_core h.player h.ledger.queue
    bus := bus
    pendingOps := pendingOps
    pointer := pointer
    queue := fun f member => queue ▸ member }

theorem Carried.of_arbiter {s t : State} (shapes : ShapesKept s t) (streams : ∀ k, (s.stream k).Onward (t.stream k))
    (prompts : PromptsCarried s t) (arbiter : t.arbiter = s.arbiter) : Carried s t where
  shapes := shapes
  streams := streams
  prompts := prompts
  bus := by rw [arbiter]
  pendingOps := by rw [arbiter]
  pointer := by rw [arbiter]
  queue f member := by rwa [← arbiter]

/-! ## Everything in its place -/

/-- What the obligation asserts of cursors and pages, with what it rests on. -/
structure State.InPlace (s : State) : Prop where
  grounded : s.Grounded
  held : s.PlayersHeld
  pointer : s.phase = .running → s.arbiter.scrubPointer < s.pageCount
  cursors : s.cursorsSound
  pages : s.pagesSound

theorem State.Grounded.first_page {s : State} (h : s.Grounded) {k : Fin 16} {l : Playlist} {item : Nat} {i : Item}
    (current : (s.stream k).current = some l) (names : l.items[item]? = some i) : 0 < (s.clip i.clip).length :=
  (h.stands (State.references_pos_of_item current (List.mem_of_getElem? names))).short

theorem State.Grounded.first_of_head {s : State} (h : s.Grounded) {p : Fin 64} {e : Entry}
    (head : (s.queue p).head? = some e) : 0 < (s.clip e.clip).length :=
  (h.stands (State.references_pos_of_entry (List.mem_of_head? head))).short

theorem ShapesKept.length {s t : State} (h : ShapesKept s t) (c : Fin 256) : (t.clip c).length = (s.clip c).length := by
  obtain ⟨-, -, length, -⟩ := Clip.shape_inj.mp (h.shape c)
  exact length

theorem Carried.cursorsSound {s t : State} (carried : Carried s t) (grounded : t.Grounded) (sound : s.cursorsSound) :
    t.cursorsSound := by
  obtain ⟨streams, prompts⟩ := sound
  refine ⟨fun k l item index i current cursor names => ?_, fun w p e index own head cursor => ?_⟩
  · rcases carried.streams k with ⟨samePlaylist, sameCursor⟩ | first
    · rw [carried.shapes.length]
      exact streams k l item index i (samePlaylist.symm.trans current) (sameCursor.symm.trans cursor) names
    · rw [first item index cursor]
      exact grounded.first_page current names
  · rcases carried.prompts w p e index own head cursor with rfl | ⟨own', cursor', e', head', clip⟩
    · exact grounded.first_of_head head
    · rw [carried.shapes.length, ← clip]
      exact prompts w p e' index own' head' cursor'

theorem State.busPage_of_bus {s t : State} (bus : t.arbiter.bus = s.arbiter.bus)
    (pointer : t.arbiter.scrubPointer = s.arbiter.scrubPointer) : t.busPage = s.busPage := by
  unfold State.busPage
  rw [bus, pointer]

theorem Carried.pagesSound {s t : State} (carried : Carried s t) (sound : s.pagesSound) : t.pagesSound := by
  obtain ⟨queue, pending, busy, early⟩ := sound
  have pageCount := carried.shapes.pageCount
  refine ⟨fun f member => ?_, fun p op waits => ?_, fun page onBus => ?_, fun notRunning => ?_⟩
  · rw [pageCount]
    exact queue f (carried.queue f member)
  · rw [pageCount]
    exact pending p op (carried.pendingOps ▸ waits)
  · rw [pageCount]
    exact busy page ((State.busPage_of_bus carried.bus carried.pointer).symm.trans onBus)
  · obtain ⟨empty, none, free⟩ := early (carried.shapes.phase ▸ notRunning)
    refine ⟨List.eq_nil_iff_forall_not_mem.mpr fun f member => ?_, carried.pendingOps.trans none, carried.bus.trans free⟩
    exact absurd (carried.queue f member) (by rw [empty]; exact List.not_mem_nil)

theorem State.InPlace.carried {s t : State} (h : s.InPlace) (carried : Carried s t) (grounded : t.Grounded)
    (held : t.PlayersHeld) : t.InPlace where
  grounded := grounded
  held := held
  pointer running := by
    rw [carried.pointer, carried.shapes.pageCount]
    exact h.pointer (carried.shapes.phase.symm.trans running)
  cursors := carried.cursorsSound grounded h.cursors
  pages := carried.pagesSound h.pages

theorem StoreKept.playersHeld {s t : State} (h : StoreKept s t) (held : s.PlayersHeld) : t.PlayersHeld := by
  refine held.of_same (fun p => ?_) fun w => ?_
  · have phases := congrArg (List.map Prod.snd) (h.queue p)
    rwa [List.map_map, List.map_map] at phases
  · exact congrArg Prod.fst (h.player w)

theorem State.InPlace.kept {s t : State} (h : s.InPlace) (same : StoreKept s t) : t.InPlace :=
  h.carried same.carried (grounded_blind.kept same.ledger h.grounded) (same.playersHeld h.held)

section
variable {s : State} (h : s.pagesSound)
include h

theorem State.pagesSound.queued {f : Fetch} (member : f ∈ s.arbiter.queue) : f.page < s.pageCount := by
  obtain ⟨queued, -⟩ := h
  exact queued f member

theorem State.pagesSound.waiting {p : Port} {op : PortOp} (waits : s.arbiter.pendingOps.cell p = some op) :
    op.page < s.pageCount := by
  obtain ⟨-, waiting, -⟩ := h
  exact waiting p op waits

theorem State.pagesSound.busy {page : Nat} (onBus : s.busPage = some page) : page < s.pageCount := by
  obtain ⟨-, -, busy, -⟩ := h
  exact busy page onBus

theorem State.pagesSound.idle (notRunning : s.phase ≠ .running) :
    s.arbiter.queue = [] ∧ s.arbiter.pendingOps = ⟨none, none⟩ ∧ s.arbiter.bus = none := by
  obtain ⟨-, -, -, idle⟩ := h
  exact idle notRunning

end

/-- Operations that name pages of memory may join the arbiter of a part that runs. -/
theorem State.InPlace.setArbiter {s : State} (h : s.InPlace) (running : s.phase = .running) {x : Arbiter}
    (pointer : x.scrubPointer < s.pageCount) (queue : ∀ f ∈ x.queue, f.page < s.pageCount)
    (pending : ∀ p op, x.pendingOps.cell p = some op → op.page < s.pageCount)
    (bus : ∀ page, (s.setArbiter x).busPage = some page → page < s.pageCount) : (s.setArbiter x).InPlace where
  grounded := grounded_blind.arbiter x h.grounded
  held := h.held.of_whisper rfl
  pointer _ := pointer
  cursors := h.cursors
  pages := ⟨queue, pending, bus, fun early => absurd running early⟩

end Sys2Proof.Machine
end

section
/-! PROOFS. The acts of play leave every cursor and every page of memory in its place (R126 to R132, R140, R146, R161 to R166). -/

namespace Sys2Proof.Machine

/-! ## Cursors that move on (R146, R148, R149) -/

theorem Stream.Onward.trans {x y z : Stream} (h : x.Onward y) (k : y.Onward z) : x.Onward z := by
  rcases k with ⟨current, cursor⟩ | first
  · rcases h with ⟨current', cursor'⟩ | first
    · exact .inl ⟨current.trans current', cursor.trans cursor'⟩
    · exact .inr fun item index names => first item index (cursor.symm.trans names)
  · exact .inr first

theorem Playlist.after_first (l : Playlist) (i item index : Nat) (h : l.after i = .page item index) : index = 0 := by
  unfold Playlist.after at h
  split at h <;> cases h
  rfl

theorem Playlist.outerStep_first (l : Playlist) (i outer item index : Nat) (h : (l.outerStep i outer).1 = .page item index) :
    index = 0 := by
  unfold Playlist.outerStep at h
  split at h
  · split at h
    · cases h; rfl
    · split at h
      · cases h; rfl
      · exact l.after_first i item index h
  · exact l.after_first i item index h

/-- The decision at the end of an item leads to the first page of an item. -/
theorem Playlist.decide_first (l : Playlist) (i inner outer item index : Nat)
    (h : (l.decide i inner outer).1 = .page item index) : index = 0 := by
  unfold Playlist.decide at h
  split at h
  · split at h
    · cases h; rfl
    · exact l.outerStep_first i outer item index h
  · exact l.outerStep_first i outer item index h

section
variable (s : State)

theorem State.setStream_onward (k : Fin 16) {x : Stream} (onward : (s.stream k).Onward x) (j : Fin 16) :
    (s.stream j).Onward ((s.setStream k x).stream j) := by
  rw [State.setStream_stream]
  split
  · next same => rw [← same]; exact onward
  · exact .refl _

theorem State.switch_onward (k : Fin 16) (i : Nat) (j : Fin 16) : (s.stream j).Onward ((s.switch k i).stream j) := by
  cases staged : (s.stream k).staged with
  | none =>
    rw [State.switch_of_unstaged staged]
    exact .refl _
  | some l =>
    rw [State.switch_of_staged_stream staged]
    split
    · exact .inr fun item index names => by cases names; rfl
    · exact .refl _

theorem State.itemEnd_onward (k : Fin 16) (i : Nat) (j : Fin 16) : (s.stream j).Onward ((s.itemEnd k i).stream j) := by
  unfold State.itemEnd
  dsimp only
  split
  · exact s.switch_onward k i j
  · split
    · exact s.setStream_onward k (.inr fun item index => Playlist.decide_first _ i _ _ item index) j
    · exact .refl _

theorem State.streamArrival_onward (k : Fin 16) (index : Nat) (codes : PageCodes) (j : Fin 16) :
    (s.stream j).Onward ((s.streamArrival k index codes).stream j) := by
  unfold State.streamArrival
  dsimp only
  split
  · split
    · have filled : ∀ page, (s.stream j).Onward ((s.setStream k { s.stream k with next := .filled page }).stream j) :=
        fun page => by
          refine s.setStream_onward k ?_ j
          exact .inl ⟨rfl, rfl⟩
      split
      · exact (filled _).trans (State.itemEnd_onward _ k _ j)
      · exact filled _
    · exact .refl _
  · exact .refl _

theorem PromptsCarried.of_whisper {s t : State} (same : t.whisper = s.whisper) : PromptsCarried s t :=
  .of_core (fun w => by unfold State.player; rw [same]) fun p => by unfold State.queue; rw [same]

theorem State.promptArrival_kept (w : Fin 16) (index : Nat) (codes : PageCodes) :
    StoreKept s (s.promptArrival w index codes) := by
  unfold State.promptArrival
  dsimp only
  split
  · exact s.setPlayer_kept w rfl
  · exact .refl s

theorem State.streamArrival_carried (k : Fin 16) (index : Nat) (codes : PageCodes) :
    Carried s (s.streamArrival k index codes) :=
  .of_arbiter ((calm_blind s).streamArrival k index codes (.refl s)).toShapesKept (s.streamArrival_onward k index codes)
    (.of_whisper (s.streamArrival_touches k index codes .whisper (by decide)))
    (s.streamArrival_touches k index codes .arbiter (by decide))

end

section
variable {s : State}

theorem State.InPlace.deliver (h : s.InPlace) (f : Fetch) (codes : PageCodes) : (s.deliver f codes).InPlace := by
  unfold State.deliver
  split
  · next k _ =>
    split
    · exact h.carried (s.streamArrival_carried k _ codes) (grounded_blind.streamArrival k _ codes h.grounded)
        (h.held.of_whisper (s.streamArrival_touches k _ codes .whisper (by decide)))
    · exact h
  · next w _ =>
    split
    · exact h.kept (s.promptArrival_kept w _ codes)
    · exact h

/-! ## The grant (R125, R126, R129) -/

/-- Until the part runs the bus is free, so an operation on the bus shows that it runs. -/
theorem State.InPlace.running_of_bus (h : s.InPlace) {op : BusOp} (bus : s.arbiter.bus = some op) : s.phase = .running := by
  by_contra notRunning
  obtain ⟨-, -, free⟩ := h.pages.idle notRunning
  exact nomatch bus.symm.trans free

/-- The arbiter gives up waiting operations, and an operation for a page of memory is on the bus, or none. -/
theorem State.InPlace.rearbitrated (h : s.InPlace) (running : s.phase = .running) {x : Arbiter}
    (pointer : x.scrubPointer = s.arbiter.scrubPointer) (queue : ∀ f ∈ x.queue, f ∈ s.arbiter.queue)
    (pending : ∀ p op, x.pendingOps.cell p = some op → s.arbiter.pendingOps.cell p = some op)
    (bus : ∀ page, (s.setArbiter x).busPage = some page → page < s.pageCount) : (s.setArbiter x).InPlace :=
  h.setArbiter running (pointer ▸ h.pointer running) (fun f member => h.pages.queued (queue f member))
    (fun p op waits => h.pages.waiting (pending p op waits)) bus

theorem PerPort.put_none_cell {α : Type} {x : PerPort (Option α)} {p q : Port} {a : α} (h : (x.put p none).cell q = some a) :
    x.cell q = some a := by
  rw [PerPort.cell_put] at h
  split at h
  · exact nomatch h
  · exact h

theorem State.InPlace.unqueue (h : s.InPlace) (running : s.phase = .running) : s.unqueue.InPlace :=
  h.rearbitrated running rfl (fun _ member => List.mem_of_mem_tail member) (fun _ _ waits => waits)
    fun _ onBus => h.pages.busy onBus

theorem State.InPlace.grantPort (h : s.InPlace) (running : s.phase = .running) (p : Port) : (s.grantPort p).InPlace :=
  h.rearbitrated running rfl (fun _ member => member) (fun _ _ waits => PerPort.put_none_cell waits)
    fun _ onBus => h.pages.busy onBus

theorem State.InPlace.onBus (h : s.InPlace) (running : s.phase = .running) {op : BusOp}
    (within : ∀ page, (s.startBus op).busPage = some page → page < s.pageCount) : (s.startBus op).InPlace :=
  h.rearbitrated running rfl (fun _ member => member) (fun _ _ waits => waits) within

theorem State.InPlace.startScrub (h : s.InPlace) (running : s.phase = .running) : s.startScrub.InPlace :=
  h.rearbitrated running rfl (fun _ member => member) (fun _ _ waits => waits) fun page onBus => by
    cases onBus
    exact h.pointer running

theorem State.InPlace.grant (h : s.InPlace) (running : s.phase = .running) : s.grant.InPlace := by
  refine (State.grantRounds_keeps (P := fun t => t.phase = .running ∧ t.InPlace) ?_ ?_ ?_ ?_ ?_ _ s ⟨running, h⟩).2
  · exact fun t ⟨running, h⟩ _ => ⟨running, h.startScrub running⟩
  · exact fun t f rest ⟨running, h⟩ _ _ => ⟨(State.deliver_touches _ f _ .phase (by decide)).trans running,
      (h.unqueue running).deliver f _⟩
  · refine fun t f rest ⟨running, h⟩ _ queue => ⟨running, (h.unqueue running).onBus running fun page onBus => ?_⟩
    cases onBus
    exact h.pages.queued (by rw [queue]; exact List.mem_cons_self)
  · exact fun t p clip index page ⟨running, h⟩ _ _ => ⟨running, (h.grantPort running p).kept (State.answer_kept _ p _ _)⟩
  · refine fun t p op ⟨running, h⟩ _ waits => ⟨running, (h.grantPort running p).onBus running fun page onBus => ?_⟩
    cases op <;> cases onBus <;> exact h.pages.waiting waits

theorem State.InPlace.requestFetch (h : s.InPlace) (running : s.phase = .running) {f : Fetch} (page : f.page < s.pageCount) :
    (s.requestFetch f).InPlace := by
  refine State.InPlace.grant (h.setArbiter running (h.pointer running) (fun g member => ?_) (fun _ _ => h.pages.waiting)
    fun _ => h.pages.busy) running
  rcases List.mem_append.mp member with old | new
  · exact h.pages.queued old
  · rw [List.mem_singleton.mp new]
    exact page

/-! ## Requests (R146, R164) -/

theorem Stream.item_some {x : Stream} {i : Nat} {it : Item} (h : x.item i = some it) :
    ∃ l, x.current = some l ∧ l.items[i]? = some it := by
  unfold Stream.item at h
  split at h
  · next l current => exact ⟨l, current, h⟩
  · exact nomatch h

theorem Clip.next_lt {x : Clip} {index : Nat} (within : index < x.length) (further : ¬x.lastIndex index = true) :
    index + 1 < x.length := by
  unfold Clip.lastIndex at further
  simp only [decide_eq_true_iff] at further
  omega

/-- A stream's cursor moves on to the next page of its item. -/
theorem State.InPlace.fetching (h : s.InPlace) {k : Fin 16} {l : Playlist} {item index : Nat} {it : Item}
    (running : (s.stream k).state = .running) (current : (s.stream k).current = some l)
    (cursor : (s.stream k).cursor = .page item index) (names : l.items[item]? = some it) (next : StreamNext) :
    (s.setStream k { s.stream k with
      next := next
      cursor := if (s.clip it.clip).lastIndex index then .undecided else .page item (index + 1) }).InPlace := by
  obtain ⟨streams, prompts⟩ := h.cursors
  refine ⟨grounded_blind.restream rfl rfl (fun tidy => ⟨tidy.stopped, fun ended => ?_, fun exhausted => ?_⟩) h.grounded,
    h.held.of_whisper rfl, h.pointer, ⟨fun j l' item' index' i current' cursor' names' => ?_, prompts⟩, h.pages⟩
  · exact nomatch running.symm.trans ended
  · dsimp only at exhausted
    split at exhausted <;> exact nomatch exhausted
  · rw [State.setStream_stream] at current' cursor'
    split at current'
    · next same =>
      rw [if_pos same] at cursor'
      dsimp only at current' cursor'
      split at cursor'
      · exact nomatch cursor'
      · next further =>
        cases cursor'
        cases current.symm.trans current'
        cases names.symm.trans names'
        exact Clip.next_lt (streams k l item index it current cursor names) further
    · next apart =>
      rw [if_neg apart] at cursor'
      exact streams j l' item' index' i current' cursor' names'

theorem State.InPlace.streamRequest (h : s.InPlace) (k : Fin 16) : (s.streamRequest k).InPlace := by
  unfold State.streamRequest
  dsimp only
  split
  · next item index running empty cursor =>
    split
    · next it named =>
      obtain ⟨l, current, names⟩ := Stream.item_some named
      have stands := h.grounded.stands (State.references_pos_of_item current (List.mem_of_getElem? names))
      obtain ⟨streams, -⟩ := h.cursors
      have within := streams k l item index it current cursor names
      exact (h.fetching running current cursor names (.awaited item)).requestFetch stands.running
        (Nat.lt_of_lt_of_le (Nat.add_lt_add_left within _) stands.within)
    · exact h
  · exact h

theorem State.playedClip_some {w : Fin 16} {c : Fin 256} (h : s.playedClip w = some c) :
    ∃ p e, (s.player w).assigned = some p ∧ (s.queue p).head? = some e ∧ e.clip = c := by
  unfold State.playedClip at h
  split at h
  · next p own =>
    obtain ⟨e, head, clip⟩ := Option.map_eq_some_iff.mp h
    exact ⟨p, e, own, head, clip⟩
  · exact nomatch h

/-- A prompt player's cursor moves on to the next page of its clip. -/
theorem State.InPlace.prompting (h : s.InPlace) {w : Fin 16} {p : Fin 64} {e : Entry} {index : Nat}
    (own : (s.player w).assigned = some p) (head : (s.queue p).head? = some e) (cursor : (s.player w).cursor = .page index)
    (next : PromptNext) : (s.setPlayer w { s.player w with
      next := next
      cursor := if (s.clip e.clip).lastIndex index then .done else .page (index + 1) }).InPlace := by
  obtain ⟨streams, prompts⟩ := h.cursors
  have assigned : ∀ v x, (State.setPlayer s w { s.player w with next := next, cursor := x }).player v
      = if w = v then { s.player w with next := next, cursor := x } else s.player v := fun v x => s.setPlayer_player w v _
  refine ⟨grounded_blind.kept (s := s) (.of_parts rfl rfl rfl rfl fun _ => rfl) h.grounded,
    h.held.of_same (fun _ => rfl) fun v => ?_, h.pointer, ⟨streams, fun v q e' index' own' head' cursor' => ?_⟩, h.pages⟩
  · rw [assigned]
    split
    · next same => rw [same]
    · rfl
  · rw [assigned] at own' cursor'
    split at own'
    · next same =>
      rw [if_pos same] at cursor'
      dsimp only at own' cursor'
      cases own.symm.trans own'
      cases head.symm.trans head'
      split at cursor'
      · exact nomatch cursor'
      · next further =>
        cases cursor'
        exact Clip.next_lt (prompts w p e index own head cursor) further
    · next apart =>
      rw [if_neg apart] at cursor'
      exact prompts v q e' index' own' head' cursor'

theorem State.InPlace.promptRequest (h : s.InPlace) (w : Fin 16) : (s.promptRequest w).InPlace := by
  unfold State.promptRequest
  dsimp only
  split
  · next index c empty cursor played =>
    obtain ⟨p, e, own, head, rfl⟩ := State.playedClip_some played
    have stands := h.grounded.stands (State.references_pos_of_entry (List.mem_of_head? head))
    obtain ⟨-, prompts⟩ := h.cursors
    have within := prompts w p e index own head cursor
    exact (h.prompting own head cursor .awaited).requestFetch stands.running
      (Nat.lt_of_lt_of_le (Nat.add_lt_add_left within _) stands.within)
  · exact h

/-! ## Completions (R128, R130, R132) -/

theorem State.detected_kept (s : State) (page finder : Nat) : StoreKept s (s.detected page finder) := by
  have filed : ∀ (t : State) k o d, StoreKept t (t.fileBoth k o d) := fun t k o d =>
    .of_touches (t.fileBoth_touches k o d) (by decide)
  have listed : ∀ l n, StoreKept s (s.setArbiter { s.arbiter with badPages := l, uncorrectable := n }) := fun l n =>
    .of_parts rfl rfl rfl rfl rfl rfl
  unfold State.detected
  dsimp only
  split
  · exact (listed _ _).trans (filed _ _ _ _)
  · exact ((listed _ _).trans (filed _ _ _ _)).trans (filed _ _ _ _)

theorem State.counted_kept (s : State) (page finder : Nat) : StoreKept s (s.counted page finder) := by
  unfold State.counted
  split
  · exact s.detected_kept page finder
  · exact .of_parts rfl rfl rfl rfl rfl rfl

theorem State.struck_kept (s : State) (page : Nat) (upsets : List WordUpset) : StoreKept s (s.struck page upsets) :=
  .of_parts rfl rfl rfl rfl rfl rfl

theorem State.InPlace.freeBus (h : s.InPlace) (running : s.phase = .running) : s.freeBus.InPlace :=
  h.rearbitrated running rfl (fun _ member => member) (fun _ _ waits => waits) fun _ onBus => nomatch onBus

theorem State.InPlace.readFound (h : s.InPlace) (running : s.phase = .running) (page finder : Nat) (upsets : List WordUpset) :
    ((s.freeBus.struck page upsets).counted page finder).InPlace :=
  ((h.freeBus running).kept (State.struck_kept _ page upsets)).kept (State.counted_kept _ page finder)

theorem State.InPlace.fetchCompleted (h : s.InPlace) (running : s.phase = .running) (f : Fetch) (upsets : List WordUpset) :
    (s.fetchCompleted f upsets).InPlace := by
  refine ((h.readFound running f.page _ upsets).deliver f _).grant ?_
  rw [State.deliver_touches _ f _ .phase (by decide), State.counted_touches _ _ _ .phase (by decide)]
  exact running

theorem State.writeNoted_carried (s : State) (p : Port) (clip : Fin 256) (index : Nat) (noted : Bool) :
    Carried s (s.writeNoted p clip index noted) := by
  have touched := s.writeNoted_touches p clip index noted
  refine .of_arbiter ((calm_blind s).writeNoted p clip index noted (.refl s)).toShapesKept (fun k => ?_)
    (.of_whisper (touched .whisper (by decide))) (touched .arbiter (by decide))
  unfold State.stream
  rw [touched .streams (by decide)]
  exact .refl _

theorem State.InPlace.writeCompleted (h : s.InPlace) (running : s.phase = .running) (p : Port) (clip : Fin 256)
    (index page : Nat) (codes : PageCodes) (noted : Bool) : (s.writeCompleted p clip index page codes noted).InPlace := by
  have unlisted : ∀ m, ((s.freeBus.setMemory m).unlist page).InPlace := fun m =>
    (h.freeBus running).kept (.of_parts rfl rfl rfl rfl rfl rfl)
  have marked : ∀ m, (((s.freeBus.setMemory m).unlist page).writeNoted p clip index noted).InPlace := fun m =>
    (unlisted m).carried (State.writeNoted_carried _ p clip index noted)
      (grounded_blind.writeNoted p clip index noted (unlisted m).grounded)
      ((unlisted m).held.of_whisper (State.writeNoted_touches _ p clip index noted .whisper (by decide)))
  refine ((marked _).kept (State.answer_kept _ p _ _)).grant ?_
  rw [State.answer_touches _ p _ _ .phase (by decide), State.writeNoted_touches _ p clip index noted .phase (by decide)]
  exact running

theorem State.InPlace.readCompleted (h : s.InPlace) (running : s.phase = .running) (p : Port) (clip : Fin 256)
    (index page : Nat) (upsets : List WordUpset) : (s.readCompleted p clip index page upsets).InPlace := by
  refine ((h.readFound running page _ upsets).kept (State.answer_kept _ p _ _)).grant ?_
  rw [State.answer_touches _ p _ _ .phase (by decide), State.counted_touches _ _ _ .phase (by decide)]
  exact running

theorem State.scrubPage_kept (s : State) (page : Nat) (upsets : List WordUpset) : StoreKept s (s.scrubPage page upsets) := by
  have found : StoreKept s ((s.struck page upsets).counted page 0) := (s.struck_kept page upsets).trans (State.counted_kept _ page 0)
  unfold State.scrubPage
  dsimp only
  split
  · exact .refl s
  · split
    · exact found
    · exact found.trans (.of_parts rfl rfl rfl rfl rfl rfl)

/-- The pointer moves while no scrub step is on the bus. -/
theorem State.InPlace.advanceScrub (h : s.InPlace) (running : s.phase = .running) (free : s.arbiter.bus = none) :
    s.advanceScrub.InPlace := by
  obtain ⟨queued, waiting, -⟩ := h.pages
  have idle : ∀ x : Arbiter, x.bus = none → ∀ page, (s.setArbiter x).busPage = some page → page < s.pageCount :=
    fun x none page onBus => by
      unfold State.busPage at onBus
      rw [show (s.setArbiter x).arbiter.bus = Option.none from none] at onBus
      exact nomatch onBus
  unfold State.advanceScrub
  split
  · next further => exact h.setArbiter running further queued waiting (idle _ free)
  · exact h.setArbiter running (Nat.lt_of_le_of_lt (Nat.zero_le _) (h.pointer running)) queued waiting (idle _ free)

theorem State.InPlace.scrubCompleted (h : s.InPlace) (running : s.phase = .running) (upsets : List WordUpset) :
    (s.scrubCompleted upsets).InPlace := by
  have kept := s.freeBus.scrubPage_kept s.arbiter.scrubPointer upsets
  have running' := kept.phase.trans running
  exact (((h.freeBus running).kept kept).advanceScrub running' kept.carried.bus).grant
    ((State.advanceScrub_touches _ .phase (by decide)).trans running')

end

end Sys2Proof.Machine
end

section
/-! PROOFS. Every act leaves every cursor and every page of memory in its place (R104, R105, R108, R115, R124, R138, R140,
R142, R143, R158, R161 to R166). -/

namespace Sys2Proof.Machine

section
variable {s t : State}

/-! ## Streams and queues that change (R142 to R144, R147, R150) -/

/-- Only clips' counts and streams change. -/
theorem Carried.of_streams {parts : List Part} (touched : Touches parts s t) (untouched : .whisper ∉ parts ∧ .arbiter ∉ parts)
    (shapes : ShapesKept s t) (streams : ∀ k, (s.stream k).Onward (t.stream k)) : Carried s t :=
  .of_arbiter shapes streams (.of_whisper (touched .whisper untouched.1)) (touched .arbiter untouched.2)

theorem State.InPlace.restreamed (h : s.InPlace) {parts : List Part} (touched : Touches parts s t)
    (untouched : .whisper ∉ parts ∧ .arbiter ∉ parts) (shapes : ShapesKept s t)
    (streams : ∀ k, (s.stream k).Onward (t.stream k)) (grounded : t.Grounded) : t.InPlace :=
  h.carried (.of_streams touched untouched shapes streams) grounded (h.held.of_whisper (touched .whisper untouched.1))

theorem State.endIfDone_onward (s : State) (k j : Fin 16) : (s.stream j).Onward ((s.endIfDone k).stream j) := by
  unfold State.endIfDone
  dsimp only
  split
  · rw [State.fileOwner_stream]
    refine s.setStream_onward k ?_ j
    exact .inl ⟨rfl, rfl⟩
  · exact .refl _

theorem State.stopStream_arbiter (s : State) (k : Fin 16) : (s.stopStream k).arbiter
    = { s.arbiter with queue := s.arbiter.queue.filter fun f => f.player ≠ .stream k } := by
  have dropped : ∀ x y, ((s.dropPlays x).dropPlays y).arbiter = s.arbiter := fun x y =>
    (State.dropPlays_touches _ y .arbiter (by decide)).trans (s.dropPlays_touches x .arbiter (by decide))
  unfold State.stopStream State.cancelFetch
  dsimp only [State.setArbiter, State.setStream]
  rw [dropped]

theorem State.stopStream_carried (s : State) (k : Fin 16) : Carried s (s.stopStream k) where
  shapes := ((calm_blind s).stopped k (.refl s)).toShapesKept
  streams j := by
    rw [State.stopStream_stream]
    split
    · exact .inr fun item index names => nomatch names
    · exact .refl _
  prompts := .of_whisper (s.stopStream_touches k .whisper (by decide))
  bus := by rw [State.stopStream_arbiter]
  pendingOps := by rw [State.stopStream_arbiter]
  pointer := by rw [State.stopStream_arbiter]
  queue f member := by
    rw [State.stopStream_arbiter] at member
    exact (List.mem_filter.mp member).1

/-! ## Heads that begin (R163, R164) -/

theorem withHeadPhase_head (phase : EntryPhase) {q : List Entry} {e : Entry} (head : (withHeadPhase phase q).head? = some e) :
    ∃ e', q.head? = some e' ∧ e'.clip = e.clip := by
  cases q with
  | nil => exact nomatch head
  | cons f rest => cases head; exact ⟨f, rfl, rfl⟩

theorem State.PlayersHeld.rephased {p : Fin 64} {x y : EntryPhase} (h : s.PlayersHeld)
    (first : (s.phases p).head? = some x) (begun : x ≠ .waiting) (sounds : y ≠ .waiting)
    (others : ∀ q, q ≠ p → t.phases q = s.phases q) (phases : t.phases p = y :: (s.phases p).tail)
    (assigned : ∀ w, (t.player w).assigned = (s.player w).assigned) : t.PlayersHeld := by
  refine ⟨fun w q own => ?_, fun q z head other => ?_, fun v w q => ?_, fun q => ?_⟩
  · rw [assigned] at own
    by_cases same : q = p
    · rw [same, phases]
      exact ⟨y, rfl, sounds⟩
    · rw [others q same]
      exact h.head w q own
  · simp only [assigned]
    by_cases same : q = p
    · rw [same]
      exact h.held p x first begun
    · exact h.held q z (others q same ▸ head) other
  · rw [assigned, assigned]
    exact h.one v w q
  · by_cases same : q = p
    · rw [same, phases]
      exact h.tail p
    · rw [others q same]
      exact h.tail q

theorem State.InPlace.sounding (h : s.InPlace) {p : Fin 64} (primed : s.primed p = true) :
    (s.setQueue p (withHeadPhase .sounding (s.queue p))).InPlace := by
  obtain ⟨e, w, page, head, priming, -⟩ := (s.primed_iff p).mp primed
  have first : (s.phases p).head? = some .priming := (s.phases_head p _).mpr ⟨e, head, priming⟩
  refine h.carried (.of_arbiter ⟨rfl, rfl, fun _ => rfl⟩ (fun _ => .refl _) (fun v q f index own head cursor => ?_) rfl)
    (grounded_blind.headPhase p .sounding h.grounded) (h.held.rephased first (y := .sounding) (by decide) (by decide)
      (fun q apart => State.phases_of_queue ?_) ?_ fun _ => rfl)
  · refine .inr ⟨own, cursor, ?_⟩
    rw [State.setQueue_queue] at head
    split at head
    · next same => rw [← same]; exact withHeadPhase_head .sounding head
    · exact ⟨f, head, rfl⟩
  · rw [State.setQueue_queue, if_neg (Ne.symm apart)]
  · unfold State.phases
    rw [State.setQueue_queue, if_pos rfl]
    exact State.phases_withHeadPhase first .sounding

theorem State.InPlace.soundHeads (h : s.InPlace) : s.soundHeads.InPlace := by
  refine foldl_keeps (fun t p ht => ?_) _ s h
  split
  · next primed => exact State.InPlace.sounding ht primed
  · exact ht

/-- A free player takes a head, and stands at the first page of its clip. -/
theorem State.InPlace.taking (h : s.InPlace) {w : Fin 16} {p : Fin 64} (free : s.freePlayer = some w)
    (oldest : s.oldestHead = some p) : ((s.setQueue p (withHeadPhase .priming (s.queue p))).setPlayer w
      ⟨some p, (s.player w).generation, .page 0, .empty, none⟩).InPlace := by
  have waits : (s.phases p).head? = some .waiting := (s.phases_head p _).mpr (State.oldestHead_some oldest)
  generalize begins : (⟨some p, (s.player w).generation, .page 0, .empty, none⟩ : PromptPlayer) = x
  have assigned : x.assigned = some p := by rw [← begins]
  have cursor : x.cursor = .page 0 := by rw [← begins]
  generalize taken : (s.setQueue p (withHeadPhase .priming (s.queue p))).setPlayer w x = t
  have queue : ∀ q, t.queue q = if p = q then withHeadPhase .priming (s.queue p) else s.queue q := fun q => by
    rw [← taken]; exact s.setQueue_queue p q _
  have player : ∀ v, t.player v = if w = v then x else s.player v := fun v => by
    rw [← taken, State.setPlayer_player]; rfl
  have grounded : t.Grounded := by
    rw [← taken]
    exact grounded_blind.kept (s := s.setQueue p (withHeadPhase .priming (s.queue p)))
      (.of_parts rfl rfl rfl rfl fun _ => rfl) (grounded_blind.headPhase p .priming h.grounded)
  refine h.carried (.of_arbiter ?_ (fun k => ?_) (fun v q f index own head at' => ?_) ?_) grounded
    (h.held.taken (State.freePlayer_some free) waits (fun q apart => State.phases_of_queue ?_) (x := .priming) (by decide) ?_
      fun v => ?_)
  · rw [← taken]; exact ⟨rfl, rfl, fun _ => rfl⟩
  · rw [← taken]; exact .refl _
  · rw [player] at own at'
    split at own
    · next same =>
      rw [if_pos same, cursor] at at'
      cases at'
      exact .inl rfl
    · next apart =>
      rw [if_neg apart] at at'
      refine .inr ⟨own, at', ?_⟩
      rw [queue] at head
      split at head
      · next same => rw [← same]; exact withHeadPhase_head .priming head
      · exact ⟨f, head, rfl⟩
  · rw [← taken]; rfl
  · rw [queue, if_neg (Ne.symm apart)]
  · unfold State.phases
    rw [queue, if_pos rfl]
    exact State.phases_withHeadPhase waits .priming
  · rw [player]
    split
    · exact assigned
    · rfl

theorem State.InPlace.assignPlayers (h : s.InPlace) : s.assignPlayers.InPlace :=
  State.assignPlayers_keeps (fun _ w _ ht free oldest => (ht.taking free oldest).promptRequest w) s h

/-! ## Entries that leave a queue (R161, R166) -/

theorem State.InPlace.played (h : s.InPlace) {p : Fin 64} {w : Fin 16} {e : Entry} {rest : List Entry}
    (queue : s.queue p = e :: rest) (player : s.playerOf p = some w) : (s.entryDone p w e rest).InPlace := by
  have held := State.entryDone_playersHeld h.held queue player
  have players : ∀ v, (s.entryDone p w e rest).player v
      = if w = v then ⟨none, (s.player w).generation, .absent, .empty, none⟩ else s.player v := fun v => by
    unfold State.player
    rw [State.entryDone_whisper]
    exact Table.cell_put ..
  refine h.carried (.of_arbiter ((calm_blind s).played queue w (.refl s)).toShapesKept (fun k => ?_)
    (fun v q f index own head cursor => ?_) (s.entryDone_touches p w e rest .arbiter (by decide)))
    (grounded_blind.played queue w h.grounded) held
  · rw [State.entryDone_stream]
    exact .refl _
  · rw [players] at own cursor
    split at own
    · exact nomatch own
    · next other =>
      rw [if_neg other] at cursor
      have apart : p ≠ q := fun same => other (h.held.one w v p (State.playerOf_some player) (same ▸ own))
      rw [State.entryDone_queue, if_neg apart] at head
      exact .inr ⟨own, cursor, f, head, rfl⟩

/-- A head that still plays after a flush is the head that played before it. -/
theorem State.PlayersHeld.head_of_flushed (h : s.PlayersHeld) {p : Fin 64} {chosen : Entry → Bool} {e : Entry}
    (head : ((s.queue p).filter fun e => !chosen e).head? = some e) (begun : e.phase ≠ .waiting) :
    (s.queue p).head? = some e := by
  cases queue : s.queue p with
  | nil => rw [queue] at head; exact nomatch head
  | cons f rest =>
    rw [queue] at head
    rcases List.mem_cons.mp (List.mem_filter.mp (List.mem_of_head? head)).1 with rfl | later
    · rfl
    · exact absurd (h.tail_waiting queue e later) begun

theorem State.flush_carried (h : s.PlayersHeld) (p : Fin 64) (cause : FlushCause) (chosen : Entry → Bool) :
    Carried s (s.flush p cause chosen) := by
  obtain ⟨players, arbiter⟩ := State.flush_playersFreed h p cause chosen
  have held := State.flush_playersHeld h p cause chosen
  refine ⟨((calm_blind s).flushed p cause chosen (.refl s)).toShapesKept,
    fun k => .of_core (s.flush_stream_core p cause chosen k), fun w q e index own head cursor => .inr ?_, by rw [arbiter],
    by rw [arbiter], by rw [arbiter], fun f member => ?_⟩
  · obtain ⟨x, first, begun⟩ := held.head w q own
    obtain ⟨e', head', rfl⟩ := (State.phases_head _ q x).mp first
    cases head.symm.trans head'
    rw [players] at own cursor
    split at own
    · exact nomatch own
    · next stays =>
      rw [if_neg stays] at cursor
      refine ⟨own, cursor, e, ?_, rfl⟩
      rw [State.flush_queue] at head
      split at head
      · next same => rw [← same]; exact h.head_of_flushed head begun
      · exact head
  · rw [arbiter] at member
    exact (List.mem_filter.mp member).1

/-! ## Acts of play -/

theorem State.InPlace.admitted (h : s.InPlace) (running : s.phase = .running) {c : Fin 256} {index : Nat} {op : PortOp}
    (defined : (s.clip c).defined = true) (within : index < (s.clip c).length) (page : op.page = (s.clip c).base + index)
    (port : Port) : (s.admitOp port op).InPlace := by
  obtain ⟨queued, waiting, busy, -⟩ := h.pages
  have stands := h.grounded.clips.stands defined
  refine State.InPlace.grant (h.setArbiter running (h.pointer running) queued (fun p op' waits => ?_) busy) running
  dsimp only at waits
  rw [PerPort.cell_put] at waits
  split at waits
  · cases waits
    rw [page]
    exact Nat.lt_of_lt_of_le (Nat.add_lt_add_left within _) stands.within
  · exact waiting p op' waits

theorem Act.inPlace (act : Act s t) (h : s.InPlace) : t.InPlace := by
  have grounded := grounded_blind.act act h.grounded
  cases act with
  | kept same => exact h.kept same
  | granted running => exact h.grant running
  | fetched bus upsets => exact h.fetchCompleted (h.running_of_bus bus) _ upsets
  | written bus => exact h.writeCompleted (h.running_of_bus bus) _ _ _ _ _ _
  | readOut bus upsets => exact h.readCompleted (h.running_of_bus bus) _ _ _ _ upsets
  | scrubbed bus upsets => exact h.scrubCompleted (h.running_of_bus bus) upsets
  | admitted running defined within page port => exact h.admitted running defined within page port
  | requested k => exact h.streamRequest k
  | ended k =>
    exact h.restreamed (s.endIfDone_touches k) (by decide) (Act.calm (.ended k)).toShapesKept (s.endIfDone_onward k) grounded
  | emptied k =>
    refine h.restreamed (s.setStream_touches k _) (by decide) (Act.calm (.emptied k)).toShapesKept
      (s.setStream_onward k ?_) grounded
    exact .inl ⟨rfl, rfl⟩
  | stopped k =>
    exact h.carried (s.stopStream_carried k) grounded (h.held.of_whisper (s.stopStream_touches k .whisper (by decide)))
  | prompted w => exact h.promptRequest w
  | sounded => exact h.soundHeads
  | played queue player => exact h.played queue player
  | flushed p cause chosen =>
    exact h.carried (State.flush_carried h.held p cause chosen) grounded (State.flush_playersHeld h.held p cause chosen)
  | assigned => exact h.assignPlayers

/-! ## References and writes that are accepted (R117, R142, R143, R158) -/

theorem State.loaded_onward (s : State) (p : Port) (k : Fin 16) (l : Playlist) (j : Fin 16) :
    (s.stream j).Onward ((s.loaded p k l).stream j) := by
  have staged : (s.stream j).Onward ((s.stagedOn p k l).stream j) := by
    rw [State.stagedOn_stream]
    split
    · next same => rw [← same]; exact .inl ⟨rfl, rfl⟩
    · exact .refl _
  unfold State.loaded
  split
  · rw [State.setStream_stream, State.traded_stream]
    split
    · exact .inr fun item index names => by cases names; rfl
    · exact .refl _
  · split
    · exact staged.trans (State.switch_onward _ k _ j)
    · exact staged

theorem State.loaded_touches (s : State) (p : Port) (k : Fin 16) (l : Playlist) :
    Touches [.streams, .clipStore, .events] s (s.loaded p k l) := by
  have traded : ∀ x, Touches [.streams, .clipStore, .events] s (s.traded p l x) := fun x =>
    ((s.acceptItems_touches p l.items).mono (by decide)).trans ((State.dropPlays_touches _ x).mono (by decide))
  have staged : ∀ x y, Touches [.streams, .clipStore, .events] s ((s.traded p l x).setStream k y) := fun x y =>
    (traded x).trans ((State.setStream_touches _ k y).mono (by decide))
  unfold State.loaded
  split
  · exact staged _ _
  · split
    · exact (staged _ _).trans (State.switch_touches _ k _)
    · exact staged _ _

theorem State.begun_onward (s : State) (p : Port) (k : Fin 16) (l : Playlist) (j : Fin 16) :
    (s.stream j).Onward ((s.begun p k l).stream j) := by
  unfold State.begun
  rw [State.setStream_stream, State.acceptItems_stream]
  split
  · exact .inr fun item index names => by cases names; rfl
  · exact .refl _

theorem placed_head {e : Entry} {place : List Entry → List Entry}
    (placed : place = (fun q => q ++ [e]) ∨ place = placeAnnounce e) {q : List Entry} {f : Entry}
    (head : q.head? = some f) (begun : f.phase ≠ .waiting) : (place q).head? = some f := by
  cases q with
  | nil => exact nomatch head
  | cons g rest =>
    cases head
    rcases placed with rfl | rfl
    · rfl
    · rw [placeAnnounce_cons, if_neg begun]
      rfl

theorem State.enqueued_prompts (h : s.PlayersHeld) {q : Fin 64} {e : Entry} {place : List Entry → List Entry}
    (placed : place = (fun q => q ++ [e]) ∨ place = placeAnnounce e) (port : Port) :
    PromptsCarried s (s.enqueued q port e place) := by
  intro w p f index own head cursor
  rw [State.enqueued_player] at own cursor
  obtain ⟨x, first, begun⟩ := h.head w p own
  obtain ⟨g, head', rfl⟩ := (s.phases_head p x).mp first
  have same : (s.enqueued q port e place).queue p = place (s.queue p) ∨ (s.enqueued q port e place).queue p = s.queue p := by
    rw [State.enqueued_queue]
    split
    · next equal => rw [equal]; exact .inl rfl
    · exact .inr rfl
  refine .inr ⟨own, cursor, g, head', ?_⟩
  rcases same with same | same <;> rw [same] at head
  · cases (placed_head placed head' begun).symm.trans head
    rfl
  · cases head'.symm.trans head
    rfl

theorem State.enqueued_playersHeld (h : s.PlayersHeld) {e : Entry} {place : List Entry → List Entry}
    (waiting : e.phase = .waiting) (placed : place = (fun q => q ++ [e]) ∨ place = placeAnnounce e) (q : Fin 64)
    (port : Port) : (s.enqueued q port e place).PlayersHeld := by
  rcases placed with rfl | rfl
  · exact State.enqueued_append_playersHeld h q port waiting
  · exact State.enqueued_announce_playersHeld h q port waiting

theorem Gain.inPlace (gain : Gain s t) (h : s.InPlace) : t.InPlace := by
  have grounded := Move.grounded (.inr (.inl gain)) h.grounded
  have shapes := gain.shapes
  cases gain with
  | @started k l stopped playable p =>
    exact h.restreamed (((s.acceptItems_touches p l.items).mono (by decide)).trans
      ((State.setStream_touches _ k _).mono (b := [.streams, .clipStore, .events]) (by decide))) (by decide) shapes
      (s.begun_onward p k l) grounded
  | @loaded k l going playable p =>
    exact h.restreamed (s.loaded_touches p k l) (by decide) shapes (s.loaded_onward p k l) grounded
  | @queued q e place playable waiting placed port =>
    have touched := s.enqueued_touches q port e place
    refine h.carried (.of_arbiter shapes (fun k => ?_) (State.enqueued_prompts h.held placed port)
      (touched .arbiter (by decide))) grounded (State.enqueued_playersHeld h.held waiting placed q port)
    unfold State.stream
    rw [touched .streams (by decide)]
    exact .refl _
  | marked unplayed =>
    exact h.restreamed (s.setClip_touches _ _) (by decide) shapes (fun _ => .refl _) grounded

/-! ## Clips defined and freed, and the part brought up (R108, R111, R138, R177) -/

/-- A clip that nothing refers to is replaced. -/
theorem State.InPlace.reclipped (h : s.InPlace) {c : Fin 256} {x : Clip} (unplayed : (s.clip c).plays = 0)
    (grounded : (s.setClip c x).Grounded) : (s.setClip c x).InPlace := by
  obtain ⟨counts, -⟩ := h.grounded.counted
  obtain ⟨streams, prompts⟩ := h.cursors
  have unreferred : ¬0 < s.references c := by rw [← counts c, unplayed]; exact Nat.lt_irrefl 0
  have others : ∀ d, 0 < s.references d → (s.setClip c x).clip d = s.clip d := fun d referred => by
    rw [State.setClip_clip, if_neg]
    rintro rfl
    exact unreferred referred
  refine ⟨grounded, h.held.of_whisper rfl, h.pointer, ⟨fun k l item index i current cursor names => ?_,
    fun w p e index own head cursor => ?_⟩, h.pages⟩
  · rw [others _ (State.references_pos_of_item current (List.mem_of_getElem? names))]
    exact streams k l item index i current cursor names
  · rw [others _ (State.references_pos_of_entry (List.mem_of_head? head))]
    exact prompts w p e index own head cursor

theorem memoryPages_pos (m : MemorySize) : 0 < m.pages := by
  cases m <;> decide

theorem pagesSound_of_idle (empty : s.arbiter.queue = []) (none : s.arbiter.pendingOps = ⟨none, none⟩)
    (free : s.arbiter.bus = Option.none) : s.pagesSound := by
  refine ⟨fun f member => ?_, fun p op waits => ?_, fun page onBus => ?_, fun _ => ⟨empty, none, free⟩⟩
  · rw [empty] at member
    exact nomatch member
  · rw [none] at waits
    cases p <;> exact nomatch waits
  · unfold State.busPage at onBus
    rw [free] at onBus
    exact nomatch onBus

theorem reset_inPlace : State.reset.InPlace :=
  ⟨⟨reset_playsCounted, reset_clipsSound⟩, ((State.playersSound_iff _).mp reset_playersSound).1, nofun, reset_cursorsSound,
    reset_pagesSound⟩

theorem Reshape.inPlace (reshape : Reshape s t) (h : s.InPlace) : t.InPlace := by
  have grounded := Move.grounded (.inr (.inr reshape)) h.grounded
  cases reshape with
  | reset same => exact reset_inPlace.kept same
  | shifted shifting word =>
    obtain ⟨empty, none, free⟩ := h.pages.idle fun running => nomatch shifting.symm.trans running
    exact ⟨grounded, h.held.of_whisper rfl, nofun, h.cursors, pagesSound_of_idle empty none free⟩
  | prepared preparing memory highway =>
    exact ⟨grounded, h.held.of_whisper rfl, fun _ => memoryPages_pos s.startUp.memorySize, h.cursors,
      pagesSound_of_idle rfl rfl rfl⟩
  | @defined c x running defined unplayed unwritten short long filled fits within idle apart =>
    refine h.reclipped ?_ grounded
    cases old : (s.clip c).defined with
    | true => exact (idle old).1
    | false =>
      obtain ⟨-, free, -⟩ := h.grounded.counted
      exact free c old
  | freed unplayed unwritten => exact h.reclipped unplayed grounded

theorem Move.inPlace (move : Move s t) (h : s.InPlace) : t.InPlace := by
  rcases move with act | gain | reshape
  · exact act.inPlace h
  · exact gain.inPlace h
  · exact reshape.inPlace h

end

/-! ## The statement -/

/-- Settles O57: every act keeps the page ranges, keeps plays and writes apart, and leaves cursors and pages in their place. -/
theorem clipsStaySound : Obligations.ClipsStaySound := by
  intro s t h
  have moves := step_moves h
  refine ⟨moves.keeps fun _ _ move => move.clipsSound, moves.keeps fun _ _ move => move.playsExcludeWrites,
    fun clips counted players scrub cursors pages => ?_⟩
  have start : s.InPlace := ⟨⟨counted, clips⟩, ((State.playersSound_iff s).mp players).1, scrub.2, cursors, pages⟩
  have finish : t.InPlace := moves.keeps (fun _ _ move => move.inPlace) start
  exact ⟨finish.cursors, finish.pages⟩

end Sys2Proof.Machine
end

section
/-! PROOFS. Clip memory keeps its canonical form, and a part that does not yet run is at rest (R124, R138; log entry 5). -/

namespace Sys2Proof.Machine

/-! ## The canonical form -/

/-- Clip memory is in its canonical form (log entry 5). -/
def State.canonical (s : State) : Prop := s.memory.wf s.silence = true

section
variable {s t : State}

theorem State.canonical_of_touches {parts : List Part} (h : s.canonical) (touched : Touches parts s t)
    (memory : .memory ∉ parts) (startUp : .startUp ∉ parts) : t.canonical := by
  unfold State.canonical State.silence State.law
  rw [touched .memory memory, touched .startUp startUp]
  exact h

theorem State.struck_canonical (h : s.canonical) (page : Nat) (upsets : List WordUpset) : (s.struck page upsets).canonical :=
  Memory.strikes_wf s.silence page upsets s.memory h

theorem State.clearFlaws_canonical (h : s.canonical) (page : Nat) :
    (s.setMemory (s.memory.clearFlaws page)).canonical := Memory.clearFlaws_wf s.silence s.memory page h

theorem State.counted_canonical (h : s.canonical) (page finder : Nat) : (s.counted page finder).canonical :=
  State.canonical_of_touches h (s.counted_touches page finder) (by decide) (by decide)

theorem State.grant_canonical (h : s.canonical) : s.grant.canonical :=
  State.canonical_of_touches h s.grant_touches (by decide) (by decide)

theorem State.fetchCompleted_canonical (h : s.canonical) (f : Fetch) (upsets : List WordUpset) :
    (s.fetchCompleted f upsets).canonical := by
  have found := State.counted_canonical (State.struck_canonical (s := s.freeBus) h f.page upsets) f.page
  exact State.grant_canonical
    (State.canonical_of_touches (found _) (State.deliver_touches _ f _) (by decide) (by decide))

theorem State.writeCompleted_canonical (h : s.canonical) (p : Port) (clip : Fin 256) (index page : Nat) (codes : PageCodes)
    (noted : Bool) : (s.writeCompleted p clip index page codes noted).canonical := by
  have written : ((s.freeBus.setMemory (s.memory.writePage s.silence page codes)).unlist page).canonical :=
    Memory.writePage_wf s.silence s.memory page codes h
  have marked := State.canonical_of_touches written (State.writeNoted_touches _ p clip index noted) (by decide) (by decide)
  exact State.grant_canonical (State.canonical_of_touches marked (State.answer_touches _ p _ _) (by decide) (by decide))

theorem State.readCompleted_canonical (h : s.canonical) (p : Port) (clip : Fin 256) (index page : Nat)
    (upsets : List WordUpset) : (s.readCompleted p clip index page upsets).canonical := by
  have found := State.counted_canonical (State.struck_canonical (s := s.freeBus) h page upsets) page (readFinder p)
  exact State.grant_canonical
    (State.canonical_of_touches found (State.readReply_touches _ p clip index _ _) (by decide) (by decide))

/-- A scrub step strikes its page, and clears the page's errors when it could be corrected. -/
theorem State.scrubPage_canonical (h : s.canonical) (page : Nat) (upsets : List WordUpset) :
    (s.scrubPage page upsets).canonical := by
  have found := State.counted_canonical (State.struck_canonical h page upsets) page 0
  unfold State.scrubPage
  dsimp only
  split
  · exact h
  · split
    · exact found
    · exact State.clearFlaws_canonical found page

theorem State.scrubCompleted_canonical (h : s.canonical) (upsets : List WordUpset) : (s.scrubCompleted upsets).canonical :=
  State.grant_canonical (State.canonical_of_touches (State.scrubPage_canonical (s := s.freeBus) h _ upsets)
    (State.advanceScrub_touches _) (by decide) (by decide))

end

/-! ## At rest until the part runs -/

/-- Clip memory lists nothing, and neither the bus nor the highways are at work (R138). -/
def State.atRest (s : State) : Prop := s.memory = ⟨[], []⟩ ∧ s.arbiter.bus = none ∧ s.highway.frameDue = false

theorem State.memorySound_iff (s : State) : s.memorySound ↔ s.canonical ∧ (s.phase ≠ .running → s.atRest) := Iff.rfl

section
variable {s t : State}

theorem State.atRest_canonical (h : s.atRest) : s.canonical := by
  unfold State.canonical
  rw [h.1]
  exact Memory.empty_wf s.silence

theorem State.atRest_of_touches {parts : List Part} (h : s.atRest) (touched : Touches parts s t) (memory : .memory ∉ parts)
    (arbiter : .arbiter ∉ parts) (highway : .highway ∉ parts) : t.atRest := by
  unfold State.atRest
  rw [touched .memory memory, touched .arbiter arbiter, touched .highway highway]
  exact h

/-- Before the part runs a request changes nothing but what its port keeps (R169). -/
theorem touches_of_request_early (early : s.phase ≠ .running) {p : Port} {code : Byte} {body : State → State}
    (h : (Host.Outcome.next (s.request p code body) : Host.Outcome State Fault Refusal) = .next t) : Touches [.ports] s t :=
  touches_of_next h (State.request_keeps (P := Touches [.ports] s) (.refl _ s) (Touches.of_ports s)
    fun takes => absurd takes.1 early)

theorem State.expireSlot_atRest (h : s.atRest) (a : Fin 64) : (s.expireSlot a).atRest := by
  have touched := s.expireSlot_touches a
  unfold State.atRest
  rw [touched .memory (by decide), touched .arbiter (by decide), s.expireSlot_highway a]
  exact h

/-- No command wakes a part that does not yet run, unless it brings it up. -/
theorem exec_atRest {c : Instr} (h : exec c s = .next t) (early : s.phase ≠ .running) (rest : s.atRest)
    (still : t.phase ≠ .running) : t.atRest := by
  have free : ∀ op, s.arbiter.bus ≠ some op := fun op bus => nomatch rest.2.1.symm.trans bus
  cases c with
  | pinReset => cases h; exact ⟨rfl, rfl, rfl⟩
  | startUpWordShifted word =>
    obtain rfl | ⟨-, rfl⟩ := startUpWordShifted_next h
    · exact rest
    · exact rest
  | startUpMemoryPreparationComplete =>
    obtain rfl | ⟨-, rfl⟩ := startUpMemoryPreparationComplete_next h
    · exact rest
    · exact absurd rfl still
  | cycle trunkRx agentRx agentSig =>
    obtain rfl | ⟨running, -⟩ := cycle_next h
    · exact rest
    · exact absurd running early
  | debounceCountExpiry slot => cases h; exact State.expireSlot_atRest rest slot
  | frameCompletion =>
    cases h
    rw [if_neg (Bool.eq_false_iff.mp rest.2.2)]
    exact rest
  | syncLossMissingPulse =>
    rw [exec_syncLossMissingPulse_ignored (.inl early)] at h
    cases h
    exact rest
  | fsPulse bit =>
    obtain rfl | ⟨running, -⟩ := fsPulse_next h
    · exact rest
    · exact absurd running early
  | refreshTimerExpiry =>
    replace h : execRefreshTimerExpiry s = .next t := h
    unfold execRefreshTimerExpiry at h
    split at h <;> cases h
    · next running => exact absurd running early
    · exact rest
    · exact rest
  | pageFetchCompletion upsets =>
    obtain rfl | ⟨f, bus, -⟩ := pageFetchCompletion_next h
    · exact rest
    · exact absurd bus (free _)
  | portPageWriteCompletion =>
    obtain rfl | ⟨p, clip, index, page, codes, noted, bus, -⟩ := portPageWriteCompletion_next h
    · exact rest
    · exact absurd bus (free _)
  | portPageReadCompletion upsets =>
    obtain rfl | ⟨p, clip, index, page, bus, -⟩ := portPageReadCompletion_next h
    · exact rest
    · exact absurd bus (free _)
  | scrubStepCompletion upsets =>
    obtain rfl | ⟨bus, -⟩ := scrubStepCompletion_next h
    · exact rest
    · exact absurd bus (free _)
  | ignoredRequestFrame port =>
    have touched : Touches [.ports] s t := exec_touches h
    exact State.atRest_of_touches rest touched (by decide) (by decide) (by decide)
  | _ => exact State.atRest_of_touches rest (touches_of_request_early early h) (by decide) (by decide) (by decide)

/-! ## Every command -/

/-- A part that runs stops running by a pin reset alone. -/
theorem exec_running {c : Instr} (h : exec c s = .next t) (running : s.phase = .running) (reset : c ≠ .pinReset) :
    t.phase = .running := by
  by_cases phase : .phase ∈ commandParts c
  · cases c with
    | pinReset => exact absurd rfl reset
    | startUpWordShifted word =>
      obtain rfl | ⟨shifting, -⟩ := startUpWordShifted_next h
      · exact running
      · exact nomatch running.symm.trans shifting
    | startUpMemoryPreparationComplete =>
      obtain rfl | ⟨-, rfl⟩ := startUpMemoryPreparationComplete_next h
      · exact running
      · rfl
    | _ => exact absurd phase (by simp [commandParts, grantParts, frameParts, closeParts])
  · exact (exec_touches h .phase phase).trans running

/-- Every command keeps the canonical form; the word comes, and preparation ends, while nothing is listed. -/
theorem exec_canonical {c : Instr} (h : exec c s = .next t) (form : s.canonical) (rest : s.phase ≠ .running → s.atRest) :
    t.canonical := by
  by_cases touched : .memory ∈ commandParts c ∨ .startUp ∈ commandParts c
  · cases c with
    | pinReset => cases h; exact Memory.empty_wf _
    | startUpWordShifted word =>
      obtain rfl | ⟨shifting, rfl⟩ := startUpWordShifted_next h
      · exact form
      · have calm : s.atRest := rest fun running => nomatch shifting.symm.trans running
        exact State.atRest_canonical calm
    | startUpMemoryPreparationComplete =>
      obtain rfl | ⟨-, rfl⟩ := startUpMemoryPreparationComplete_next h
      · exact form
      · exact Memory.empty_wf _
    | pageFetchCompletion upsets =>
      obtain rfl | ⟨f, -, rfl⟩ := pageFetchCompletion_next h
      · exact form
      · exact State.fetchCompleted_canonical form f upsets
    | portPageWriteCompletion =>
      obtain rfl | ⟨p, clip, index, page, codes, noted, -, rfl⟩ := portPageWriteCompletion_next h
      · exact form
      · exact State.writeCompleted_canonical form p clip index page codes noted
    | portPageReadCompletion upsets =>
      obtain rfl | ⟨p, clip, index, page, -, rfl⟩ := portPageReadCompletion_next h
      · exact form
      · exact State.readCompleted_canonical form p clip index page upsets
    | scrubStepCompletion upsets =>
      obtain rfl | ⟨-, rfl⟩ := scrubStepCompletion_next h
      · exact form
      · exact State.scrubCompleted_canonical form upsets
    | _ => exact absurd touched (by simp [commandParts, grantParts, frameParts, closeParts])
  · rw [not_or] at touched
    exact State.canonical_of_touches form (exec_touches h) touched.1 touched.2

theorem exec_memorySound {c : Instr} (sound : s.memorySound) (h : exec c s = .next t) : t.memorySound := by
  obtain ⟨form, rest⟩ := s.memorySound_iff.mp sound
  refine t.memorySound_iff.mpr ⟨exec_canonical h form rest, fun still => ?_⟩
  by_cases running : s.phase = .running
  · by_cases reset : c = .pinReset
    · subst reset
      cases h
      exact ⟨rfl, rfl, rfl⟩
    · exact absurd (exec_running h running reset) still
  · exact exec_atRest h running (rest running) still

end

/-- Settles O51: the memory a command leaves is in its canonical form, and a part that does not run stays at rest. -/
theorem memoryStaysSound : Obligations.MemoryStaysSound := by
  intro s t sound h
  unfold step at h
  split at h
  · cases h
    exact sound
  · next c rest _ => exact exec_memorySound (s := { s with pending := rest }) sound h

end Sys2Proof.Machine
end

section
/-! PROOFS. No command is refused, and only the completion of a memory operation on a page that does not exist stops the part
(R105, R124; log entry 24). -/

namespace Sys2Proof.Machine

/-- A command leads to a next state, or carries out a completion on the page of the operation on the bus. -/
inductive Completes (s : State) : Host.Outcome State Fault Refusal → Prop
  | next (t : State) : Completes s (.next t)
  | onPage {page : Nat} (bus : s.busPage = some page) (t : State) : Completes s (s.onPage page t)

theorem exec_completes (c : Instr) (s : State) : Completes s (exec c s) := by
  cases c with
  | startUpWordShifted word =>
    show Completes s (execStartUpWordShifted word s)
    unfold execStartUpWordShifted
    split <;> exact .next _
  | startUpMemoryPreparationComplete =>
    show Completes s (execStartUpMemoryPreparationComplete s)
    unfold execStartUpMemoryPreparationComplete
    split <;> exact .next _
  | cycle trunkRx agentRx agentSig =>
    show Completes s (execCycle trunkRx agentRx agentSig s)
    unfold execCycle
    split <;> exact .next _
  | syncLossMissingPulse =>
    show Completes s (execSyncLossMissingPulse s)
    unfold execSyncLossMissingPulse
    split <;> exact .next _
  | fsPulse bit =>
    show Completes s (execFsPulse bit s)
    unfold execFsPulse
    split <;> exact .next _
  | refreshTimerExpiry =>
    show Completes s (execRefreshTimerExpiry s)
    unfold execRefreshTimerExpiry
    split <;> exact .next _
  | ignoredRequestFrame port =>
    show Completes s (execIgnoredRequestFrame port s)
    unfold execIgnoredRequestFrame
    split <;> exact .next _
  | pageFetchCompletion upsets =>
    show Completes s (execPageFetchCompletion upsets s)
    unfold execPageFetchCompletion
    split
    · next f bus => exact .onPage (by unfold State.busPage; rw [bus]) _
    all_goals exact .next s
  | portPageWriteCompletion =>
    show Completes s (execPortPageWriteCompletion s)
    unfold execPortPageWriteCompletion
    split
    · next bus => exact .onPage (by unfold State.busPage; rw [bus]) _
    all_goals exact .next s
  | portPageReadCompletion upsets =>
    show Completes s (execPortPageReadCompletion upsets s)
    unfold execPortPageReadCompletion
    split
    · next bus => exact .onPage (by unfold State.busPage; rw [bus]) _
    all_goals exact .next s
  | scrubStepCompletion upsets =>
    show Completes s (execScrubStepCompletion upsets s)
    unfold execScrubStepCompletion
    split
    · next bus => exact .onPage (by unfold State.busPage; rw [bus]) _
    all_goals exact .next s
  | _ => exact .next _

section
variable {s : State} {o : Host.Outcome State Fault Refusal}

theorem Completes.not_refused (h : Completes s o) (r : Refusal) : o ≠ .refused r := by
  cases h with
  | next t => nofun
  | onPage bus t =>
    unfold State.onPage
    split
    · nofun
    · nofun

/-- A completion stops the part on a page that does not exist, and on no other (log entry 24). -/
theorem Completes.of_fault (h : Completes s o) {r : Fault} (fault : o = .fault r) :
    ∃ page, r = .noSuchPage page ∧ s.busPage = some page ∧ s.pageCount ≤ page := by
  cases h with
  | next t => exact nomatch fault
  | onPage bus t =>
    unfold State.onPage at fault
    split at fault
    · exact nomatch fault
    · next beyond =>
      cases fault
      exact ⟨_, rfl, bus, Nat.le_of_not_lt beyond⟩

end

/-- Settles O3: a fault names the page on the bus, and where every such page exists there is none. -/
theorem onlyMissingPagesStopThePart : Obligations.OnlyMissingPagesStopThePart := by
  refine ⟨fun c s r => (exec_completes c s).not_refused r, fun c s r => (exec_completes c s).of_fault,
    fun c s r ⟨_, _, exist, _⟩ fault => ?_⟩
  obtain ⟨page, -, bus, beyond⟩ := (exec_completes c s).of_fault fault
  exact Nat.not_lt.mpr beyond (exist page bus)

end Sys2Proof.Machine
end

section
/-! PROOFS. The choice of the operation on the memory bus, the delivery of a page, and the refresh timer (R125, R126, R128 to
R132, R164). -/

namespace Sys2Proof.Machine

/-! ## The refresh timer (R131) -/

theorem exec_refreshTimerExpiry {s : State} (running : s.phase = .running) : exec .refreshTimerExpiry s
    = .next (s.setArbiter { s.arbiter with owed := min 16 (s.arbiter.owed + 1) }).grant := by
  show execRefreshTimerExpiry s = _
  unfold execRefreshTimerExpiry
  rw [running]

theorem exec_refreshTimerExpiry_before {s : State} (early : s.phase ≠ .running) : exec .refreshTimerExpiry s = .next s := by
  show execRefreshTimerExpiry s = _
  unfold execRefreshTimerExpiry
  split
  · next running => exact absurd running early
  · rfl
  · rfl

/-! ## The delivery of a page (R128, R164) -/

section
variable {s : State} {k w : Fin 16} {generation : Half} {page index : Nat} {codes : PageCodes}

theorem State.deliver_stream_stale (stale : (s.stream k).generation ≠ generation) :
    s.deliver ⟨.stream k, generation, page, index⟩ codes = s := if_neg stale

theorem State.deliver_stream_current (current : (s.stream k).generation = generation) :
    s.deliver ⟨.stream k, generation, page, index⟩ codes = s.streamArrival k index codes := if_pos current

theorem State.deliver_prompt_stale (stale : (s.player w).generation ≠ generation) :
    s.deliver ⟨.prompt w, generation, page, index⟩ codes = s := if_neg stale

theorem State.deliver_prompt_current (current : (s.player w).generation = generation) :
    s.deliver ⟨.prompt w, generation, page, index⟩ codes = s.promptArrival w index codes := if_pos current

theorem State.promptArrival_of_not_awaited (unasked : (s.player w).next ≠ .awaited) : s.promptArrival w index codes = s := by
  unfold State.promptArrival
  dsimp only
  split
  · next awaited _ => exact absurd awaited unasked
  · rfl

/-- The page goes to the head of the position's queue: its last page plays as many samples as the clip's fill (R105). -/
theorem State.promptArrival_of_awaited {p : Fin 64} {e : Entry} {rest : List Entry} (awaited : (s.player w).next = .awaited)
    (own : (s.player w).assigned = some p) (queue : s.queue p = e :: rest) : s.promptArrival w index codes
      = s.setPlayer w { s.player w with
          next := .filled ⟨codes, if index + 1 = (s.clip e.clip).length then (s.clip e.clip).fill else 256⟩ } := by
  have played : s.playedClip w = some e.clip := by
    unfold State.playedClip
    rw [own]
    dsimp only
    rw [queue]
    rfl
  unfold State.promptArrival
  dsimp only
  rw [awaited, played]
  unfold Clip.samplesOf Clip.lastIndex
  simp only [decide_eq_true_eq]

end

theorem State.silentPage_toList (s : State) : s.silentPage.toList = List.replicate 256 s.silence := by
  unfold State.silentPage Table.fill
  exact Vector.toList_replicate

/-! ## One round of the grant (R125) -/

section
variable {s : State} (free : s.arbiter.bus = none) (n : Nat)
include free

theorem State.grantRounds_of_overdue (overdue : 8 ≤ s.arbiter.owed) : State.grantRounds (n + 1) s = s.startScrub := by
  rw [State.grantRounds, free]
  exact if_pos overdue

section
variable (owed : s.arbiter.owed < 8)
include owed

theorem State.grantRounds_of_fetch {f : Fetch} {rest : List Fetch} (queue : s.arbiter.queue = f :: rest) :
    State.grantRounds (n + 1) s = if f.page ∈ s.arbiter.badPages then
      State.grantRounds n (s.unqueue.deliver f s.silentPage) else s.unqueue.startBus (.fetch f) := by
  rw [State.grantRounds, free]
  dsimp only
  rw [if_neg (Nat.not_le_of_lt owed), queue]

section
variable (empty : s.arbiter.queue = [])
include empty

theorem State.grantRounds_of_write {p : Port} {clip : Fin 256} {index page : Nat} {codes : PageCodes} {noted : Bool}
    (choice : s.portChoice = some (p, .write clip index page codes noted)) : State.grantRounds (n + 1) s
      = (s.grantPort p).startBus (.port p (.write clip index page codes noted)) := by
  rw [State.grantRounds, free]
  dsimp only
  rw [if_neg (Nat.not_le_of_lt owed), empty, choice]

theorem State.grantRounds_of_read {p : Port} {clip : Fin 256} {index page : Nat}
    (choice : s.portChoice = some (p, .read clip index page)) : State.grantRounds (n + 1) s
      = if page ∈ s.arbiter.badPages then
          State.grantRounds n ((s.grantPort p).readReply p clip index s.silentPage true)
        else (s.grantPort p).startBus (.port p (.read clip index page)) := by
  rw [State.grantRounds, free]
  dsimp only
  rw [if_neg (Nat.not_le_of_lt owed), empty, choice]

theorem State.grantRounds_of_none (choice : s.portChoice = none) : State.grantRounds (n + 1) s
    = if 1 ≤ s.arbiter.owed then s.startScrub else s := by
  rw [State.grantRounds, free]
  dsimp only
  rw [if_neg (Nat.not_le_of_lt owed), empty, choice]

end
end
end

/-! ## Rounds enough (R126) -/

/-- How many port operations wait (R129). -/
def Arbiter.portsWaiting (a : Arbiter) : Nat := a.pendingOps.cp0.isSome.toNat + a.pendingOps.cp1.isSome.toNat

/-- How many requests wait. -/
def State.waiting (s : State) : Nat := s.arbiter.queue.length + s.arbiter.portsWaiting

theorem State.deliver_arbiter (s : State) (f : Fetch) (codes : PageCodes) : (s.deliver f codes).arbiter = s.arbiter :=
  s.deliver_touches f codes .arbiter (by decide)

theorem State.waiting_of_delivered {s : State} {f : Fetch} {rest : List Fetch} (queue : s.arbiter.queue = f :: rest)
    (codes : PageCodes) : (s.unqueue.deliver f codes).waiting + 1 = s.waiting := by
  unfold State.waiting
  rw [State.deliver_arbiter, queue]
  show s.arbiter.queue.tail.length + s.arbiter.portsWaiting + 1 = _
  rw [queue, List.tail_cons, List.length_cons]
  omega

theorem State.waiting_of_granted {s : State} {p : Port} {op : PortOp} (waits : s.arbiter.pendingOps.cell p = some op) :
    (s.grantPort p).waiting + 1 = s.waiting := by
  unfold State.waiting Arbiter.portsWaiting State.grantPort State.setArbiter PerPort.put PerPort.cell at *
  cases p
  · dsimp only at *
    rw [waits]
    simp only [Option.isSome_some, Option.isSome_none, Bool.toNat_true, Bool.toNat_false]
    omega
  · dsimp only at *
    rw [waits]
    simp only [Option.isSome_some, Option.isSome_none, Bool.toNat_true, Bool.toNat_false]
    omega

/-- Each round takes a waiting request, so one round more than requests wait is enough. -/
theorem State.grantRounds_enough (n : Nat) (s : State) (enough : s.waiting < n) :
    State.grantRounds (n + 1) s = State.grantRounds n s := by
  induction n generalizing s with
  | zero => exact absurd enough (Nat.not_lt_zero _)
  | succ n ih =>
    cases bus : s.arbiter.bus with
    | some op => rw [State.grantRounds, State.grantRounds, bus]
    | none =>
      rcases Nat.lt_or_ge s.arbiter.owed 8 with owed | overdue
      · cases queue : s.arbiter.queue with
        | cons f rest =>
          have fewer := State.waiting_of_delivered queue s.silentPage
          rw [State.grantRounds_of_fetch bus _ owed queue, State.grantRounds_of_fetch bus _ owed queue, ih _ (by omega)]
        | nil =>
          cases choice : s.portChoice with
          | none => rw [State.grantRounds_of_none bus _ owed queue choice, State.grantRounds_of_none bus _ owed queue choice]
          | some chosen =>
            obtain ⟨p, op⟩ := chosen
            have fewer := State.waiting_of_granted (State.portChoice_some choice)
            cases op with
            | write =>
              rw [State.grantRounds_of_write bus _ owed queue choice, State.grantRounds_of_write bus _ owed queue choice]
            | read clip index page =>
              have later := ih ((s.grantPort p).readReply p clip index s.silentPage true)
                (show (s.grantPort p).waiting < n by omega)
              rw [State.grantRounds_of_read bus _ owed queue choice, State.grantRounds_of_read bus _ owed queue choice, later]
      · rw [State.grantRounds_of_overdue bus _ overdue, State.grantRounds_of_overdue bus _ overdue]

/-! ## The grant (R125, R126, R129) -/

theorem State.portChoice_of_idle {s : State} (idle : s.arbiter.pendingOps = ⟨none, none⟩) : s.portChoice = none := by
  unfold State.portChoice
  rw [idle]

/-- The port that is granted: the only one that waits, or the one that the fairness setting favours (R129). -/
theorem State.portChoice_of_favoured {s : State} {p : Port} {op : PortOp} (waits : s.arbiter.pendingOps.cell p = some op)
    (favoured : s.arbiter.pendingOps.cell p.other = none ∨ (s.startUp.fairness = .cp0First ∧ p = .cp0)
      ∨ (s.startUp.fairness = .alternate ∧ s.arbiter.alternation = p.other)) : s.portChoice = some (p, op) := by
  unfold State.portChoice
  cases p with
  | cp0 =>
    have waits : s.arbiter.pendingOps.cp0 = some op := waits
    rw [waits]
    cases other : s.arbiter.pendingOps.cp1 with
    | none => rfl
    | some op1 =>
      obtain alone | ⟨fairness, -⟩ | ⟨fairness, alternation⟩ := favoured
      · exact nomatch other.symm.trans alone
      · rw [fairness]
      · rw [fairness, alternation]
        rfl
  | cp1 =>
    have waits : s.arbiter.pendingOps.cp1 = some op := waits
    rw [waits]
    cases other : s.arbiter.pendingOps.cp0 with
    | none => rfl
    | some op0 =>
      obtain alone | ⟨-, same⟩ | ⟨fairness, alternation⟩ := favoured
      · exact nomatch other.symm.trans alone
      · exact nomatch same
      · rw [fairness, alternation]
        rfl

theorem State.unqueue_eq {s : State} {f : Fetch} {rest : List Fetch} (queue : s.arbiter.queue = f :: rest) :
    s.unqueue = s.setArbiter { s.arbiter with queue := rest } := by
  unfold State.unqueue
  rw [queue]
  rfl

/-- A waiting fetch starts, or its page, if listed, reaches its player at once, and the arbiter chooses again. -/
theorem State.grant_of_fetch {s : State} (free : s.arbiter.bus = none) (owed : s.arbiter.owed < 8) {f : Fetch}
    {rest : List Fetch} (queue : s.arbiter.queue = f :: rest) :
    s.grant = if f.page ∈ s.arbiter.badPages then (s.unqueue.deliver f s.silentPage).grant
      else s.unqueue.startBus (.fetch f) := by
  have rounds : (s.unqueue.deliver f s.silentPage).arbiter.queue.length + 3 = s.arbiter.queue.length + 2 := by
    rw [State.deliver_arbiter, State.unqueue_eq queue, queue]
    rfl
  unfold State.grant
  rw [State.grantRounds_of_fetch free _ owed queue, rounds]

/-- A read of the granted port starts, or, of a listed page, is answered with silence at once, and the arbiter chooses
again. -/
theorem State.grant_of_read {s : State} (free : s.arbiter.bus = none) (owed : s.arbiter.owed < 8)
    (empty : s.arbiter.queue = []) {p : Port} {clip : Fin 256} {index page : Nat}
    (choice : s.portChoice = some (p, .read clip index page)) :
    s.grant = if page ∈ s.arbiter.badPages then ((s.grantPort p).readReply p clip index s.silentPage true).grant
      else (s.grantPort p).startBus (.port p (.read clip index page)) := by
  have queue : ((s.grantPort p).readReply p clip index s.silentPage true).arbiter.queue = [] := empty
  have enough : ((s.grantPort p).readReply p clip index s.silentPage true).waiting < 2 := by
    have fewer := State.waiting_of_granted (State.portChoice_some choice)
    have two : s.waiting ≤ 2 := by
      unfold State.waiting Arbiter.portsWaiting
      rw [empty]
      have := s.arbiter.pendingOps.cp0.isSome.toNat_le
      have := s.arbiter.pendingOps.cp1.isSome.toNat_le
      simp only [List.length_nil]
      omega
    exact Nat.le_trans (Nat.le_of_eq fewer) two
  unfold State.grant
  rw [State.grantRounds_of_read free _ owed empty choice, empty, queue]
  simp only [List.length_nil, Nat.zero_add]
  rw [State.grantRounds_enough 2 _ enough]

/-- Settles O48: each clause is one round of the grant; a round that ends at once leaves rounds enough for what still
waits. -/
theorem grantAndRefresh : Obligations.GrantAndRefresh := by
  refine ⟨fun s => exec_refreshTimerExpiry, fun s => exec_refreshTimerExpiry_before,
    fun s k w generation page index codes => ⟨State.deliver_stream_stale, State.deliver_stream_current,
      State.deliver_prompt_stale, fun current unasked => ?_, fun p e rest current awaited own queue => ?_⟩,
    fun s => ⟨State.grant_of_busy, fun free => State.grantRounds_of_overdue free _, fun free owed =>
      ⟨fun f rest queue => ?_, fun empty idle => ?_, fun empty p op waits favoured => ?_⟩⟩⟩
  · exact (State.deliver_prompt_current current).trans (State.promptArrival_of_not_awaited unasked)
  · exact (State.deliver_prompt_current current).trans (State.promptArrival_of_awaited awaited own queue)
  · have start := State.grant_of_fetch free owed queue
    rw [State.unqueue_eq queue] at start
    exact ⟨fun unlisted => start.trans (if_neg unlisted), fun listed => start.trans (if_pos listed)⟩
  · have start := State.grantRounds_of_none free (s.arbiter.queue.length + 2) owed empty (State.portChoice_of_idle idle)
    exact ⟨fun due => start.trans (if_pos due), fun none => start.trans (if_neg (by omega))⟩
  · have choice := State.portChoice_of_favoured waits favoured
    refine ⟨fun clip index page codes noted write => ?_, fun clip index page read => ?_⟩
    · subst write
      exact State.grantRounds_of_write free _ owed empty choice
    · subst read
      have start := State.grant_of_read free owed empty choice
      exact ⟨fun unlisted => start.trans (if_neg unlisted), fun listed =>
        (start.trans (if_pos listed)).trans (congrArg State.grant (by
          rw [State.readReply, State.silentPage_toList]
          rfl))⟩

end Sys2Proof.Machine
end

section
/-! PROOFS. The completion of a fetch, a page write, a page read and a scrub step, and what they report (R107, R118, R119, R128,
R130, R132 to R135; log entries 13 and 29). -/

namespace Sys2Proof.Machine

/-! ## What a read of a page finds (R133 to R135) -/

section
variable (s : State) (page finder : Nat)

/-- A page is uncorrectable when one of its 32 words is (R133). -/
theorem State.pageBad_iff : s.pageBad page = true ↔ ∃ w : Fin 32, s.memory.flaw (32 * page + w.val) = some .uncorrectable := by
  unfold State.pageBad State.pageFlaws
  simp only [List.any_eq_true, List.mem_filterMap, List.mem_range, decide_eq_true_iff]
  constructor
  · rintro ⟨f, ⟨w, within, holds⟩, rfl⟩
    exact ⟨⟨w, within⟩, holds⟩
  · rintro ⟨w, holds⟩
    exact ⟨.uncorrectable, ⟨w.val, w.isLt, holds⟩, rfl⟩

variable {s page}

theorem State.counted_of_good (good : s.pageBad page = false) : s.counted page finder = s.setArbiter { s.arbiter with
    correctable := min 4294967295 (s.arbiter.correctable + (s.pageFlaws page).length) } := by
  unfold State.counted
  rw [good]
  rfl

theorem State.counted_of_bad (bad : s.pageBad page = true) : s.counted page finder = s.detected page finder := by
  unfold State.counted
  exact if_pos bad

theorem listedAfter_of_unlisted {l : List Nat} (unlisted : page ∉ l) :
    listedAfter l page = if l.length < 16 then l ++ [page] else l := if_neg unlisted

/-- With room left the page is listed, and reported as listed (R134, R135). -/
theorem State.detected_of_room (unlisted : page ∉ s.arbiter.badPages) (room : s.arbiter.badPages.length < 16) :
    s.detected page finder = (s.setArbiter { s.arbiter with
      badPages := s.arbiter.badPages ++ [page], uncorrectable := min 4294967295 (s.arbiter.uncorrectable + 1) }).fileBoth
        .memUncorrectable page (finder + 128) := by
  have listed : listedAfter s.arbiter.badPages page = s.arbiter.badPages ++ [page] :=
    (listedAfter_of_unlisted unlisted).trans (if_pos room)
  unfold State.detected
  dsimp only
  rw [listed, if_pos (List.mem_append_right _ (List.mem_singleton_self page))]
  rfl

/-- With the list full the page is reported as unlisted, and then the full list (R134, R135). -/
theorem State.detected_of_full (unlisted : page ∉ s.arbiter.badPages) (full : s.arbiter.badPages.length = 16) :
    s.detected page finder = ((s.setArbiter { s.arbiter with
      uncorrectable := min 4294967295 (s.arbiter.uncorrectable + 1) }).fileBoth .memUncorrectable page finder).fileBoth
        .badListFull page 16 := by
  have same : listedAfter s.arbiter.badPages page = s.arbiter.badPages :=
    (listedAfter_of_unlisted unlisted).trans (if_neg (by omega))
  unfold State.detected
  dsimp only
  rw [same, if_neg unlisted, full]
  rfl

end

/-! ## The bus freed before the page is read (R124) -/

theorem State.file_setArbiter (s : State) (x : Arbiter) (p : Port) (k : EventKind) (o d : Nat) :
    (s.setArbiter x).file p k o d = (s.file p k o d).setArbiter x := by
  unfold State.file
  rw [show (s.setArbiter x).enabled p = s.enabled p by cases p <;> rfl]
  split
  · rfl
  · rfl

theorem State.fileBoth_setArbiter (s : State) (x : Arbiter) (k : EventKind) (o d : Nat) :
    (s.setArbiter x).fileBoth k o d = (s.fileBoth k o d).setArbiter x := by
  unfold State.fileBoth
  rw [State.file_setArbiter, State.file_setArbiter]

theorem State.setArbiter_setArbiter (s : State) (x y : Arbiter) : (s.setArbiter x).setArbiter y = s.setArbiter y := rfl

/-- The records of a detection may be filed before the arbiter counts and lists the page. -/
theorem State.detected_eq (s : State) (page finder : Nat) : s.detected page finder
    = State.setArbiter (if page ∈ listedAfter s.arbiter.badPages page then s.fileBoth .memUncorrectable page (finder + 128)
        else (s.fileBoth .memUncorrectable page finder).fileBoth .badListFull page (listedAfter s.arbiter.badPages page).length)
      { s.arbiter with
        badPages := listedAfter s.arbiter.badPages page, uncorrectable := satAdd max32 s.arbiter.uncorrectable 1 } := by
  unfold State.detected
  dsimp only
  split
  · rw [State.fileBoth_setArbiter]
  · rw [State.fileBoth_setArbiter, State.fileBoth_setArbiter]

theorem State.detected_arbiter (s : State) (page finder : Nat) : (s.detected page finder).arbiter = { s.arbiter with
    badPages := listedAfter s.arbiter.badPages page, uncorrectable := satAdd max32 s.arbiter.uncorrectable 1 } := by
  rw [State.detected_eq, State.setArbiter_arbiter]

/-- A read moves no pointer, completes no pass and takes no operation that waits. -/
theorem State.counted_rest (s : State) (page finder : Nat) : (s.counted page finder).arbiter.scrubPointer = s.arbiter.scrubPointer
    ∧ (s.counted page finder).arbiter.passes = s.arbiter.passes
    ∧ (s.counted page finder).arbiter.pendingOps = s.arbiter.pendingOps := by
  unfold State.counted
  split
  · rw [State.detected_arbiter]
    exact ⟨rfl, rfl, rfl⟩
  · exact ⟨rfl, rfl, rfl⟩

/-- What a read finds does not depend on whether the bus is free already. -/
theorem State.counted_freeBus (s : State) (page finder : Nat) :
    s.freeBus.counted page finder = (s.counted page finder).freeBus := by
  unfold State.counted
  rw [show s.freeBus.pageBad page = s.pageBad page from rfl]
  split
  · unfold State.freeBus
    rw [State.detected_eq, State.detected_arbiter, State.detected_eq, State.setArbiter_arbiter]
    simp only [State.fileBoth_setArbiter, State.setArbiter_setArbiter]
    split
    · rfl
    · rfl
  · rfl

/-! ## What a grant leaves of the arbiter and of a clip (R126) -/

/-- What the arbiter counts and lists, and where the scrubber stands. -/
def Arbiter.tallies (a : Arbiter) : List Nat × Nat × Nat × Nat × Nat :=
  (a.badPages, a.correctable, a.uncorrectable, a.scrubPointer, a.passes)

theorem Arbiter.tallies_inj {a b : Arbiter} : a.tallies = b.tallies ↔ a.badPages = b.badPages
    ∧ a.correctable = b.correctable ∧ a.uncorrectable = b.uncorrectable ∧ a.scrubPointer = b.scrubPointer
    ∧ a.passes = b.passes := by
  simp only [Arbiter.tallies, Prod.mk.injEq]

theorem State.grant_tallies (s : State) : s.grant.arbiter.tallies = s.arbiter.tallies := by
  refine State.grantRounds_keeps (P := fun t => t.arbiter.tallies = s.arbiter.tallies) ?_ ?_ ?_ ?_ ?_ _ s rfl
  · exact fun t h _ => h
  · intro t f rest h _ _
    rw [State.deliver_arbiter]
    exact h
  · exact fun t f rest h _ _ => h
  · exact fun t p clip index page h _ _ => h
  · exact fun t p op h _ _ => h

theorem State.grant_memory (s : State) : s.grant.memory = s.memory := s.grant_touches .memory (by decide)

/-- A grant leaves a clip's write-busy count and flags (R107, R115). -/
theorem State.grant_clip_flags (s : State) (c : Fin 256) : (s.grant.clip c).writeBusy = (s.clip c).writeBusy
    ∧ (s.grant.clip c).written = (s.clip c).written ∧ (s.grant.clip c).accessed = (s.clip c).accessed := by
  have same := s.grant_clip c
  simp only [Clip.mk.injEq] at same
  obtain ⟨-, -, -, -, -, -, accessed, written, -, writeBusy⟩ := same
  exact ⟨writeBusy, written, accessed⟩

/-! ## Fetches (R128) -/

theorem State.onPage_of_lt {s : State} {page : Nat} (within : page < s.pageCount) (t : State) : s.onPage page t = .next t :=
  if_pos within

/-- The fetched page, or silence when it is uncorrectable, is handed on; and the grant comes last. -/
theorem exec_pageFetchCompletion {s : State} {f : Fetch} (bus : s.arbiter.bus = some (.fetch f)) (within : f.page < s.pageCount)
    (upsets : List WordUpset) : exec (.pageFetchCompletion upsets) s = .next (s.fetchCompleted f upsets) := by
  show execPageFetchCompletion upsets s = _
  unfold execPageFetchCompletion
  rw [bus]
  exact State.onPage_of_lt within _

theorem State.fetchCompleted_eq (s : State) (f : Fetch) (upsets : List WordUpset) : s.fetchCompleted f upsets
    = (((s.freeBus.struck f.page upsets).counted f.page (256 + f.player.number)).deliver f
        (if (s.freeBus.struck f.page upsets).pageBad f.page then Table.fill 256 s.silence
          else (s.freeBus.struck f.page upsets).memory.readPage s.silence f.page)).grant := rfl

/-! ## Page writes (R118, R130) -/

theorem Memory.flaw_clearFlaws (m : Memory) (page w : Nat) :
    (m.clearFlaws page).flaw w = if 32 * page ≤ w ∧ w < 32 * page + 32 then none else m.flaw w := by
  unfold Memory.flaw Memory.clearFlaws
  rw [List.find?_filter]
  split_ifs with inside
  · rw [List.find?_eq_none.mpr fun f _ => by simp; omega]
  · congr 2
    funext f
    by_cases same : f.1 = w
    · simp [same]; omega
    · simp [same]

theorem Memory.flaw_writePage (silence : Byte) (m : Memory) (page : Nat) (codes : PageCodes) (w : Nat) :
    (m.writePage silence page codes).flaw w = if 32 * page ≤ w ∧ w < 32 * page + 32 then none else m.flaw w :=
  Memory.flaw_clearFlaws _ page w

theorem State.writeNoted_clipStore (s : State) (p : Port) (clip : Fin 256) (index : Nat) (noted : Bool) :
    (s.writeNoted p clip index noted).clipStore = { s.clipStore with clips := s.clipStore.clips.put clip { s.clip clip with
      writeBusy := (s.clip clip).writeBusy - 1, written := true, accessed := (s.clip clip).accessed || noted } } := by
  unfold State.writeNoted
  dsimp only
  split
  · exact State.fileOwner_touches _ _ _ _ _ .clipStore (by decide)
  · rfl

/-- CLIP_WRITTEN goes to the clip's owner for a noted write, and nothing is filed for another (R107). -/
theorem State.writeNoted_events (s : State) (p : Port) (clip : Fin 256) (index : Nat) (noted : Bool) :
    (s.writeNoted p clip index noted).events = (if noted then
      s.fileOwner (s.clip clip).owner .clipWritten clip.val (index + 0x8000 * Port.number p) else s).events := by
  unfold State.writeNoted
  dsimp only
  split
  · refine State.fileOwner_events ?_ ?_ ?_ _ _ _ _
    · rfl
    · rfl
    · rfl
  · rfl

/-- What the completion of a page write leaves before the grant. -/
def State.pageWritten (s : State) (p : Port) (clip : Fin 256) (index page : Nat) (codes : PageCodes) (noted : Bool) : State :=
  (((s.freeBus.setMemory (s.memory.writePage s.silence page codes)).unlist page).writeNoted p clip index noted).answer p .ok
    (numberByte clip :: (halfOf index).bytes)

theorem exec_portPageWriteCompletion {s : State} {p : Port} {clip : Fin 256} {index page : Nat} {codes : PageCodes}
    {noted : Bool} (bus : s.arbiter.bus = some (.port p (.write clip index page codes noted))) (within : page < s.pageCount) :
    exec .portPageWriteCompletion s = .next (s.pageWritten p clip index page codes noted).grant := by
  show execPortPageWriteCompletion s = _
  unfold execPortPageWriteCompletion
  rw [bus]
  exact State.onPage_of_lt within _

section
variable (s : State) (p : Port) (clip : Fin 256) (index page : Nat) (codes : PageCodes) (noted : Bool)

theorem State.pageWritten_touches :
    Touches [.memory, .arbiter, .clipStore, .ports, .events] s (s.pageWritten p clip index page codes noted) := by
  have freed : Touches [.memory, .arbiter, .clipStore, .ports, .events] s s.freeBus := s.freeBus_touches.mono (by decide)
  have written := freed.trans ((State.setMemory_touches _ (s.memory.writePage s.silence page codes)).mono (by decide))
  have unlisted := written.trans ((State.unlist_touches _ page).mono (by decide))
  exact (unlisted.trans ((State.writeNoted_touches _ p clip index noted).mono (by decide))).answered (by decide) p _ _

/-- What CLIP_WRITTEN's filing and the reply leave alone stands as when the page has been written. -/
theorem State.pageWritten_after : Touches [.clipStore, .ports, .events]
    ((s.freeBus.setMemory (s.memory.writePage s.silence page codes)).unlist page)
    (s.pageWritten p clip index page codes noted) :=
  ((State.writeNoted_touches _ p clip index noted).mono (by decide)).answered (by decide) p _ _

theorem State.pageWritten_memory :
    (s.pageWritten p clip index page codes noted).memory = s.memory.writePage s.silence page codes :=
  s.pageWritten_after p clip index page codes noted .memory (by decide)

theorem State.pageWritten_arbiter : (s.pageWritten p clip index page codes noted).arbiter
    = { s.arbiter with bus := none, badPages := s.arbiter.badPages.filter fun x => x ≠ page } :=
  s.pageWritten_after p clip index page codes noted .arbiter (by decide)

theorem State.pageWritten_clipStore : (s.pageWritten p clip index page codes noted).clipStore
    = { s.clipStore with clips := s.clipStore.clips.put clip { s.clip clip with
        writeBusy := (s.clip clip).writeBusy - 1, written := true, accessed := (s.clip clip).accessed || noted } } :=
  State.writeNoted_clipStore _ p clip index noted

theorem State.pageWritten_clip : (s.pageWritten p clip index page codes noted).clip clip = { s.clip clip with
    writeBusy := (s.clip clip).writeBusy - 1, written := true, accessed := (s.clip clip).accessed || noted } := by
  unfold State.clip
  rw [State.pageWritten_clipStore]
  exact Table.cell_put_same ..

theorem State.pageWritten_events : (s.pageWritten p clip index page codes noted).events = (if noted then
    s.fileOwner (s.clip clip).owner .clipWritten clip.val (index + 0x8000 * Port.number p) else s).events := by
  show (State.writeNoted _ p clip index noted).events = _
  rw [State.writeNoted_events]
  split
  · refine State.fileOwner_events ?_ ?_ ?_ _ _ _ _
    · rfl
    · rfl
    · rfl
  · rfl

end

/-- The reply of a request in flight, whatever led to it from a state with the same ports (R169, R171, R172). -/
theorem State.answer_ports {s u : State} {p : Port} {code : Byte} (same : u.ports = s.ports)
    (inFlight : (s.port p).inFlight = some code) (status : Status) (payload : List Byte) :
    (u.answer p status payload).ports
      = s.ports.put p { s.port p with ready := true, inFlight := none, lastReply := some ⟨status, code, payload⟩ } := by
  have port : u.port p = s.port p := by unfold State.port; rw [same]
  show u.ports.put p { u.port p with
    ready := true, inFlight := none, lastReply := some ⟨status, ((u.port p).inFlight).getD 0, payload⟩ } = _
  rw [port, same, inFlight]
  rfl

theorem State.pageWritten_ports {s : State} {p : Port} {code : Byte} (inFlight : (s.port p).inFlight = some code)
    (clip : Fin 256) (index page : Nat) (codes : PageCodes) (noted : Bool) : (s.pageWritten p clip index page codes noted).ports
      = s.ports.put p { s.port p with
          ready := true, inFlight := none, lastReply := some ⟨.ok, code, numberByte clip :: (halfOf index).bytes⟩ } := by
  unfold State.pageWritten
  refine State.answer_ports ?_ inFlight _ _
  exact State.writeNoted_touches _ p clip index noted .ports (by decide)

/-- The port is left as it was replied to: none of its operations waits for the grant (R129). -/
theorem State.grant_port_of_ports {u : State} {p : Port} {x : PerPort PortState} {y : PortState} (ports : u.ports = x.put p y)
    (waits : u.arbiter.pendingOps.cell p = none) : u.grant.port p = y := by
  rw [(State.grant_port waits).1]
  unfold State.port
  rw [ports]
  exact PerPort.cell_put_same ..

/-! ## Page reads (R119, R130) -/

/-- What a read finds leaves the bus as it was. -/
theorem State.struckCounted_freeBus (s : State) (page finder : Nat) (upsets : List WordUpset) :
    (s.freeBus.struck page upsets).counted page finder = ((s.struck page upsets).counted page finder).freeBus :=
  State.counted_freeBus (s.struck page upsets) page finder

/-- What the completion of a page read leaves before the grant. -/
def State.pageRead (s : State) (p : Port) (clip : Fin 256) (index page : Nat) (upsets : List WordUpset) : State :=
  ((s.struck page upsets).counted page (readFinder p)).freeBus.readReply p clip index ((s.struck page upsets).pageCodes page)
    ((s.struck page upsets).pageBad page)

theorem State.readCompleted_eq (s : State) (p : Port) (clip : Fin 256) (index page : Nat) (upsets : List WordUpset) :
    s.readCompleted p clip index page upsets = (s.pageRead p clip index page upsets).grant := by
  unfold State.readCompleted State.pageRead
  rw [← State.struckCounted_freeBus]
  rfl

theorem exec_portPageReadCompletion {s : State} {p : Port} {clip : Fin 256} {index page : Nat}
    (bus : s.arbiter.bus = some (.port p (.read clip index page))) (within : page < s.pageCount) (upsets : List WordUpset) :
    exec (.portPageReadCompletion upsets) s = .next (s.pageRead p clip index page upsets).grant := by
  show execPortPageReadCompletion upsets s = _
  unfold execPortPageReadCompletion
  rw [bus, ← State.readCompleted_eq]
  exact State.onPage_of_lt within _

theorem State.struckCounted_touches (s : State) (page finder : Nat) (upsets : List WordUpset) :
    Touches [.memory, .arbiter, .events] s ((s.struck page upsets).counted page finder) :=
  ((s.struck_touches page upsets).mono (by decide)).trans ((State.counted_touches _ page finder).mono (by decide))

theorem State.struckCounted_memory (s : State) (page finder : Nat) (upsets : List WordUpset) :
    ((s.struck page upsets).counted page finder).memory = (s.struck page upsets).memory :=
  State.counted_touches _ page finder .memory (by decide)

section
variable (s : State) (p : Port) (clip : Fin 256) (index page : Nat) (upsets : List WordUpset)

theorem State.pageRead_touches :
    Touches [.memory, .arbiter, .ports, .events] s (s.pageRead p clip index page upsets) := by
  have found := (s.struckCounted_touches page (readFinder p) upsets).mono (b := [.memory, .arbiter, .ports, .events]) (by decide)
  have freed := found.trans ((State.freeBus_touches _).mono (by decide))
  exact freed.trans ((State.readReply_touches _ p clip index _ _).mono (by decide))

theorem State.pageRead_ports {code : Byte} (inFlight : (s.port p).inFlight = some code) :
    (s.pageRead p clip index page upsets).ports = s.ports.put p { s.port p with
      ready := true, inFlight := none
      lastReply := some ⟨.ok, code, [numberByte clip] ++ (halfOf index).bytes ++ ((s.struck page upsets).pageCodes page).toList
        ++ [flagByte ((s.struck page upsets).pageBad page)]⟩ } := by
  unfold State.pageRead State.readReply
  refine State.answer_ports ?_ inFlight _ _
  exact s.struckCounted_touches page (readFinder p) upsets .ports (by decide)

end

/-! ## Scrub steps (R132) -/

/-- The pointer's next page, and the passes then completed (R132). -/
theorem State.advanceScrub_eq (s : State) : s.advanceScrub = s.setArbiter { s.arbiter with
    scrubPointer := if s.arbiter.scrubPointer + 1 < s.pageCount then s.arbiter.scrubPointer + 1 else 0
    passes := if s.arbiter.scrubPointer + 1 < s.pageCount then s.arbiter.passes
      else min 4294967295 (s.arbiter.passes + 1) } := by
  unfold State.advanceScrub
  split
  · rfl
  · rfl

theorem State.scrubPage_freeBus (s : State) (page : Nat) (upsets : List WordUpset) :
    s.freeBus.scrubPage page upsets = (s.scrubPage page upsets).freeBus := by
  unfold State.scrubPage
  dsimp only
  rw [State.struckCounted_freeBus, show s.freeBus.arbiter.badPages = s.arbiter.badPages from rfl,
    show (s.freeBus.struck page upsets).pageBad page = (s.struck page upsets).pageBad page from rfl]
  split
  · rfl
  · split
    · rfl
    · rfl

/-- What the completion of a scrub step leaves before the grant. -/
def State.pageScrubbed (s : State) (upsets : List WordUpset) : State :=
  (s.scrubPage s.arbiter.scrubPointer upsets).freeBus.advanceScrub

theorem exec_scrubStepCompletion {s : State} (bus : s.arbiter.bus = some .scrub)
    (within : s.arbiter.scrubPointer < s.pageCount) (upsets : List WordUpset) :
    exec (.scrubStepCompletion upsets) s = .next (s.pageScrubbed upsets).grant := by
  show execScrubStepCompletion upsets s = _
  unfold execScrubStepCompletion State.pageScrubbed
  rw [bus, ← State.scrubPage_freeBus]
  exact State.onPage_of_lt within _

section
variable {s : State} {page : Nat} (upsets : List WordUpset)

theorem State.scrubPage_of_listed (listed : page ∈ s.arbiter.badPages) : s.scrubPage page upsets = s := if_pos listed

theorem State.scrubPage_of_good (unlisted : page ∉ s.arbiter.badPages) (good : (s.struck page upsets).pageBad page = false) :
    s.scrubPage page upsets = ((s.struck page upsets).counted page 0).setMemory ((s.struck page upsets).memory.clearFlaws page) := by
  unfold State.scrubPage
  dsimp only
  rw [if_neg unlisted, good, State.struckCounted_memory]
  rfl

theorem State.scrubPage_of_bad (unlisted : page ∉ s.arbiter.badPages) (bad : (s.struck page upsets).pageBad page = true) :
    s.scrubPage page upsets = (s.struck page upsets).counted page 0 := by
  unfold State.scrubPage
  dsimp only
  rw [if_neg unlisted, bad]
  rfl

/-- What a scrub step leaves beside memory: what it found of a page that is not listed. -/
theorem State.scrubPage_found (s : State) (page : Nat) : Touches [.memory]
    (if page ∈ s.arbiter.badPages then s else (s.struck page upsets).counted page 0) (s.scrubPage page upsets) := by
  by_cases listed : page ∈ s.arbiter.badPages
  · rw [if_pos listed, State.scrubPage_of_listed upsets listed]
    exact .refl _ s
  · rw [if_neg listed]
    cases bad : (s.struck page upsets).pageBad page with
    | true => rw [State.scrubPage_of_bad upsets listed bad]; exact .refl _ _
    | false => rw [State.scrubPage_of_good upsets listed bad]; exact State.setMemory_touches _ _

theorem State.scrubPage_scrub (s : State) (page : Nat) :
    (s.scrubPage page upsets).arbiter.scrubPointer = s.arbiter.scrubPointer
      ∧ (s.scrubPage page upsets).arbiter.passes = s.arbiter.passes := by
  rw [s.scrubPage_found upsets page .arbiter (by decide)]
  split
  · exact ⟨rfl, rfl⟩
  · obtain ⟨pointer, passes, -⟩ := State.counted_rest (s.struck page upsets) page 0
    exact ⟨pointer, passes⟩

theorem State.scrubPage_touches_tight (s : State) (page : Nat) :
    Touches [.memory, .arbiter, .events] s (s.scrubPage page upsets) := by
  refine Touches.trans ?_ ((s.scrubPage_found upsets page).mono (by decide))
  exact Touches.ite _ (.refl _ s) (s.struckCounted_touches page 0 upsets)

theorem State.pageScrubbed_touches (s : State) : Touches [.memory, .arbiter, .events] s (s.pageScrubbed upsets) :=
  ((s.scrubPage_touches_tight upsets s.arbiter.scrubPointer).trans ((State.freeBus_touches _).mono (by decide))).trans
    ((State.advanceScrub_touches _).mono (by decide))

theorem State.pageScrubbed_memory (s : State) :
    (s.pageScrubbed upsets).memory = (s.scrubPage s.arbiter.scrubPointer upsets).memory :=
  (State.advanceScrub_touches _ .memory (by decide)).trans (State.freeBus_touches _ .memory (by decide))

theorem State.pageScrubbed_arbiter (s : State) : (s.pageScrubbed upsets).arbiter
    = { (if s.arbiter.scrubPointer ∈ s.arbiter.badPages then s
          else (s.struck s.arbiter.scrubPointer upsets).counted s.arbiter.scrubPointer 0).arbiter with
        bus := none
        scrubPointer := if s.arbiter.scrubPointer + 1 < s.pageCount then s.arbiter.scrubPointer + 1 else 0
        passes := if s.arbiter.scrubPointer + 1 < s.pageCount then s.arbiter.passes
          else min 4294967295 (s.arbiter.passes + 1) } := by
  obtain ⟨pointer, passes⟩ := s.scrubPage_scrub upsets s.arbiter.scrubPointer
  have count : (s.scrubPage s.arbiter.scrubPointer upsets).freeBus.pageCount = s.pageCount :=
    congrArg (fun x : StartUp => x.memorySize.pages) (s.scrubPage_touches_tight upsets _ .startUp (by decide))
  have found := s.scrubPage_found upsets s.arbiter.scrubPointer .arbiter (by decide)
  unfold State.pageScrubbed
  rw [State.advanceScrub_eq, State.setArbiter_arbiter, count]
  unfold State.freeBus
  rw [State.setArbiter_arbiter]
  dsimp only
  rw [pointer, passes, found]

theorem State.pageScrubbed_events (s : State) : (s.pageScrubbed upsets).events
    = (if s.arbiter.scrubPointer ∈ s.arbiter.badPages then s
        else (s.struck s.arbiter.scrubPointer upsets).counted s.arbiter.scrubPointer 0).events := by
  rw [← s.scrubPage_found upsets s.arbiter.scrubPointer .events (by decide)]
  exact (State.advanceScrub_touches _ .events (by decide)).trans (State.freeBus_touches _ .events (by decide))

end

/-! ## The statement -/

/-- Settles O49: the operation's own work, on a bus that is free, and then the grant, which leaves what the arbiter counts and
lists, clip memory, and a port for which nothing waits. -/
theorem busCompletions : Obligations.BusCompletions := by
  refine ⟨fun s page finder => ⟨s.pageBad_iff page, State.counted_of_good finder, fun bad unlisted room => ?_,
      fun bad unlisted full => ?_⟩, fun s f upsets bus within => ?_,
    fun s p clip index page codes noted code bus within inFlight waits => ?_,
    fun s p clip index page upsets code bus within inFlight waits => ?_, fun s upsets bus within => ?_⟩
  · exact (State.counted_of_bad finder bad).trans (State.detected_of_room finder unlisted room)
  · exact (State.counted_of_bad finder bad).trans (State.detected_of_full finder unlisted full)
  · rw [exec_pageFetchCompletion bus within upsets, State.fetchCompleted_eq]
    cases f with
    | mk player => cases player <;> rfl
  · let u := s.pageWritten p clip index page codes noted
    have memory : u.grant.memory = s.memory.writePage s.silence page codes :=
      u.grant_memory.trans (s.pageWritten_memory p clip index page codes noted)
    have arbiter := s.pageWritten_arbiter p clip index page codes noted
    have idle : u.arbiter.pendingOps.cell p = none := by rw [arbiter]; exact waits
    have ports := State.pageWritten_ports inFlight clip index page codes noted
    have clips := s.pageWritten_clip p clip index page codes noted
    obtain ⟨badPages, -⟩ := Arbiter.tallies_inj.mp u.grant_tallies
    obtain ⟨writeBusy, written, accessed⟩ := u.grant_clip_flags clip
    refine ⟨u.grant, exec_portPageWriteCompletion bus within, fun i => ?_, fun a outside => ?_, fun w => ?_,
      fun w outside => ?_, badPages.trans (congrArg Arbiter.badPages arbiter), writeBusy.trans (congrArg Clip.writeBusy clips),
      written.trans (congrArg Clip.written clips), accessed.trans (congrArg Clip.accessed clips),
      State.grant_port_of_ports ports idle, u, rfl, s.pageWritten_touches p clip index page codes noted, arbiter,
      s.pageWritten_clipStore p clip index page codes noted, ports, s.pageWritten_events p clip index page codes noted⟩
    · rw [memory, Memory.readByte_writePage, if_pos (by omega), Nat.add_sub_cancel_left]
      exact dif_pos i.isLt
    · rw [memory, Memory.readByte_writePage, if_neg (by omega)]
    · rw [memory, Memory.flaw_writePage, if_pos (by omega)]
    · rw [memory, Memory.flaw_writePage, if_neg (by omega)]
  · let v := s.pageRead p clip index page upsets
    obtain ⟨-, -, pending⟩ := (s.struck page upsets).counted_rest page (readFinder p)
    have idle : v.arbiter.pendingOps.cell p = none := (congrArg (·.cell p) pending).trans waits
    have ports := s.pageRead_ports p clip index page upsets inFlight
    exact ⟨v.grant, exec_portPageReadCompletion bus within upsets, v.grant_memory.trans (s.struckCounted_memory page _ upsets),
      State.grant_port_of_ports ports idle, v, rfl, s.pageRead_touches p clip index page upsets, rfl, ports, rfl⟩
  · let v := s.pageScrubbed upsets
    have arbiter := s.pageScrubbed_arbiter upsets
    have memory : v.grant.memory = (s.scrubPage s.arbiter.scrubPointer upsets).memory :=
      v.grant_memory.trans (s.pageScrubbed_memory upsets)
    obtain ⟨badPages, correctable, uncorrectable, pointer, passes⟩ := Arbiter.tallies_inj.mp v.grant_tallies
    rw [show v.arbiter = _ from arbiter] at badPages correctable uncorrectable pointer passes
    dsimp only at badPages correctable uncorrectable pointer passes
    refine ⟨v.grant, exec_scrubStepCompletion bus within upsets, fun further => ?_, fun last => ?_, fun listed => ?_,
      fun unlisted good => ?_, fun unlisted bad => ?_, v, rfl, s.pageScrubbed_touches upsets, arbiter,
      s.pageScrubbed_events upsets⟩
    · exact ⟨pointer.trans (if_pos further), passes.trans (if_pos further)⟩
    · have ends : ¬s.arbiter.scrubPointer + 1 < s.pageCount := by omega
      exact ⟨pointer.trans (if_neg ends), passes.trans (if_neg ends)⟩
    · rw [if_pos listed] at badPages correctable uncorrectable
      rw [State.scrubPage_of_listed upsets listed] at memory
      exact ⟨memory, correctable, uncorrectable, badPages⟩
    · rw [if_neg unlisted, State.counted_of_good 0 good] at badPages correctable uncorrectable
      rw [State.scrubPage_of_good upsets unlisted good] at memory
      exact ⟨memory, badPages, uncorrectable, correctable⟩
    · rw [if_neg unlisted, State.counted_of_bad 0 bad, State.detected_arbiter] at badPages correctable uncorrectable
      rw [State.scrubPage_of_bad upsets unlisted bad, State.struckCounted_memory] at memory
      exact ⟨memory, correctable, uncorrectable, badPages.trans (listedAfter_of_unlisted unlisted)⟩

end Sys2Proof.Machine
end

section
/-! PROOFS. What the bounds of the bookkeeping and the fetch requests read of the state, and the relations that keep them (R127,
R131, R132, R134, R140, R157, R162, R182). -/

namespace Sys2Proof.Machine

/-! ## Bounds -/

/-- From `s` to `t` event stores, the bad-page list, the owed count, the scrub pointer and the whisper queues stay within
their bounds. -/
structure InBounds (s t : State) : Prop where
  stores : s.storesBounded → t.storesBounded
  badList : s.badListSound → t.badListSound
  scrub : s.scrubSound → t.scrubSound
  queues : s.queuesBounded → t.queuesBounded

section
variable {s t u : State}

theorem InBounds.refl (s : State) : InBounds s s := ⟨id, id, id, id⟩

theorem InBounds.trans (h : InBounds s t) (k : InBounds t u) : InBounds s u :=
  ⟨k.stores ∘ h.stores, k.badList ∘ h.badList, k.scrub ∘ h.scrub, k.queues ∘ h.queues⟩

theorem State.storesBounded_of_same (events : t.events = s.events) (h : s.storesBounded) : t.storesBounded := fun p => by
  unfold State.eventsOf
  rw [events]
  exact h p

theorem State.badListSound_of_same (same : t.arbiter.badPages = s.arbiter.badPages) (h : s.badListSound) : t.badListSound := by
  unfold State.badListSound
  rw [same]
  exact h

theorem State.scrubSound_of_same (phase : t.phase = s.phase) (startUp : t.startUp = s.startUp)
    (owed : t.arbiter.owed ≤ s.arbiter.owed) (pointer : t.arbiter.scrubPointer = s.arbiter.scrubPointer)
    (h : s.scrubSound) : t.scrubSound := by
  refine ⟨Nat.le_trans owed h.1, ?_⟩
  unfold State.pageCount
  rw [phase, startUp, pointer]
  exact h.2

theorem State.queuesBounded_of_le (shorter : ∀ p, (t.queue p).length ≤ (s.queue p).length) (h : s.queuesBounded) :
    t.queuesBounded := fun p => Nat.le_trans (shorter p) (h p)

/-- What is left alone stays within its bounds. -/
theorem InBounds.of_touches {parts : List Part} (h : Touches parts s t)
    (untouched : ∀ x ∈ ([.phase, .startUp, .arbiter, .whisper, .events] : List Part), x ∉ parts) : InBounds s t where
  stores := State.storesBounded_of_same (h .events (untouched _ (by decide)))
  badList := State.badListSound_of_same (congrArg Arbiter.badPages (h .arbiter (untouched _ (by decide))))
  scrub := State.scrubSound_of_same (h .phase (untouched _ (by decide))) (h .startUp (untouched _ (by decide)))
    (Nat.le_of_eq (congrArg Arbiter.owed (h .arbiter (untouched _ (by decide)))))
    (congrArg Arbiter.scrubPointer (h .arbiter (untouched _ (by decide))))
  queues := State.queuesBounded_of_le fun p => Nat.le_of_eq (by unfold State.queue; rw [h .whisper (untouched _ (by decide))])

/-- Only the arbiter changes, and neither its list nor its pointer, and its owed count does not rise. -/
theorem State.setArbiter_inBounds (s : State) {x : Arbiter} (badPages : x.badPages = s.arbiter.badPages)
    (owed : x.owed ≤ s.arbiter.owed) (pointer : x.scrubPointer = s.arbiter.scrubPointer) : InBounds s (s.setArbiter x) :=
  ⟨id, State.badListSound_of_same badPages, State.scrubSound_of_same rfl rfl owed pointer, id⟩

theorem State.setPlayer_inBounds (s : State) (w : Fin 16) (x : PromptPlayer) : InBounds s (s.setPlayer w x) :=
  ⟨id, id, id, id⟩

theorem State.setQueue_inBounds (s : State) (p : Fin 64) {q : List Entry}
    (short : q.length ≤ 4 ∨ q.length ≤ (s.queue p).length) : InBounds s (s.setQueue p q) := by
  refine ⟨id, id, id, fun h r => ?_⟩
  rw [State.setQueue_queue]
  split
  · exact short.elim id fun shorter => Nat.le_trans shorter (h p)
  · exact h r

/-! ## Event stores (R182) -/

theorem dropFirst_length_of_any {α : Type} {test : α → Bool} {l : List α} (some : l.any test = true) :
    (dropFirst test l).length + 1 = l.length := by
  induction l with
  | nil => exact nomatch some
  | cons x l ih =>
    unfold dropFirst
    split
    · rfl
    · next fails =>
      rw [List.any_cons, Bool.eq_false_iff.mpr fails, Bool.false_or] at some
      exact congrArg (· + 1) (ih some)

theorem dropFirst_length_le {α : Type} (test : α → Bool) (l : List α) : (dropFirst test l).length ≤ l.length := by
  cases some : l.any test with
  | true => have := dropFirst_length_of_any some; omega
  | false =>
    induction l with
    | nil => exact Nat.le_refl _
    | cons x l ih =>
      rw [List.any_cons, Bool.or_eq_false_iff] at some
      unfold dropFirst
      rw [some.1]
      exact Nat.succ_le_succ (ih some.2)

/-- What a port's store and lost count are bounded by. -/
def EventState.Bounded (e : EventState) : Prop := e.store.length ≤ 32 ∧ e.lost ≤ 65535

/-- A record displaces another in a full store, or is lost (R182). -/
theorem EventState.store1_bounded {e : EventState} (h : e.Bounded) (r : Record) : (e.store1 r).Bounded := by
  have lost : satAdd max16 e.lost 1 ≤ 65535 := Nat.min_le_left _ _
  unfold EventState.store1
  split
  · next room => exact ⟨by simpa using room, h.2⟩
  · split
    · next some =>
      have fewer := dropFirst_length_of_any some
      have full := h.1
      refine ⟨?_, lost⟩
      rw [List.length_append, List.length_singleton]
      omega
    · exact ⟨h.1, lost⟩

theorem State.setEvents_inBounds (s : State) (p : Port) {e : EventState} (bounded : (s.eventsOf p).Bounded → e.Bounded) :
    InBounds s (s.setEvents p e) := by
  refine ⟨fun h q => ?_, id, id, id⟩
  show ((s.events.put p e).cell q).Bounded
  rw [PerPort.cell_put]
  split
  · exact bounded (h p)
  · exact h q

end

/-! ## Fetches (R127, R128) -/

/-- Whether a stream's, and whether a prompt player's, next slot awaits a page. -/
def Stream.awaits (x : Stream) : Bool :=
  match x.next with | .awaited _ => true | .empty => false | .filled _ => false
def PromptPlayer.awaits (x : PromptPlayer) : Bool :=
  match x.next with | .awaited => true | .empty => false | .filled _ => false

/-- What fetches read of a player: its generation, whether it awaits a page, and whether it is in use. -/
structure Standing where
  generation : Half
  awaits     : Bool
  inUse      : Bool

/-- A stream player is in use by its owner, and a prompt player by the position it is assigned to. -/
def Stream.standing (x : Stream) : Standing := ⟨x.generation, x.awaits, x.owner.isSome⟩
def PromptPlayer.standing (x : PromptPlayer) : Standing := ⟨x.generation, x.awaits, x.assigned.isSome⟩
def State.standing (s : State) : PlayerId → Standing
  | .stream k => (s.stream k).standing
  | .prompt w => (s.player w).standing

theorem State.generationOf_eq (s : State) (x : PlayerId) : s.generationOf x = (s.standing x).generation := by cases x <;> rfl

theorem State.awaits_eq (s : State) (x : PlayerId) : s.awaits x = (s.standing x).awaits := by cases x <;> rfl

/-- What plays nothing awaits nothing (R140, R162). -/
def Stream.idleEmpty (x : Stream) : Prop := x.state = .stopped → x.next = .empty
def PromptPlayer.idleEmpty (x : PromptPlayer) : Prop := x.assigned = none → x.next = .empty
def State.idleEmpty (s : State) : Prop := (∀ k, (s.stream k).idleEmpty) ∧ ∀ w, (s.player w).idleEmpty

/-- At most one request of a player waits, and it is one that the player awaits under its generation; none waits behind a
fetch of that generation on the bus; and idle players await nothing. -/
structure FetchesSound (s : State) : Prop where
  one : ∀ x, (s.arbiter.queue.filter fun f => f.player = x).length ≤ 1
  awaited : ∀ f ∈ s.arbiter.queue, f.generation = (s.standing f.player).generation ∧ (s.standing f.player).awaits = true
  onBus : ∀ f, s.arbiter.bus = some (.fetch f) → f.generation = (s.standing f.player).generation →
    (s.standing f.player).awaits = true ∧ ∀ g ∈ s.arbiter.queue, g.player ≠ f.player
  idle : s.idleEmpty

theorem State.fetchesSound_iff (s : State) : s.fetchesSound ↔ FetchesSound s := by
  unfold State.fetchesSound
  simp only [State.generationOf_eq, State.awaits_eq]
  exact ⟨fun ⟨one, awaited, onBus, streams, players⟩ => ⟨one, awaited, onBus, streams, players⟩,
    fun h => ⟨h.one, h.awaited, h.onBus, h.idle.1, h.idle.2⟩⟩

/-- From `s` to `t` nothing has changed of what fetches read. -/
structure FetchesAlike (s t : State) : Prop where
  bus : t.arbiter.bus = s.arbiter.bus
  queue : t.arbiter.queue = s.arbiter.queue
  standing : t.standing = s.standing
  idle : s.idleEmpty → t.idleEmpty

section
variable {s t u : State}

theorem FetchesAlike.refl (s : State) : FetchesAlike s s := ⟨rfl, rfl, rfl, id⟩

theorem FetchesAlike.trans (h : FetchesAlike s t) (k : FetchesAlike t u) : FetchesAlike s u :=
  ⟨k.bus.trans h.bus, k.queue.trans h.queue, k.standing.trans h.standing, k.idle ∘ h.idle⟩

theorem FetchesAlike.sound (alike : FetchesAlike s t) (h : FetchesSound s) : FetchesSound t := by
  obtain ⟨bus, queue, standing, idle⟩ := alike
  refine ⟨?_, ?_, ?_, idle h.idle⟩
  · rw [queue]; exact h.one
  · rw [queue, standing]; exact h.awaited
  · rw [bus, queue, standing]; exact h.onBus

theorem State.standing_of_same (streams : t.streams = s.streams) (players : t.whisper.players = s.whisper.players) :
    t.standing = s.standing := by
  funext x
  cases x with
  | stream k => show (t.streams.cell k).standing = (s.streams.cell k).standing; rw [streams]
  | prompt w => show (t.whisper.players.cell w).standing = (s.whisper.players.cell w).standing; rw [players]

theorem State.idleEmpty_of_same (streams : t.streams = s.streams) (players : t.whisper.players = s.whisper.players)
    (h : s.idleEmpty) : t.idleEmpty := by
  unfold State.idleEmpty State.stream State.player
  rw [streams, players]
  exact h

theorem FetchesAlike.of_parts (bus : t.arbiter.bus = s.arbiter.bus) (queue : t.arbiter.queue = s.arbiter.queue)
    (streams : t.streams = s.streams) (players : t.whisper.players = s.whisper.players) : FetchesAlike s t :=
  ⟨bus, queue, State.standing_of_same streams players, State.idleEmpty_of_same streams players⟩

theorem FetchesAlike.of_touches {parts : List Part} (h : Touches parts s t)
    (untouched : ∀ x ∈ ([.arbiter, .streams, .whisper] : List Part), x ∉ parts) : FetchesAlike s t :=
  .of_parts (congrArg Arbiter.bus (h .arbiter (untouched _ (by decide))))
    (congrArg Arbiter.queue (h .arbiter (untouched _ (by decide)))) (h .streams (untouched _ (by decide)))
    (congrArg Whisper.players (h .whisper (untouched _ (by decide))))

end

/-! ## One player replaced -/

section
variable (s : State)

theorem State.setStream_standing (k : Fin 16) (x : Stream) :
    (s.setStream k x).standing = fun y => if y = .stream k then x.standing else s.standing y := by
  funext y
  cases y with
  | stream j =>
    show ((s.setStream k x).stream j).standing = _
    rw [State.setStream_stream]
    by_cases same : k = j
    · rw [if_pos same, if_pos (congrArg PlayerId.stream same.symm)]
    · rw [if_neg same, if_neg fun equal => same (PlayerId.stream.inj equal).symm]
      rfl
  | prompt w => exact (if_neg nofun).symm

theorem State.setPlayer_standing (w : Fin 16) (x : PromptPlayer) :
    (s.setPlayer w x).standing = fun y => if y = .prompt w then x.standing else s.standing y := by
  funext y
  cases y with
  | stream k => exact (if_neg nofun).symm
  | prompt v =>
    show ((s.setPlayer w x).player v).standing = _
    rw [State.setPlayer_player]
    by_cases same : w = v
    · rw [if_pos same, if_pos (congrArg PlayerId.prompt same.symm)]
    · rw [if_neg same, if_neg fun equal => same (PlayerId.prompt.inj equal).symm]
      rfl

variable {s}

theorem State.setStream_idleEmpty {k : Fin 16} {x : Stream} (idle : (s.stream k).idleEmpty → x.idleEmpty)
    (h : s.idleEmpty) : (s.setStream k x).idleEmpty := by
  refine ⟨fun j => ?_, h.2⟩
  rw [State.setStream_stream]
  split
  · exact idle (h.1 k)
  · exact h.1 j

theorem State.setPlayer_idleEmpty {w : Fin 16} {x : PromptPlayer} (idle : (s.player w).idleEmpty → x.idleEmpty)
    (h : s.idleEmpty) : (s.setPlayer w x).idleEmpty := by
  refine ⟨h.1, fun v => ?_⟩
  rw [State.setPlayer_player]
  split
  · exact idle (h.2 w)
  · exact h.2 v

theorem State.setStream_alike {k : Fin 16} {x : Stream} (same : x.standing = (s.stream k).standing)
    (idle : (s.stream k).idleEmpty → x.idleEmpty) : FetchesAlike s (s.setStream k x) := by
  refine ⟨rfl, rfl, ?_, State.setStream_idleEmpty idle⟩
  rw [State.setStream_standing]
  funext y
  split
  · next equal => rw [equal, same]; rfl
  · rfl

theorem State.setPlayer_alike {w : Fin 16} {x : PromptPlayer} (same : x.standing = (s.player w).standing)
    (idle : (s.player w).idleEmpty → x.idleEmpty) : FetchesAlike s (s.setPlayer w x) := by
  refine ⟨rfl, rfl, ?_, State.setPlayer_idleEmpty idle⟩
  rw [State.setPlayer_standing]
  funext y
  split
  · next equal => rw [equal, same]; rfl
  · rfl

end

/-! ## What keeps both -/

/-- From `s` to `t` the bounds are kept, and nothing has changed of what fetches read. -/
structure Undisturbed (s t : State) : Prop where
  inBounds : InBounds s t
  alike : FetchesAlike s t

/-- From `s` to `t` the bounds are kept, and fetches stay sound. -/
structure Steady (s t : State) : Prop where
  inBounds : InBounds s t
  sound : FetchesSound s → FetchesSound t

section
variable {s t u : State}

theorem Undisturbed.refl (s : State) : Undisturbed s s := ⟨.refl s, .refl s⟩

theorem Undisturbed.trans (h : Undisturbed s t) (k : Undisturbed t u) : Undisturbed s u :=
  ⟨h.inBounds.trans k.inBounds, h.alike.trans k.alike⟩

theorem Undisturbed.steady (h : Undisturbed s t) : Steady s t := ⟨h.inBounds, h.alike.sound⟩

theorem Steady.refl (s : State) : Steady s s := ⟨.refl s, id⟩

theorem Steady.trans (h : Steady s t) (k : Steady t u) : Steady s u := ⟨h.inBounds.trans k.inBounds, k.sound ∘ h.sound⟩

/-- The pieces that the bounds and the fetches are part of. -/
def bookParts : List Part := [.phase, .startUp, .arbiter, .streams, .whisper, .events]

theorem Undisturbed.of_touches {parts : List Part} (h : Touches parts s t) (untouched : ∀ x ∈ bookParts, x ∉ parts) :
    Undisturbed s t := by
  refine ⟨.of_touches h fun x member => untouched x ?_, .of_touches h fun x member => untouched x ?_⟩
  · revert x; decide
  · revert x; decide

theorem Undisturbed.foldl {α : Type} {f : State → α → State} (each : ∀ s x, Undisturbed s (f s x)) (l : List α)
    (s : State) : Undisturbed s (l.foldl f s) := foldl_keeps (P := Undisturbed s) (fun t x h => h.trans (each t x)) l s (.refl s)

theorem Undisturbed.foldl_pair {α β : Type} {f : β × State → α → β × State} (each : ∀ a x, Undisturbed a.2 (f a x).2)
    (l : List α) (a : β × State) : Undisturbed a.2 (l.foldl f a).2 :=
  foldl_keeps (P := fun b : β × State => Undisturbed a.2 b.2) (fun b x h => h.trans (each b x)) l a (.refl a.2)

theorem Steady.foldl {α : Type} {f : State → α → State} (each : ∀ s x, Steady s (f s x)) (l : List α) (s : State) :
    Steady s (l.foldl f s) := foldl_keeps (P := Steady s) (fun t x h => h.trans (each t x)) l s (.refl s)

theorem Steady.foldl_pair {α β : Type} {f : β × State → α → β × State} (each : ∀ a x, Steady a.2 (f a x).2)
    (l : List α) (a : β × State) : Steady a.2 (l.foldl f a).2 :=
  foldl_keeps (P := fun b : β × State => Steady a.2 b.2) (fun b x h => h.trans (each b x)) l a (.refl a.2)

end

end Sys2Proof.Machine
end

section
/-! PROOFS. What leaves the fetch requests alone and everything within its bounds: the event router, the positions' records,
listeners, playlists and whisper queues (R33, R115, R149, R157, R179, R182). -/

namespace Sys2Proof.Machine

section
variable (s : State)

/-! ## The event router (R179, R180, R182) -/

/-- A port's event state is replaced by one within its bounds. -/
theorem State.setEvents_undisturbed (p : Port) {e : EventState} (bounded : (s.eventsOf p).Bounded → e.Bounded) :
    Undisturbed s (s.setEvents p e) := ⟨s.setEvents_inBounds p bounded, .of_touches (s.setEvents_touches p e) (by decide)⟩

theorem State.file_undisturbed (p : Port) (k : EventKind) (o d : Nat) : Undisturbed s (s.file p k o d) := by
  unfold State.file
  split
  · exact s.setEvents_undisturbed p fun bounded => EventState.store1_bounded bounded _
  · exact .refl s

theorem State.fileBoth_undisturbed (k : EventKind) (o d : Nat) : Undisturbed s (s.fileBoth k o d) :=
  (s.file_undisturbed .cp0 k o d).trans (State.file_undisturbed _ .cp1 k o d)

theorem State.fileOwner_undisturbed (p : Option Port) (k : EventKind) (o d : Nat) : Undisturbed s (s.fileOwner p k o d) := by
  cases p with
  | none => exact .refl s
  | some q => exact s.file_undisturbed q k o d

/-! ## Ports and positions -/

theorem State.answer_undisturbed (p : Port) (status : Status) (payload : List Byte) :
    Undisturbed s (s.answer p status payload) := .of_touches (s.answer_touches p status payload) (by decide)

theorem State.setPos_undisturbed (p : Fin 64) (x : Position) : Undisturbed s (s.setPos p x) :=
  .of_touches (s.setPos_touches p x) (by decide)

theorem State.setTap_undisturbed (t : Fin 16) (x : Option Tap) : Undisturbed s (s.setTap t x) :=
  .of_touches (s.setTap_touches t x) (by decide)

theorem State.dropTap_undisturbed (t : Fin 16) (x : Tap) (reason : DropReason) : Undisturbed s (s.dropTap t x reason) :=
  (s.setTap_undisturbed t none).trans (State.file_undisturbed _ _ _ _ _)

theorem State.dropListenerTaps_undisturbed (p : Fin 64) : Undisturbed s (s.dropListenerTaps p) := by
  refine Undisturbed.foldl (fun t x => ?_) _ s
  split
  · exact t.dropTap_undisturbed x.1 x.2 _
  · exact .refl t

theorem State.dropTapsOf_undisturbed (p : Fin 64) : Undisturbed s (s.dropTapsOf p) := by
  refine Undisturbed.foldl (fun t x => ?_) _ s
  split
  · exact t.dropTap_undisturbed x.1 x.2 _
  · split
    · exact t.dropTap_undisturbed x.1 x.2 _
    · exact .refl t

/-! ## Streams and playlists (R33, R115, R149) -/

/-- A stream's record is replaced by one that fetches read the same of. -/
theorem State.setStream_undisturbed (k : Fin 16) {x : Stream} (same : x.standing = (s.stream k).standing)
    (idle : (s.stream k).idleEmpty → x.idleEmpty) : Undisturbed s (s.setStream k x) :=
  ⟨.of_touches (s.setStream_touches k x) (by decide), State.setStream_alike same idle⟩

theorem State.setPlayer_undisturbed (w : Fin 16) {x : PromptPlayer} (same : x.standing = (s.player w).standing)
    (idle : (s.player w).idleEmpty → x.idleEmpty) : Undisturbed s (s.setPlayer w x) :=
  ⟨s.setPlayer_inBounds w x, State.setPlayer_alike same idle⟩

theorem State.addListener_undisturbed (k : Option (Fin 16)) : Undisturbed s (s.addListener k) := by
  cases k with
  | none => exact .refl s
  | some k => exact s.setStream_undisturbed k rfl id

theorem State.dropListener_undisturbed (k : Option (Fin 16)) : Undisturbed s (s.dropListener k) := by
  cases k with
  | none => exact .refl s
  | some k => exact s.setStream_undisturbed k rfl id

theorem State.dropPlays_undisturbed (l : Option Playlist) : Undisturbed s (s.dropPlays l) :=
  .of_touches (s.dropPlays_touches l) (by decide)

theorem State.note_undisturbed (p : Port) (kind : NoteKind) (c : Fin 256) : Undisturbed s (s.note p kind c) := by
  have accessed := fun x => Undisturbed.of_touches (s.setClip_touches c x) (by decide)
  unfold State.note
  split
  · exact (accessed _).trans (State.fileOwner_undisturbed _ _ _ _ _)
  · exact .refl s

theorem State.acceptItems_undisturbed (p : Port) (items : List Item) : Undisturbed s (s.acceptItems p items) :=
  (Undisturbed.of_touches (s.addPlays_touches items) (by decide)).trans
    (Undisturbed.foldl (fun t c => t.note_undisturbed p .playlist c) _ _)

theorem State.switch_undisturbed (k : Fin 16) (i : Nat) : Undisturbed s (s.switch k i) := by
  cases staged : (s.stream k).staged with
  | none => rw [State.switch_of_unstaged staged]; exact .refl s
  | some l =>
    rw [State.switch_of_staged staged]
    have stored : Undisturbed (s.dropPlays (s.stream k).current)
        ((s.dropPlays (s.stream k).current).setStream k ((s.stream k).switched l)) :=
      State.setStream_undisturbed _ k (by rw [State.dropPlays_stream]; rfl) (by rw [State.dropPlays_stream]; exact id)
    exact ((s.dropPlays_undisturbed _).trans stored).trans (State.fileOwner_undisturbed _ _ _ _ _)

theorem State.itemEnd_undisturbed (k : Fin 16) (i : Nat) : Undisturbed s (s.itemEnd k i) := by
  unfold State.itemEnd
  dsimp only
  split
  · exact s.switch_undisturbed k i
  · split
    · exact s.setStream_undisturbed k rfl id
    · exact .refl s

/-! ## Queues and announcements (R31, R39, R157, R164) -/

/-- A queue is replaced by one that is no longer. -/
theorem State.setQueue_undisturbed (p : Fin 64) {q : List Entry} (short : q.length ≤ 4 ∨ q.length ≤ (s.queue p).length) :
    Undisturbed s (s.setQueue p q) :=
  ⟨s.setQueue_inBounds p short, .of_parts rfl rfl rfl rfl⟩

theorem withHeadPhase_length (phase : EntryPhase) (q : List Entry) : (withHeadPhase phase q).length = q.length := by
  cases q <;> rfl

theorem State.rephase_undisturbed (p : Fin 64) (phase : EntryPhase) :
    Undisturbed s (s.setQueue p (withHeadPhase phase (s.queue p))) :=
  s.setQueue_undisturbed p (.inr (Nat.le_of_eq (withHeadPhase_length phase _)))

theorem State.soundHeads_undisturbed : Undisturbed s s.soundHeads := by
  refine Undisturbed.foldl (fun t p => ?_) _ s
  split
  · exact t.rephase_undisturbed p .sounding
  · exact .refl t

theorem State.passTo_undisturbed (p : Fin 64) (port : Port) : Undisturbed s (s.passTo p port) :=
  (s.setPos_undisturbed p _).trans (State.setQueue_undisturbed _ p (.inr (Nat.le_of_eq (List.length_map _))))

theorem State.announceEnded_undisturbed (p : Fin 64) (cancelled : Bool) : Undisturbed s (s.announceEnded p cancelled) := by
  unfold State.announceEnded
  dsimp only
  refine Undisturbed.trans ?_ (State.fileOwner_undisturbed _ _ _ _ _)
  split
  · exact (s.setPos_undisturbed p _).trans (State.dropListener_undisturbed _ _)
  · exact s.setPos_undisturbed p _
  · exact .refl s
  · exact .refl s
  · exact .refl s

/-- An entry joins a queue that has room (R157, R158). -/
theorem State.enqueued_undisturbed (p : Fin 64) (port : Port) (e : Entry) {place : List Entry → List Entry}
    (room : (place (s.queue p)).length ≤ 4) : Undisturbed s (s.enqueued p port e place) := by
  have numbered : ∀ t : State, Undisturbed t t.numbered := fun t => ⟨⟨id, id, id, id⟩, .of_parts rfl rfl rfl rfl⟩
  have counted := fun t : State => Undisturbed.of_touches (t.addPlay_touches e.clip) (by decide)
  exact (((s.setQueue_undisturbed p (.inl room)).trans (numbered _)).trans (counted _)).trans (State.note_undisturbed _ _ _ _)

/-! ## Positions (R27, R41) -/

theorem State.connecting_undisturbed (p t : Fin 64) (state : PositionState) (stream : Option (Fin 16)) :
    Undisturbed s (s.connecting p t state stream) := by
  have bound := fun u : State => Undisturbed.of_touches (u.bindTrunk_touches t p) (by decide)
  have cleared := fun u : State => Undisturbed.of_touches (u.clearCanceller_touches p) (by decide)
  have marked := fun u : State => Undisturbed.of_touches (u.setFirstFrame_touches p) (by decide)
  exact (((((s.setPos_undisturbed p _).trans (bound _)).trans (cleared _)).trans
    (State.dropListenerTaps_undisturbed _ p)).trans (marked _)).trans (State.addListener_undisturbed _ stream)

theorem State.inherit_undisturbed (port : Port) (p : Fin 64) : Undisturbed s (s.inherit port p) :=
  (s.passTo_undisturbed p port.other).trans (State.file_undisturbed _ _ _ _ _)

theorem State.unnamed_undisturbed (k : Fin 16) : Undisturbed s (s.unnamed k) := by
  refine Undisturbed.foldl (fun t p => ?_) _ s
  unfold State.loseStream
  dsimp only
  split
  · exact (t.setPos_undisturbed p _).trans (State.fileOwner_undisturbed _ _ _ _ _)
  · exact .refl t

/-- The last steps of RESET PORT empty the port's event store, and file one record. -/
theorem State.resetEnd_undisturbed (port : Port) : Undisturbed s (s.resetEnd port) := by
  have untapped : Undisturbed s (s.removeTapsOwned port) := .of_touches (s.removeTapsOwned_touches port) (by decide)
  have faultless := fun t : State => Undisturbed.of_touches (t.setFault_touches port ⟨none, 0⟩) (by decide)
  have emptied := fun t : State => t.setEvents_undisturbed port (e := EventState.atReset)
    fun _ => ⟨Nat.zero_le 32, Nat.zero_le 65535⟩
  have ports := fun (t : State) x => Undisturbed.of_touches (Touches.of_ports t x) (by decide)
  exact (((untapped.trans (faultless _)).trans (emptied _)).trans (ports _ _)).trans (State.file_undisturbed _ _ _ _ _)

theorem EventState.removeOldest_bounded {e : EventState} (h : e.Bounded) (c : Fin 8) : (e.removeOldest c).Bounded :=
  ⟨Nat.le_trans (dropFirst_length_le _ _) h.1, h.2⟩

theorem State.readEvent_undisturbed (port : Port) : Undisturbed s (s.readEvent port) := by
  unfold State.readEvent
  dsimp only
  split
  · exact (s.setEvents_undisturbed port fun h => EventState.removeOldest_bounded h _).trans (State.answer_undisturbed _ _ _ _)
  · exact s.answer_undisturbed port _ _

/-! ## The highway interface and the canceller (R9, R18, R76) -/

theorem State.headsetChange_undisturbed (a : Fin 64) (detail : Nat) : Undisturbed s (s.headsetChange a detail) := by
  unfold State.headsetChange
  split
  · exact s.fileOwner_undisturbed _ _ _ _
  · exact .refl s

theorem State.expireSlot_undisturbed (a : Fin 64) : Undisturbed s (s.expireSlot a) := by
  have debounced : ∀ d, Undisturbed s (s.setDebounced a d) := fun d => .of_touches (Touches.of_highway s _) (by decide)
  unfold State.expireSlot
  dsimp only
  split
  · exact (debounced _).trans (State.headsetChange_undisturbed _ a _)
  · exact .refl s

theorem State.settleDebounce_undisturbed : Undisturbed s s.settleDebounce :=
  Undisturbed.foldl (fun t a => t.expireSlot_undisturbed a) _ s

theorem State.loseSync_undisturbed (held : Option Nat) (detail : Nat) : Undisturbed s (s.loseSync held detail) :=
  (Undisturbed.of_touches ((Touches.of_highway s _).trans (Touches.of_highway _ _)) (by decide)).trans
    (State.fileBoth_undisturbed _ _ _ _)

theorem State.restoreSync_undisturbed (bit : Nat) : Undisturbed s (s.restoreSync bit) := by
  have lines : Touches [.highway] s (((s.setSync (.locked bit 0)).silencedLines).beginFrame.markFirstFrame) :=
    (((Touches.of_highway s _).trans (Touches.of_highway _ _)).trans (Touches.of_highway _ _)).trans
      (Touches.of_highway _ _)
  exact ((Undisturbed.of_touches lines (by decide)).trans
    (.of_touches (State.setFirstFrames_touches _) (by decide))).trans (State.fileBoth_undisturbed _ _ _ _)

theorem State.pulsed_undisturbed (bit : Nat) : Undisturbed s (s.pulsed bit) := by
  unfold State.pulsed
  split
  · split
    · exact .refl s
    · exact s.loseSync_undisturbed _ _
  · split
    · exact s.restoreSync_undisturbed bit
    · exact .of_touches (Touches.of_highway s _) (by decide)

theorem State.afterEcho_undisturbed (p : Fin 64) (f : EchoFrame) : Undisturbed s (s.afterEcho p f) := by
  have stored := fun (x : Echo) => Undisturbed.of_touches (Touches.of_echo s x) (by decide)
  have counted := fun x y => (stored x).trans (State.setPos_undisturbed _ p y)
  unfold State.afterEcho
  dsimp only
  split
  · exact (counted _ _).trans (State.fileOwner_undisturbed _ _ _ _ _)
  · exact counted _ _

theorem State.echo1_undisturbed (p : Fin 64) : Undisturbed s (s.echo1 p).2 := by
  unfold State.echo1
  split
  · exact s.afterEcho_undisturbed p _
  · exact .refl s

theorem State.echoFrames_undisturbed : Undisturbed s s.echoFrames.2 :=
  Undisturbed.foldl_pair (β := Table 64 Frame) (fun a p => a.2.echo1_undisturbed p) (List.finRange 64)
    (Table.fill 64 Frame.zero, s)

end

end Sys2Proof.Machine
end

section
/-! PROOFS. The arbiter, the players and the completions of memory operations keep every bound and the fetch requests sound
(R126 to R132, R146, R163, R164). -/

namespace Sys2Proof.Machine

/-! ## Requests that wait (R127) -/

section
variable {s t : State}

/-- Requests may leave the queue, and players without a request may change, when what is on the bus is accounted for. -/
theorem FetchesSound.shrunk (h : FetchesSound s) (queue : t.arbiter.queue.Sublist s.arbiter.queue)
    (same : ∀ f ∈ t.arbiter.queue, t.standing f.player = s.standing f.player)
    (onBus : ∀ f, t.arbiter.bus = some (.fetch f) → f.generation = (t.standing f.player).generation →
      (t.standing f.player).awaits = true ∧ ∀ g ∈ t.arbiter.queue, g.player ≠ f.player)
    (idle : t.idleEmpty) : FetchesSound t where
  one x := Nat.le_trans (queue.filter _).length_le (h.one x)
  awaited f member := by
    rw [same f member]
    exact h.awaited f (queue.subset member)
  onBus := onBus
  idle := idle

/-- A player that awaits nothing has no request in the queue. -/
theorem FetchesSound.absent_of_unasked (h : FetchesSound s) {x : PlayerId} (unasked : (s.standing x).awaits = false) :
    ∀ g ∈ s.arbiter.queue, g.player ≠ x := fun g member same => by
  obtain ⟨-, awaits⟩ := h.awaited g member
  rw [same, unasked] at awaits
  exact nomatch awaits

/-- The player of the first request in the queue has no other. -/
theorem FetchesSound.absent_of_first (h : FetchesSound s) {f : Fetch} {rest : List Fetch}
    (queue : s.arbiter.queue = f :: rest) : ∀ g ∈ rest, g.player ≠ f.player := fun g member same => by
  have one := h.one f.player
  have other : g ∈ rest.filter fun g => g.player = f.player := List.mem_filter.mpr ⟨member, decide_eq_true same⟩
  rw [queue, List.filter_cons_of_pos (by simp), List.length_cons] at one
  exact absurd (List.length_pos_of_mem other) (by omega)

/-- A player that awaits nothing may be put in or out of use under its generation (R142, R163, R166). -/
theorem FetchesSound.reseated (h : FetchesSound s) (bus : t.arbiter.bus = s.arbiter.bus)
    (queue : t.arbiter.queue = s.arbiter.queue) {x : PlayerId} (unasked : (s.standing x).awaits = false)
    (generation : (t.standing x).generation = (s.standing x).generation) (apart : ∀ y, y ≠ x → t.standing y = s.standing y)
    (idle : t.idleEmpty) : FetchesSound t := by
  have absent := h.absent_of_unasked unasked
  refine h.shrunk (queue ▸ List.Sublist.refl _) (fun f member => apart _ (absent f (queue ▸ member)))
    (fun f onBus present => ?_) idle
  rw [bus] at onBus
  by_cases same : f.player = x
  · rw [same, generation, ← same] at present
    obtain ⟨awaits, -⟩ := h.onBus f onBus present
    rw [same, unasked] at awaits
    exact nomatch awaits
  · rw [apart _ same] at present ⊢
    rw [queue]
    exact h.onBus f onBus present

/-- A player that awaits nothing places a request (R146, R164). -/
theorem FetchesSound.requested (h : FetchesSound s) {f : Fetch} (bus : t.arbiter.bus = s.arbiter.bus)
    (queue : t.arbiter.queue = s.arbiter.queue ++ [f]) (present : f.generation = (s.standing f.player).generation)
    (unasked : (s.standing f.player).awaits = false)
    (asks : t.standing f.player = { s.standing f.player with awaits := true })
    (apart : ∀ y, y ≠ f.player → t.standing y = s.standing y) (idle : t.idleEmpty) : FetchesSound t := by
  have absent := h.absent_of_unasked unasked
  refine ⟨fun x => ?_, fun g member => ?_, fun g onBus current => ?_, idle⟩
  · rw [queue, List.filter_append]
    by_cases same : f.player = x
    · have none : (s.arbiter.queue.filter fun g => g.player = x) = [] :=
        List.filter_eq_nil_iff.mpr fun g member => by simpa [← same] using absent g member
      rw [none]
      exact List.length_filter_le _ _
    · rw [List.filter_cons_of_neg (by simpa using same), List.filter_nil, List.append_nil]
      exact h.one x
  · rw [queue, List.mem_append, List.mem_singleton] at member
    rcases member with old | rfl
    · rw [apart _ (absent g old)]
      exact h.awaited g old
    · rw [asks]
      exact ⟨present, rfl⟩
  · rw [bus] at onBus
    have apartFrom : g.player ≠ f.player := fun same => by
      rw [same, asks, ← same] at current
      obtain ⟨awaits, -⟩ := h.onBus g onBus current
      rw [same, unasked] at awaits
      exact nomatch awaits
    rw [apart _ apartFrom] at current ⊢
    obtain ⟨awaits, none⟩ := h.onBus g onBus current
    refine ⟨awaits, fun k member => ?_⟩
    rw [queue, List.mem_append, List.mem_singleton] at member
    rcases member with old | rfl
    · exact none k old
    · exact apartFrom.symm

end

/-! ## Players with nothing to come -/

theorem PromptPlayer.awaits_of_empty {x : PromptPlayer} (empty : x.next = .empty) : x.awaits = false := by
  unfold PromptPlayer.awaits
  rw [empty]

theorem Stream.awaits_of_empty {x : Stream} (empty : x.next = .empty) : x.awaits = false := by
  unfold Stream.awaits
  rw [empty]

/-! ## Pages that arrive (R128, R146, R164) -/

/-- From `s` to `t` a page has arrived at a player, or nothing has changed. -/
structure Arrives (x : PlayerId) (s t : State) : Prop where
  inBounds : InBounds s t
  apart : ∀ y, y ≠ x → t.standing y = s.standing y
  idle : s.idleEmpty → t.idleEmpty

theorem Arrives.refl (x : PlayerId) (s : State) : Arrives x s s := ⟨.refl s, fun _ _ => rfl, id⟩

theorem Arrives.undisturbed {x : PlayerId} {s t u : State} (h : Arrives x s t) (k : Undisturbed t u) : Arrives x s u where
  inBounds := h.inBounds.trans k.inBounds
  apart y apart := (congrFun k.alike.standing y).trans (h.apart y apart)
  idle := k.alike.idle ∘ h.idle

section
variable (s : State)

theorem State.streamArrival_arrives (k : Fin 16) (index : Nat) (codes : PageCodes) :
    Arrives (.stream k) s (s.streamArrival k index codes) := by
  unfold State.streamArrival
  dsimp only
  split
  · next i awaited =>
    have filled : ∀ page, Arrives (.stream k) s (s.setStream k { s.stream k with next := .filled page }) := fun page => by
      refine ⟨.of_touches (s.setStream_touches k _) (by decide), fun y apart => ?_,
        State.setStream_idleEmpty fun idle stopped => nomatch awaited.symm.trans (idle stopped)⟩
      rw [State.setStream_standing]
      exact if_neg apart
    split
    · split
      · exact (filled _).undisturbed (State.itemEnd_undisturbed _ k _)
      · exact filled _
    · exact .refl _ s
  · exact .refl _ s

theorem State.promptArrival_arrives (w : Fin 16) (index : Nat) (codes : PageCodes) :
    Arrives (.prompt w) s (s.promptArrival w index codes) := by
  unfold State.promptArrival
  dsimp only
  split
  · next c awaited _ =>
    refine ⟨s.setPlayer_inBounds w _, fun y apart => ?_,
      State.setPlayer_idleEmpty fun idle unassigned => nomatch awaited.symm.trans (idle unassigned)⟩
    rw [State.setPlayer_standing]
    exact if_neg apart
  · exact .refl _ s

theorem State.deliver_arrives (f : Fetch) (codes : PageCodes) : Arrives f.player s (s.deliver f codes) := by
  unfold State.deliver
  split
  · next k player =>
    rw [player]
    split
    · exact s.streamArrival_arrives k _ codes
    · exact .refl _ s
  · next w player =>
    rw [player]
    split
    · exact s.promptArrival_arrives w _ codes
    · exact .refl _ s

theorem State.deliver_stale {f : Fetch} (stale : f.generation ≠ (s.standing f.player).generation) (codes : PageCodes) :
    s.deliver f codes = s := by
  obtain ⟨player, generation, page, index⟩ := f
  cases player with
  | stream k => exact State.deliver_stream_stale fun same => stale same.symm
  | prompt w => exact State.deliver_prompt_stale fun same => stale same.symm

variable {s}

/-- With the bus free, a page is delivered to a player that has no other request. -/
theorem FetchesSound.delivered (h : FetchesSound s) (free : s.arbiter.bus = none) {f : Fetch}
    (absent : f.generation = (s.standing f.player).generation → ∀ g ∈ s.arbiter.queue, g.player ≠ f.player)
    (codes : PageCodes) : FetchesSound (s.deliver f codes) := by
  by_cases current : f.generation = (s.standing f.player).generation
  · have arrives := s.deliver_arrives f codes
    refine h.shrunk (by rw [State.deliver_arbiter]) (fun g member => ?_) (fun g onBus => ?_) (arrives.idle h.idle)
    · rw [State.deliver_arbiter] at member
      exact arrives.apart _ (absent current g member)
    · rw [State.deliver_arbiter, free] at onBus
      exact nomatch onBus
  · rw [State.deliver_stale s current]
    exact h

/-! ## The grant (R126, R129) -/

/-- An operation that is no fetch starts, or the bus is freed. -/
theorem State.setArbiter_steady {x : Arbiter} (badPages : x.badPages = s.arbiter.badPages) (owed : x.owed ≤ s.arbiter.owed)
    (pointer : x.scrubPointer = s.arbiter.scrubPointer) (queue : x.queue = s.arbiter.queue)
    (noFetch : ∀ f, x.bus ≠ some (.fetch f)) : Steady s (s.setArbiter x) where
  inBounds := s.setArbiter_inBounds badPages owed pointer
  sound h := h.shrunk (queue ▸ List.Sublist.refl _) (fun _ _ => rfl) (fun f onBus => absurd onBus (noFetch f)) h.idle

theorem State.startScrub_steady : Steady s s.startScrub :=
  State.setArbiter_steady rfl (Nat.sub_le _ _) rfl rfl fun _ onBus => nomatch onBus

theorem State.freeBus_steady : Steady s s.freeBus :=
  State.setArbiter_steady rfl (Nat.le_refl _) rfl rfl fun _ onBus => nomatch onBus

/-- The first request of the queue is served from silence (R130). -/
theorem State.unqueue_deliver_steady {f : Fetch} {rest : List Fetch} (free : s.arbiter.bus = none)
    (queue : s.arbiter.queue = f :: rest) (codes : PageCodes) : Steady s (s.unqueue.deliver f codes) where
  inBounds := by
    have unqueued : InBounds s s.unqueue := s.setArbiter_inBounds rfl (Nat.le_refl _) rfl
    exact unqueued.trans (s.unqueue.deliver_arrives f codes).inBounds
  sound h := by
    have tail : s.unqueue.arbiter.queue = rest := congrArg List.tail queue
    have unqueued : FetchesSound s.unqueue := h.shrunk (List.tail_sublist _) (fun _ _ => rfl)
      (fun g onBus => nomatch free.symm.trans onBus) h.idle
    exact unqueued.delivered free (fun _ => tail ▸ h.absent_of_first queue) codes

/-- The first request of the queue goes to the bus. -/
theorem State.unqueue_startBus_steady {f : Fetch} {rest : List Fetch} (queue : s.arbiter.queue = f :: rest) :
    Steady s (s.unqueue.startBus (.fetch f)) where
  inBounds := s.setArbiter_inBounds rfl (Nat.le_refl _) rfl
  sound h := by
    have tail : (s.unqueue.startBus (.fetch f)).arbiter.queue = rest := congrArg List.tail queue
    refine h.shrunk (List.tail_sublist _) (fun _ _ => rfl) (fun g onBus current => ?_) h.idle
    cases onBus
    obtain ⟨-, awaits⟩ := h.awaited f (queue ▸ List.mem_cons_self)
    exact ⟨awaits, tail ▸ h.absent_of_first queue⟩

theorem State.grantPort_undisturbed (p : Port) : Undisturbed s (s.grantPort p) :=
  ⟨s.setArbiter_inBounds rfl (Nat.le_refl _) rfl, .of_parts rfl rfl rfl rfl⟩

theorem State.startPort_steady (p q : Port) (op : PortOp) : Steady s ((s.grantPort p).startBus (.port q op)) :=
  s.grantPort_undisturbed p |>.steady.trans (State.setArbiter_steady rfl (Nat.le_refl _) rfl rfl fun _ onBus => nomatch onBus)

theorem State.grant_steady : Steady s s.grant := by
  unfold State.grant
  refine State.grantRounds_keeps (P := Steady s) ?_ ?_ ?_ ?_ ?_ _ s (.refl s)
  · exact fun t h _ => h.trans State.startScrub_steady
  · exact fun t f rest h free queue => h.trans (State.unqueue_deliver_steady free queue _)
  · exact fun t f rest h _ queue => h.trans (State.unqueue_startBus_steady queue)
  · exact fun t p clip index page h _ _ => h.trans ((t.grantPort_undisturbed p).trans (State.answer_undisturbed _ p _ _)).steady
  · exact fun t p op h _ _ => h.trans (State.startPort_steady p p op)

theorem State.admitOp_steady (p : Port) (op : PortOp) : Steady s (s.admitOp p op) := by
  have admitted : Undisturbed s (s.setArbiter { s.arbiter with pendingOps := s.arbiter.pendingOps.put p (some op) }) :=
    ⟨s.setArbiter_inBounds rfl (Nat.le_refl _) rfl, .of_parts rfl rfl rfl rfl⟩
  exact admitted.steady.trans State.grant_steady

/-! ## Requests for a page (R146, R163, R164) -/

/-- A player that awaits nothing places a request. -/
theorem Steady.requestFetch {u : State} {f : Fetch} (inBounds : InBounds s u) (arbiter : u.arbiter = s.arbiter)
    (present : f.generation = (s.standing f.player).generation) (unasked : (s.standing f.player).awaits = false)
    (asks : u.standing f.player = { s.standing f.player with awaits := true })
    (apart : ∀ y, y ≠ f.player → u.standing y = s.standing y) (idle : s.idleEmpty → u.idleEmpty) :
    Steady s (u.requestFetch f) := by
  refine Steady.trans (t := u.setArbiter { u.arbiter with queue := u.arbiter.queue ++ [f] }) ⟨?_, fun h => ?_⟩
    State.grant_steady
  · exact inBounds.trans (u.setArbiter_inBounds rfl (Nat.le_refl _) rfl)
  · have bus : u.arbiter.bus = s.arbiter.bus := congrArg Arbiter.bus arbiter
    have queue : u.arbiter.queue ++ [f] = s.arbiter.queue ++ [f] := congrArg (fun a => a.queue ++ [f]) arbiter
    exact h.requested bus queue present unasked asks apart (idle h.idle)

theorem State.streamRequest_steady (k : Fin 16) : Steady s (s.streamRequest k) := by
  unfold State.streamRequest
  dsimp only
  split
  · next item index running empty cursor =>
    split
    · refine Steady.requestFetch (.of_touches (s.setStream_touches k _) (by decide)) rfl rfl
        (Stream.awaits_of_empty empty) ?_ (fun y apart => ?_)
        (State.setStream_idleEmpty fun _ stopped => nomatch running.symm.trans stopped)
      · rw [State.setStream_standing]
        exact if_pos rfl
      · rw [State.setStream_standing]
        exact if_neg apart
    · exact .refl s
  · exact .refl s

theorem State.promptRequest_steady (w : Fin 16) : Steady s (s.promptRequest w) := by
  unfold State.promptRequest
  dsimp only
  split
  · next index c empty cursor played =>
    obtain ⟨p, e, own, -, -⟩ := State.playedClip_some played
    refine Steady.requestFetch (s.setPlayer_inBounds w _) rfl rfl (PromptPlayer.awaits_of_empty empty) ?_ (fun y apart => ?_)
      (State.setPlayer_idleEmpty fun _ unassigned => nomatch own.symm.trans unassigned)
    · rw [State.setPlayer_standing]
      exact if_pos rfl
    · rw [State.setPlayer_standing]
      exact if_neg apart
  · exact .refl s

/-- A prompt player whose next slot is empty takes another position, or none, under its generation (R163, R166). -/
theorem State.setPlayer_steady (w : Fin 16) (empty : s.idleEmpty → (s.player w).next = .empty) {x : PromptPlayer}
    (generation : x.generation = (s.player w).generation) (still : x.next = .empty) : Steady s (s.setPlayer w x) where
  inBounds := s.setPlayer_inBounds w x
  sound h := by
    refine h.reseated (x := .prompt w) rfl rfl (PromptPlayer.awaits_of_empty (empty h.idle)) ?_ (fun y apart => ?_)
      (State.setPlayer_idleEmpty (fun _ _ => still) h.idle)
    · rw [State.setPlayer_standing]
      exact (congrArg Standing.generation (if_pos rfl)).trans generation
    · rw [State.setPlayer_standing]
      exact if_neg apart

/-- A stream whose next slot is empty takes another owner and playlist under its generation (R142). -/
theorem State.setStream_steady (k : Fin 16) (empty : s.idleEmpty → (s.stream k).next = .empty) {x : Stream}
    (generation : x.generation = (s.stream k).generation) (still : x.next = .empty) : Steady s (s.setStream k x) where
  inBounds := .of_touches (s.setStream_touches k x) (by decide)
  sound h := by
    refine h.reseated (x := .stream k) rfl rfl (Stream.awaits_of_empty (empty h.idle)) ?_ (fun y apart => ?_)
      (State.setStream_idleEmpty (fun _ _ => still) h.idle)
    · rw [State.setStream_standing]
      exact (congrArg Standing.generation (if_pos rfl)).trans generation
    · rw [State.setStream_standing]
      exact if_neg apart

theorem State.assign_steady {w : Fin 16} (free : (s.player w).assigned = none) (p : Fin 64) : Steady s (s.assign w p) := by
  have primed := s.rephase_undisturbed p .priming
  have taken := State.setPlayer_steady (s := s.setQueue p (withHeadPhase .priming (s.queue p))) w
    (x := ⟨some p, (s.player w).generation, .page 0, .empty, none⟩) (fun idle => idle.2 w free) rfl rfl
  exact (primed.steady.trans taken).trans (State.promptRequest_steady w)

theorem State.assignPlayers_steady : Steady s s.assignPlayers :=
  State.assignPlayers_keeps (P := Steady s) (fun _ _ p h free _ => h.trans (State.assign_steady (State.freePlayer_some free) p))
    s (.refl s)

/-! ## Refresh and completions (R128, R130 to R134) -/

theorem State.refreshed_undisturbed : Undisturbed s (s.setArbiter { s.arbiter with owed := min 16 (s.arbiter.owed + 1) }) :=
  ⟨⟨id, id, fun h => ⟨Nat.min_le_left _ _, h.2⟩, id⟩, .of_parts rfl rfl rfl rfl⟩

theorem listedAfter_sound {l : List Nat} (h : l.length ≤ 16 ∧ l.Nodup) (page : Nat) :
    (listedAfter l page).length ≤ 16 ∧ (listedAfter l page).Nodup := by
  obtain ⟨short, once⟩ := h
  unfold listedAfter
  split
  · exact ⟨short, once⟩
  · next unlisted =>
    split
    · next room =>
      refine ⟨by rw [List.length_append, List.length_singleton]; omega, List.Nodup.append once (List.nodup_singleton page) ?_⟩
      exact fun x member other => unlisted (List.mem_singleton.mp other ▸ member)
    · exact ⟨short, once⟩

theorem State.detected_undisturbed (page finder : Nat) : Undisturbed s (s.detected page finder) := by
  have listed : ∀ n, Undisturbed s
      (s.setArbiter { s.arbiter with badPages := listedAfter s.arbiter.badPages page, uncorrectable := n }) := fun n =>
    ⟨⟨id, fun h => listedAfter_sound h page, id, id⟩, .of_parts rfl rfl rfl rfl⟩
  unfold State.detected
  dsimp only
  split
  · exact (listed _).trans (State.fileBoth_undisturbed _ _ _ _)
  · exact ((listed _).trans (State.fileBoth_undisturbed _ _ _ _)).trans (State.fileBoth_undisturbed _ _ _ _)

theorem State.counted_undisturbed (page finder : Nat) : Undisturbed s (s.counted page finder) := by
  unfold State.counted
  split
  · exact State.detected_undisturbed page finder
  · exact ⟨s.setArbiter_inBounds rfl (Nat.le_refl _) rfl, .of_parts rfl rfl rfl rfl⟩

/-- What a read finds, with the bus free. -/
theorem State.struckCounted_undisturbed (page finder : Nat) (upsets : List WordUpset) :
    Undisturbed s ((s.struck page upsets).counted page finder) :=
  (Undisturbed.of_touches (s.struck_touches page upsets) (by decide)).trans (State.counted_undisturbed page finder)

theorem State.fetchCompleted_steady {f : Fetch} (bus : s.arbiter.bus = some (.fetch f)) (upsets : List WordUpset) :
    Steady s (s.fetchCompleted f upsets) := by
  have found := s.freeBus.struckCounted_undisturbed f.page (fetchFinder f.player) upsets
  have freed := State.freeBus_steady (s := s) |>.trans found.steady
  refine Steady.trans ⟨freed.inBounds.trans (State.deliver_arrives _ f _).inBounds, fun h => ?_⟩ State.grant_steady
  refine (freed.sound h).delivered found.alike.bus (fun current => ?_) _
  rw [found.alike.standing] at current
  rw [found.alike.queue]
  exact (h.onBus f bus current).2

theorem State.unlist_undisturbed (page : Nat) : Undisturbed s (s.unlist page) :=
  ⟨⟨id, fun h => ⟨Nat.le_trans (List.length_filter_le _ _) h.1, h.2.filter _⟩, id, id⟩, .of_parts rfl rfl rfl rfl⟩

theorem State.writeNoted_undisturbed (p : Port) (clip : Fin 256) (index : Nat) (noted : Bool) :
    Undisturbed s (s.writeNoted p clip index noted) := by
  have marked := fun x => Undisturbed.of_touches (s.setClip_touches clip x) (by decide)
  unfold State.writeNoted
  dsimp only
  split
  · exact (marked _).trans (State.fileOwner_undisturbed _ _ _ _ _)
  · exact marked _

theorem State.writeCompleted_steady (p : Port) (clip : Fin 256) (index page : Nat) (codes : PageCodes) (noted : Bool) :
    Steady s (s.writeCompleted p clip index page codes noted) := by
  have written := fun m => Undisturbed.of_touches (s.freeBus.setMemory_touches m) (by decide)
  exact (State.freeBus_steady.trans ((((written _).trans (State.unlist_undisturbed page)).trans
    (State.writeNoted_undisturbed p clip index noted)).trans (State.answer_undisturbed _ p _ _)).steady).trans State.grant_steady

theorem State.readCompleted_steady (p : Port) (clip : Fin 256) (index page : Nat) (upsets : List WordUpset) :
    Steady s (s.readCompleted p clip index page upsets) :=
  (State.freeBus_steady.trans ((State.struckCounted_undisturbed page _ upsets).trans
    (State.answer_undisturbed _ p _ _)).steady).trans State.grant_steady

theorem State.scrubPage_undisturbed (page : Nat) (upsets : List WordUpset) : Undisturbed s (s.scrubPage page upsets) := by
  have found := s.struckCounted_undisturbed page 0 upsets
  unfold State.scrubPage
  dsimp only
  split
  · exact .refl s
  · split
    · exact found
    · exact found.trans (.of_touches (State.setMemory_touches _ _) (by decide))

/-- The pointer's next page is one of memory (R132). -/
theorem State.advanceScrub_undisturbed : Undisturbed s s.advanceScrub := by
  rw [State.advanceScrub_eq]
  refine ⟨⟨id, id, fun h => ⟨h.1, fun _ => ?_⟩, id⟩, .of_parts rfl rfl rfl rfl⟩
  show (if s.arbiter.scrubPointer + 1 < s.pageCount then s.arbiter.scrubPointer + 1 else 0) < s.pageCount
  split
  · next further => exact further
  · exact memoryPages_pos s.startUp.memorySize

theorem State.scrubCompleted_steady (upsets : List WordUpset) : Steady s (s.scrubCompleted upsets) :=
  (State.freeBus_steady.trans ((State.scrubPage_undisturbed _ upsets).trans State.advanceScrub_undisturbed).steady).trans
    State.grant_steady

end

end Sys2Proof.Machine
end

section
/-! PROOFS. Frame completions, and the requests that start streams and queue whisper entries, keep every bound and the fetch
requests sound (R4, R142, R143, R146 to R151, R157 to R159, R163 to R166). -/

namespace Sys2Proof.Machine

section
variable (s : State)

/-! ## Streams at a frame completion (R147, R150, R151) -/

/-- A stream that ends has an empty next slot. -/
theorem State.endIfDone_undisturbed (k : Fin 16) : Undisturbed s (s.endIfDone k) := by
  unfold State.endIfDone
  dsimp only
  split
  · refine Undisturbed.trans ?_ (State.fileOwner_undisturbed _ _ _ _ _)
    exact s.setStream_undisturbed k rfl fun _ ended => nomatch ended
  · exact .refl s

theorem State.streamPlay_undisturbed (k : Fin 16) (y : StreamPlaying) : Undisturbed s (s.streamPlay k y).2 := by
  unfold State.streamPlay
  dsimp only
  split
  · exact s.setStream_undisturbed k rfl id
  · refine Undisturbed.trans ?_ (State.endIfDone_undisturbed _ k)
    exact s.setStream_undisturbed k rfl id

theorem State.streamStarve_undisturbed (k : Fin 16) (item : Nat) : Undisturbed s (s.streamStarve k item) := by
  unfold State.streamStarve
  dsimp only
  split
  · exact .refl s
  · generalize starved : s.setStream k _ = t
    have kept : Undisturbed s t := by
      rw [← starved]
      exact s.setStream_undisturbed k rfl id
    split
    · exact kept
    · exact kept.trans (State.fileOwner_undisturbed _ _ _ _ _)

theorem State.streamTake_steady {k : Fin 16} {page : StreamPage} (filled : (s.stream k).next = .filled page) :
    Steady s (s.streamTake k page) := by
  refine Steady.trans (Undisturbed.steady ?_) (State.streamRequest_steady k)
  refine s.setStream_undisturbed k ?_ fun _ _ => rfl
  unfold Stream.standing Stream.awaits
  rw [filled]

theorem State.streamSample_steady (k : Fin 16) : Steady s (s.streamSample k).2 := by
  unfold State.streamSample
  split
  · split
    · exact (s.streamPlay_undisturbed k _).steady
    · split
      · next filled => exact (s.streamTake_steady filled).trans (State.streamPlay_undisturbed _ k _).steady
      · exact (s.streamStarve_undisturbed k _).steady
      · exact (s.endIfDone_undisturbed k).steady
  · exact .refl s
  · exact .refl s

theorem streamSamples_steady (k : Fin 16) (n : Nat) (s : State) : Steady s (State.streamSamples k n s).2 := by
  induction n generalizing s with
  | zero => exact .refl s
  | succ n ih => exact (s.streamSample_steady k).trans (ih _)

theorem State.streamFrame_steady (k : Fin 16) : Steady s (s.streamFrame k).2 := by
  by_cases running : (s.stream k).state = .running
  · rw [State.streamFrame_of_running running]
    dsimp only
    exact streamSamples_steady k 32 s
  · rw [State.streamFrame_of_not_running running]
    exact .refl s

theorem State.streamFrames_steady : Steady s s.streamFrames.2 :=
  Steady.foldl_pair (β := Table 16 Frame) (fun a k => a.2.streamFrame_steady k) (List.finRange 16)
    (Table.fill 16 Frame.zero, s)

/-! ## Whisper frames (R164, R165) -/

theorem State.promptPlay_undisturbed (w : Fin 16) (y : PromptPlaying) : Undisturbed s (s.promptPlay w y).2 :=
  s.setPlayer_undisturbed w rfl id

theorem State.promptTake_steady {w : Fin 16} {page : PromptPage} (filled : (s.player w).next = .filled page) :
    Steady s (s.promptTake w page) := by
  refine Steady.trans (Undisturbed.steady ?_) (State.promptRequest_steady w)
  refine s.setPlayer_undisturbed w ?_ fun _ _ => rfl
  unfold PromptPlayer.standing PromptPlayer.awaits
  rw [filled]

theorem State.whisperSample_steady (p : Fin 64) (w : Fin 16) : Steady s (s.whisperSample p w).2 := by
  unfold State.whisperSample
  split
  · exact (s.promptPlay_undisturbed w _).steady
  · next filled => exact (s.promptTake_steady filled).trans (State.promptPlay_undisturbed _ w _).steady
  · exact (s.setPos_undisturbed p _).steady
  · exact .refl s

theorem whisperSamples_steady (p : Fin 64) (w : Fin 16) (n : Nat) (s : State) :
    Steady s (State.whisperSamples p w n s).2 := by
  induction n generalizing s with
  | zero => exact .refl s
  | succ n ih => exact (s.whisperSample_steady p w).trans (ih _)

theorem State.whisperFrame_steady (p : Fin 64) : Steady s (s.whisperFrame p).2 := by
  cases player : s.playerOf p with
  | none =>
    rw [State.whisperFrame_of_unheld player]
    exact .refl s
  | some w =>
    by_cases sounds : s.sounding p = true
    · rw [State.whisperFrame_of_sounding player sounds]
      dsimp only
      exact whisperSamples_steady p w 32 s
    · rw [State.whisperFrame_of_silent (Bool.eq_false_iff.mpr sounds)]
      exact .refl s

theorem State.whisperFrames_steady : Steady s s.whisperFrames.2 :=
  Steady.foldl_pair (β := Table 64 Frame) (fun a p => a.2.whisperFrame_steady p) (List.finRange 64)
    (Table.fill 64 Frame.zero, s)

/-! ## Entries that end (R166) -/

variable {s}

/-- The player of an ended entry awaits nothing, and becomes free under its generation. -/
theorem State.entryDone_steady {p : Fin 64} {w : Fin 16} {e : Entry} {rest : List Entry} (queue : s.queue p = e :: rest)
    (empty : (s.player w).next = .empty) : Steady s (s.entryDone p w e rest) := by
  have left : Undisturbed s (s.setQueue p rest) :=
    s.setQueue_undisturbed p (.inr (by rw [queue]; exact Nat.le_succ _))
  have returned := fun x => left.trans (.of_touches (State.setClip_touches (s.setQueue p rest) e.clip x) (by decide))
  have freed := fun x => (returned x).steady.trans (State.setPlayer_steady (s := (s.setQueue p rest).setClip e.clip x) w
    (x := ⟨none, (s.player w).generation, .absent, .empty, none⟩) (fun _ => empty) rfl rfl)
  exact (freed _).trans (State.file_undisturbed _ _ _ _ _).steady

theorem State.completeHead_steady (s : State) (p : Fin 64) : Steady s (s.completeHead p) := by
  cases queue : s.queue p with
  | nil =>
    have idle : s.completeHead p = s := by unfold State.completeHead; rw [queue]; rfl
    rw [idle]
    exact .refl s
  | cons e rest =>
    cases player : s.playerOf p with
    | none =>
      have idle : s.completeHead p = s := by unfold State.completeHead; rw [queue, player]; rfl
      rw [idle]
      exact .refl s
    | some w =>
      rw [State.completeHead_eq player queue, State.completeEntry_eq queue]
      split
      · next finished =>
        obtain ⟨-, -, empty, -⟩ := finished
        refine Steady.trans ?_ State.assignPlayers_steady
        split
        · exact (State.entryDone_steady queue empty).trans (State.announceEnded_undisturbed _ p false).steady
        · exact State.entryDone_steady queue empty
      · exact .refl s

/-! ## Frame completions (R4) -/

theorem State.framed_steady (s : State) : Steady s s.framed := by
  have echo : Undisturbed s s.stamped.echoFrames.2.suppressFrames :=
    ((Undisturbed.of_touches (Touches.of_highway s _) (by decide) : Undisturbed s s.stamped).trans
      (State.echoFrames_undisturbed _)).trans (.of_touches (State.suppressFrames_touches _) (by decide))
  have whisper : Steady s s.preMix :=
    ((echo.steady.trans (State.streamFrames_steady _)).trans (State.soundHeads_undisturbed _).steady).trans
      (State.whisperFrames_steady _)
  have ducked := Undisturbed.of_touches s.preMix.updateCoachDuck_touches (by decide)
  have mixed := fun m => ducked.trans (.of_touches (State.mix_touches s.preMix.updateCoachDuck m) (by decide))
  exact whisper.trans ((mixed _).trans
    (.of_touches ((State.beginFrame_touches _).trans (State.pastFirstFrame_touches _)) (by decide))).steady

theorem State.settle_steady (s : State) : Steady s s.settle := by
  have debounced : Steady s s.settleDebounce := s.settleDebounce_undisturbed.steady
  unfold State.settle State.settleFrame
  split
  · rw [State.completeFrame_eq]
    exact (debounced.trans (State.framed_steady _)).trans (Steady.foldl State.completeHead_steady _ _)
  · exact debounced

/-! ## START STREAM and LOAD STREAM (R142, R143) -/

theorem State.startAccepted_eq (s : State) (p : Port) (k : Fin 16) (l : Playlist) :
    s.startAccepted p k l = ((s.begun p k l).streamRequest k).answer p .ok [] := by
  unfold State.startAccepted State.begun
  dsimp only
  rw [State.acceptItems_stream]

/-- A stopped stream starts with nothing to come, under its generation. -/
theorem State.begun_steady {k : Fin 16} (stopped : (s.stream k).state = .stopped) (p : Port) (l : Playlist) :
    Steady s (s.begun p k l) := by
  have accepted := s.acceptItems_undisturbed p l.items
  have same : (s.acceptItems p l.items).stream k = s.stream k := congrFun (State.acceptItems_stream s p l.items) k
  exact accepted.steady.trans (State.setStream_steady k (fun idle => idle.1 k (by rw [same]; exact stopped))
    (by rw [same]; rfl) rfl)

theorem State.startAccepted_steady {k : Fin 16} (stopped : (s.stream k).state = .stopped) (p : Port) (l : Playlist) :
    Steady s (s.startAccepted p k l) := by
  rw [State.startAccepted_eq]
  exact ((State.begun_steady stopped p l).trans (State.streamRequest_steady k)).trans (State.answer_undisturbed _ p _ _).steady

/-- A list that LOAD STREAM brings changes neither the stream's generation nor its next slot. -/
theorem State.loaded_undisturbed {k : Fin 16} (going : (s.stream k).state ≠ .stopped) (p : Port) (l : Playlist) :
    Undisturbed s (s.loaded p k l) := by
  have traded : ∀ given, Undisturbed s (s.traded p l given) := fun given =>
    (s.acceptItems_undisturbed p l.items).trans (State.dropPlays_undisturbed _ given)
  have same : ∀ given, (s.traded p l given).stream k = s.stream k := fun given => by
    unfold State.traded
    rw [State.dropPlays_stream]
    exact congrFun (State.acceptItems_stream s p l.items) k
  have staged : Undisturbed s (s.stagedOn p k l) := (traded _).trans
    (State.setStream_undisturbed _ k (by rw [same]; rfl) fun _ stopped => absurd stopped going)
  unfold State.loaded
  split
  · exact (traded _).trans (State.setStream_undisturbed _ k (by rw [same]; rfl) fun _ running => nomatch running)
  · split
    · exact staged.trans (State.switch_undisturbed _ k _)
    · exact staged

theorem State.loadAccepted_steady {k : Fin 16} (going : (s.stream k).state ≠ .stopped) (p : Port) (l : Playlist) :
    Steady s (s.loadAccepted p k l) := by
  have loaded : Steady s (s.loaded p k l) := (State.loaded_undisturbed going p l).steady
  obtain same | same := State.loadAccepted_eq going p l <;> rw [same]
  · exact loaded.trans (State.answer_undisturbed _ p _ _).steady
  · exact (loaded.trans (State.streamRequest_steady k)).trans (State.answer_undisturbed _ p _ _).steady

/-! ## WHISPER and CONNECT with a prompt (R157 to R159) -/

theorem placeAnnounce_length (e : Entry) (q : List Entry) : (placeAnnounce e q).length = q.length + 1 := by
  unfold placeAnnounce
  split
  · rfl
  · split
    · rfl
    · rfl

/-- An entry joins a queue of fewer than four. -/
theorem State.queueEntry_steady {p : Fin 64} (room : (s.queue p).length < 4) {e : Entry} {place : List Entry → List Entry}
    (placed : place = (fun q => q ++ [e]) ∨ place = placeAnnounce e) (port : Port) :
    Steady s (s.queueEntry p port e place) := by
  have longer : (place (s.queue p)).length = (s.queue p).length + 1 := by
    rcases placed with rfl | rfl
    · exact List.length_append
    · exact placeAnnounce_length e _
  rw [State.queueEntry_eq]
  exact (s.enqueued_undisturbed p port e (by omega)).steady.trans State.assignPlayers_steady

theorem State.connectPrompt_steady {p : Fin 64} (room : (s.queue p).length < 4) (port : Port) (t : Fin 64) (c : Fin 256)
    (gain : Half) (stream : Option (Fin 16)) : Steady s (s.connectPrompt port p t c gain stream) := by
  have connected := s.connecting_undisturbed p t .announce stream
  have still : ((s.connecting p t .announce stream).queue p).length < 4 := by
    rw [State.queue_of_whisper (s.connecting_whisper p t .announce stream)]
    exact room
  have queued := State.queueEntry_steady still
    (e := (s.connecting p t .announce stream).newEntry c gain port .announce) (.inr rfl) port
  exact (connected.steady.trans queued).trans (State.answer_undisturbed _ port _ _).steady

end

end Sys2Proof.Machine
end

section
/-! PROOFS. Closures, releases, cancellations, stops and port resets withdraw requests under a new generation, and keep the
fetch requests sound as long as none comes round to that of an older fetch on the bus (R25, R30, R127, R140, R144, R160, R161,
R162, R176). -/

namespace Sys2Proof.Machine

/-! ## Withdrawals -/

/-- A player put out of use under its next generation. -/
def Standing.withdrawn (x : Standing) : Standing := ⟨x.generation + 1, false, false⟩

/-- From `s` to `t` some players that were in use are withdrawn, each with its request; the bus is left alone. -/
structure Withdraws (s t : State) : Prop where
  inBounds : InBounds s t
  bus : t.arbiter.bus = s.arbiter.bus
  queue : t.arbiter.queue.Sublist s.arbiter.queue
  players : ∀ x, t.standing x = s.standing x
    ∨ (s.standing x).inUse = true ∧ t.standing x = (s.standing x).withdrawn ∧ ∀ g ∈ t.arbiter.queue, g.player ≠ x
  idle : s.idleEmpty → t.idleEmpty

section
variable {s t u : State}

theorem Undisturbed.withdraws (h : Undisturbed s t) : Withdraws s t where
  inBounds := h.inBounds
  bus := h.alike.bus
  queue := h.alike.queue ▸ List.Sublist.refl _
  players x := .inl (congrFun h.alike.standing x)
  idle := h.alike.idle

theorem Withdraws.refl (s : State) : Withdraws s s := (Undisturbed.refl s).withdraws

/-- A player that is withdrawn is not in use, so it is not withdrawn again. -/
theorem Withdraws.trans (h : Withdraws s t) (k : Withdraws t u) : Withdraws s u where
  inBounds := h.inBounds.trans k.inBounds
  bus := k.bus.trans h.bus
  queue := k.queue.trans h.queue
  players x := by
    rcases h.players x, k.players x with ⟨same | ⟨inUse, withdrawn, gone⟩, same' | ⟨inUse', withdrawn', gone'⟩⟩
    · exact .inl (same'.trans same)
    · rw [same] at inUse' withdrawn'
      exact .inr ⟨inUse', withdrawn', gone'⟩
    · exact .inr ⟨inUse, same'.trans withdrawn, fun g member => gone g (k.queue.subset member)⟩
    · rw [withdrawn] at inUse'
      exact nomatch inUse'
  idle := k.idle ∘ h.idle

theorem Withdraws.foldl {α : Type} {f : State → α → State} (each : ∀ s x, Withdraws s (f s x)) (l : List α) (s : State) :
    Withdraws s (l.foldl f s) := foldl_keeps (P := Withdraws s) (fun t x h => h.trans (each t x)) l s (.refl s)

/-- A player in use is withdrawn, and then its request. -/
theorem Withdraws.cancelFetch {x : PlayerId} (inBounds : InBounds s u) (arbiter : u.arbiter = s.arbiter)
    (inUse : (s.standing x).inUse = true) (withdrawn : u.standing x = (s.standing x).withdrawn)
    (apart : ∀ y, y ≠ x → u.standing y = s.standing y) (idle : s.idleEmpty → u.idleEmpty) :
    Withdraws s (u.cancelFetch x) where
  inBounds := by
    have cancelled : InBounds u (u.cancelFetch x) := u.setArbiter_inBounds rfl (Nat.le_refl _) rfl
    exact inBounds.trans cancelled
  bus := by
    show u.arbiter.bus = _
    rw [arbiter]
  queue := by
    show (u.arbiter.queue.filter _).Sublist _
    rw [arbiter]
    exact List.filter_sublist
  players y := by
    by_cases same : y = x
    · subst same
      exact .inr ⟨inUse, withdrawn, fun g member => by simpa using (List.mem_filter.mp member).2⟩
    · exact .inl (apart y same)
  idle := idle

theorem Half.succ_ne (g : Half) : g + 1 ≠ g := fun same => by simp at same

/-- Withdrawn players await nothing; the others are as before, and a fetch on the bus of a withdrawn player's new generation
would be one that had come round. -/
theorem Withdraws.sound (h : Withdraws s t) (sound : FetchesSound s) (apart : noneComesRound s t) : FetchesSound t := by
  refine sound.shrunk h.queue (fun f member => ?_) (fun f onBus current => ?_) (h.idle sound.idle)
  · rcases h.players f.player with same | ⟨-, -, gone⟩
    · exact same
    · exact absurd rfl (gone f member)
  · have before := h.bus.symm.trans onBus
    have present := apart f before onBus (by rw [State.generationOf_eq]; exact current.symm)
    rw [State.generationOf_eq] at present
    rcases h.players f.player with same | ⟨-, withdrawn, -⟩
    · rw [same]
      obtain ⟨awaits, none⟩ := sound.onBus f before present.symm
      exact ⟨awaits, fun g member => none g (h.queue.subset member)⟩
    · rw [withdrawn] at current
      exact absurd (current.symm.trans present.symm) (Half.succ_ne _)

end

/-! ## What follows a withdrawal -/

/-- From `s` to `t` no generation rises, and an operation on the bus stays there. -/
structure Settled (s t : State) : Prop where
  generation : ∀ x, (t.standing x).generation = (s.standing x).generation
  bus : ∀ op, s.arbiter.bus = some op → t.arbiter.bus = some op

section
variable {s t u : State}

theorem Settled.trans (h : Settled s t) (k : Settled t u) : Settled s u :=
  ⟨fun x => (k.generation x).trans (h.generation x), fun op busy => k.bus op (h.bus op busy)⟩

theorem Undisturbed.settled (h : Undisturbed s t) : Settled s t :=
  ⟨fun x => congrArg Standing.generation (congrFun h.alike.standing x), fun _ busy => h.alike.bus.trans busy⟩

/-- The assignment of players raises no generation, and cannot start an operation on a busy bus (R124, R163). -/
theorem State.assignPlayers_settled (s : State) : Settled s s.assignPlayers where
  generation x := by
    cases x with
    | stream k => exact (s.assignPlayers_stream k).generation
    | prompt v =>
      refine State.assignPlayers_keeps (P := fun t => (t.player v).generation = (s.player v).generation)
        (fun t w p h _ _ => Eq.trans ?_ h) s rfl
      unfold State.assign
      rw [(State.promptRequest_player _ w v).generation, State.setPlayer_player]
      split
      · next same => rw [← same]
      · rfl
  bus op busy := by
    refine State.assignPlayers_keeps_of (P := fun t => t.arbiter.bus = some op) (fun _ _ _ h => h) (fun _ _ _ h => h)
      (fun _ _ h => h) (fun t h => ?_) busy
    rw [State.grant_of_busy (by rw [h]; exact nofun)]
    exact h

theorem Settled.noneComesRound (h : Settled u t) (apart : noneComesRound s t) : noneComesRound s u := by
  intro f before onBus round
  refine apart f before (h.bus _ onBus) ?_
  rw [State.generationOf_eq] at round ⊢
  exact (h.generation f.player).trans round

end

/-! ## What every command keeps -/

/-- From `s` to `t` every bound is kept, and fetch requests stay sound when no generation comes round. -/
structure BooksKept (s t : State) : Prop where
  inBounds : InBounds s t
  sound : FetchesSound s → noneComesRound s t → FetchesSound t

section
variable {s t u : State}

theorem Steady.kept (h : Steady s t) : BooksKept s t := ⟨h.inBounds, fun sound _ => h.sound sound⟩

theorem Undisturbed.kept (h : Undisturbed s t) : BooksKept s t := h.steady.kept

theorem Undisturbed.trans_kept (h : Undisturbed s u) (k : BooksKept u t) : BooksKept s t := by
  refine ⟨h.inBounds.trans k.inBounds, fun sound apart => k.sound (h.alike.sound sound) fun f before onBus round => ?_⟩
  rw [State.generationOf_eq, h.alike.standing, ← State.generationOf_eq]
  exact apart f (h.alike.bus.symm.trans before) onBus round

theorem Withdraws.kept (h : Withdraws s u) (k : Steady u t) (settled : Settled u t) : BooksKept s t :=
  ⟨h.inBounds.trans k.inBounds, fun sound apart => k.sound (h.sound sound (settled.noneComesRound apart))⟩

/-- The last steps of a request that withdraws players: others are assigned, and what follows disturbs nothing. -/
theorem Withdraws.kept_assigned (h : Withdraws s u) (k : Undisturbed u.assignPlayers t) : BooksKept s t :=
  h.kept (State.assignPlayers_steady.trans k.steady) (u.assignPlayers_settled.trans k.settled)

end

/-! ## Flushes (R161) -/

section
variable (s : State)

theorem State.flushPlayer_withdraws (p : Fin 64) : Withdraws s (s.flushPlayer p) := by
  unfold State.flushPlayer
  split
  · next w player =>
    have own := State.playerOf_some player
    refine Withdraws.cancelFetch (s.setPlayer_inBounds w _) rfl ?_ ?_ (fun y apart => ?_)
      (State.setPlayer_idleEmpty fun _ _ => rfl)
    · show (s.player w).assigned.isSome = true
      rw [own]
      rfl
    · rw [State.setPlayer_standing]
      exact if_pos rfl
    · rw [State.setPlayer_standing]
      exact if_neg apart
  · exact .refl s

theorem State.flushed_withdraws (p : Fin 64) (cause : FlushCause) (e : Entry) : Withdraws s (s.flushed p cause e) := by
  have returned : Withdraws s (s.dropPlay e.clip) :=
    (Undisturbed.of_touches (s.dropPlay_touches e.clip) (by decide)).withdraws
  have flushed : Withdraws s (if e.phase = .waiting then s.dropPlay e.clip else (s.dropPlay e.clip).flushPlayer p) := by
    split
    · exact returned
    · exact returned.trans (State.flushPlayer_withdraws _ p)
  have filed := fun k o d => flushed.trans (State.file_undisturbed _ e.origin k o d).withdraws
  unfold State.flushed
  dsimp only
  split
  · exact (filed _ _ _).trans (State.announceEnded_undisturbed _ p true).withdraws
  · exact filed _ _ _

theorem State.flush_withdraws (p : Fin 64) (cause : FlushCause) (chosen : Entry → Bool) :
    Withdraws s (s.flush p cause chosen) := by
  refine State.flush_keeps (P := Withdraws s) s p cause chosen ?_ fun t e h => h.trans (t.flushed_withdraws p cause e)
  exact (s.setQueue_undisturbed p (.inr (List.length_filter_le _ _))).withdraws

/-! ## Releases, closures and stops (R25, R30, R144) -/

theorem State.releasing_withdraws {cause : FlushCause} (other : cause ≠ .cancel) (p : Fin 64) :
    Withdraws s (s.releasing p cause) := by
  rw [State.releasing_eq other]
  refine Withdraws.trans ?_ (State.setPos_undisturbed _ p _).withdraws
  refine Withdraws.trans ?_ (Undisturbed.of_touches (State.unbindTrunk_touches _ _) (by decide)).withdraws
  refine Withdraws.trans ?_ (State.dropListener_undisturbed _ _).withdraws
  have flushed : Withdraws s (s.flush p cause fun _ => true) := s.flush_withdraws p cause _
  split
  · exact flushed.trans (State.fileOwner_undisturbed _ _ _ _ _).withdraws
  · exact flushed

theorem State.closeRecord_undisturbed (p : Fin 64) : Undisturbed s (s.closeRecord p) := by
  unfold State.closeRecord
  dsimp only
  split
  · exact (s.setPos_undisturbed p _).trans (State.fileOwner_undisturbed _ _ _ _ _)
  · exact s.setPos_undisturbed p _

theorem State.closing_withdraws (p : Fin 64) (cause : FlushCause) : Withdraws s (s.closing p cause) := by
  have shortened := fun t : State => Undisturbed.of_touches (t.keepSegments_touches p 0) (by decide)
  have unbound := fun (t : State) a => Undisturbed.of_touches (t.unbindAgent_touches a) (by decide)
  have closed := fun t : State => (t.closeRecord_undisturbed p).trans
    (.of_touches (State.closeBlocks_touches _ p) (by decide))
  exact (s.flush_withdraws p cause _).trans
    ((((State.dropTapsOf_undisturbed _ p).trans (shortened _)).trans (unbound _ _)).trans (closed _)).withdraws

variable {s}

theorem State.stopStream_withdrawn {k : Fin 16} (owned : (s.stream k).owner.isSome = true) : Withdraws s (s.stopStream k) := by
  have dropped : Undisturbed s ((s.dropPlays (s.stream k).staged).dropPlays (s.stream k).current) :=
    (s.dropPlays_undisturbed _).trans (State.dropPlays_undisturbed _ _)
  have same : ((s.dropPlays (s.stream k).staged).dropPlays (s.stream k).current).stream k = s.stream k := by
    rw [State.dropPlays_stream, State.dropPlays_stream]
  refine dropped.withdraws.trans (Withdraws.cancelFetch (.of_touches (State.setStream_touches _ k _) (by decide)) rfl ?_ ?_
    (fun y apart => ?_) (State.setStream_idleEmpty fun _ _ => rfl))
  · show (State.stream _ k).owner.isSome = true
    rw [same]
    exact owned
  · rw [State.setStream_standing]
    refine (if_pos rfl).trans ?_
    show _ = (State.stream _ k).standing.withdrawn
    rw [same]
    rfl
  · rw [State.setStream_standing]
    exact if_neg apart

/-! ## RESET PORT (R41, R42, R156, R161, R176) -/

theorem State.tearDown_withdraws (s : State) (p : Fin 64) : Withdraws s (s.tearDown p) :=
  State.tearDown_keeps (P := Withdraws s) (fun t q h => h.trans (t.releasing_withdraws (by decide) q))
    (fun t q h => h.trans (t.closing_withdraws q .portReset)) (.refl s) p

theorem State.resetPositions_withdraws (s : State) (port : Port) : Withdraws s (s.resetPositions port) := by
  rw [State.resetPositions_eq]
  have handed : Undisturbed s (s.handedOver port) := Undisturbed.foldl (fun t p => t.inherit_undisturbed port p) _ s
  have cleared := handed.trans (.of_touches (State.clearOffersTo_touches _ port) (by decide))
  exact cleared.withdraws.trans (Withdraws.foldl State.tearDown_withdraws _ _)

theorem State.resetStream_withdraws {k : Fin 16} (owned : (s.stream k).owner.isSome = true) :
    Withdraws s (s.resetStream k) := by
  rw [State.resetStream_eq]
  have unheard : ∀ t : State, Undisturbed t (t.setStream k { t.stream k with listeners := 0 }) := fun t =>
    t.setStream_undisturbed k rfl id
  refine ((s.unnamed_undisturbed k).trans (unheard _)).withdraws.trans (State.stopStream_withdrawn ?_)
  rw [State.setStream_stream, if_pos rfl, State.unnamed_stream]
  exact owned

/-- Streams that have owners are stopped one after another. -/
theorem resetStreams_withdraws {l : List (Fin 16)} (once : l.Nodup) {s : State}
    (owned : ∀ k ∈ l, (s.stream k).owner.isSome = true) : Withdraws s (l.foldl State.resetStream s) := by
  induction l generalizing s with
  | nil => exact .refl s
  | cons k l ih =>
    obtain ⟨absent, once⟩ := List.nodup_cons.mp once
    have others : ∀ j ∈ l, ((s.resetStream k).stream j).owner.isSome = true := fun j member => by
      have apart : k ≠ j := fun same => absent (same ▸ member)
      rw [State.resetStream_stream, if_neg apart]
      exact owned j (List.mem_cons_of_mem k member)
    rw [List.foldl_cons]
    exact (State.resetStream_withdraws (owned k List.mem_cons_self)).trans (ih once others)

theorem State.tornDown_withdraws (s : State) (port : Port) : Withdraws s (s.tornDown port) := by
  have positions := s.resetPositions_withdraws port
  have streams : Withdraws (s.resetPositions port) ((s.resetPositions port).resetStreams port) :=
    resetStreams_withdraws (State.streamsOf_nodup _ port) fun k member => by
      rw [((s.resetPositions port).mem_streamsOf port k).mp member]
      rfl
  exact (positions.trans streams).trans (Withdraws.foldl (fun t p => t.flush_withdraws p .portReset _) _ _)

theorem State.resetTeardown_booksKept (s : State) (port : Port) (status : Status) (payload : List Byte) :
    BooksKept s ((s.resetTeardown port).answer port status payload) := by
  rw [State.resetTeardown_eq_tornDown]
  exact (s.tornDown_withdraws port).kept_assigned
    ((State.resetEnd_undisturbed _ port).trans (State.answer_undisturbed _ port _ _))

end

end Sys2Proof.Machine
end

section
/-! PROOFS. Every step keeps event stores, the bad-page list, the refresh count, the scrub pointer, the whisper queues and the
fetch requests within their bounds (R127, R131, R132, R134, R157, R182). -/

namespace Sys2Proof.Machine

/-! ## The shared forms of a request -/

theorem BooksKept.of_request {s t : State} {p : Port} {code : Byte} {body : State → State}
    (h : (Host.Outcome.next (s.request p code body) : Host.Outcome State Fault Refusal) = .next t)
    (kept : ∀ u, BooksKept u (body u)) : BooksKept s t := by
  cases h
  have ports : ∀ x, Undisturbed s { s with ports := x } := fun x => .of_touches (Touches.of_ports s x) (by decide)
  exact State.request_keeps (P := BooksKept s) (Undisturbed.refl s).kept (fun x => (ports x).kept)
    fun _ => (ports _).trans_kept (kept _)

section
variable {s : State}

theorem State.refuse_booksKept (p : Port) (status : Status) : BooksKept s (s.refuse p status) :=
  (s.answer_undisturbed p status []).kept

theorem State.withNumber_booksKept {n : Nat} {p : Port} {b : Byte} {body : Fin n → State → State}
    (found : ∀ i, BooksKept s (body i s)) : BooksKept s (s.withNumber p b body) :=
  State.withNumber_keeps (State.refuse_booksKept p) found

theorem State.checked_booksKept {p : Port} {checks : List (Bool × Status)} {effect : State → State}
    (passed : (∀ c ∈ checks, c.1 = false) → BooksKept s (effect s)) : BooksKept s (s.checked p checks effect) :=
  State.checked_keeps (State.refuse_booksKept p) fun h => passed (firstRefusal_eq_none.mp h)

theorem State.refuseFault_booksKept (p : Port) (kinds : FaultKinds) (c : Fin 256) (i : Option Nat) (code : Byte) :
    BooksKept s (s.refuseFault p kinds c i code) :=
  (Undisturbed.of_touches (s.refuseFault_touches p kinds c i code) (by decide)).kept

theorem State.checkItems_booksKept {p : Port} {code : Byte} {items : List Item} {effect : State → State}
    (passed : BooksKept s (effect s)) : BooksKept s (s.checkItems p code items effect) := by
  unfold State.checkItems
  split
  · exact State.refuseFault_booksKept p _ _ _ code
  · split
    · exact State.refuse_booksKept p _
    · exact passed

theorem State.checkEntry_booksKept {port : Port} {code : Byte} {p : Fin 64} {c : Fin 256} {effect : State → State}
    (passed : (s.queue p).length < 4 → BooksKept s (effect s)) : BooksKept s (s.checkEntry port code p c effect) := by
  unfold State.checkEntry
  split
  · exact State.refuse_booksKept port _
  · next room => exact State.checkItems_booksKept (passed (Nat.lt_of_not_le room))

theorem Undisturbed.answered {t : State} (h : Undisturbed s t) (p : Port) (status : Status) (payload : List Byte) :
    BooksKept s (t.answer p status payload) := (h.trans (t.answer_undisturbed p status payload)).kept

theorem Steady.answered {t : State} (h : Steady s t) (p : Port) (status : Status) (payload : List Byte) :
    BooksKept s (t.answer p status payload) := (h.trans (t.answer_undisturbed p status payload).steady).kept

theorem State.addTapAccepted_booksKept (port : Port) (x : Tap) : BooksKept s (s.addTapAccepted port x) := by
  unfold State.addTapAccepted
  split
  · next t _ =>
    have placed := s.setTap_undisturbed t (some x)
    refine Undisturbed.answered ?_ port _ _
    split
    · exact placed.trans (State.file_undisturbed _ _ _ _ _)
    · exact placed
  · exact (Undisturbed.refl s).kept

/-- A request that withdraws players and then assigns others. -/
theorem Withdraws.assigned_answered {t : State} (h : Withdraws s t) (p : Port) (status : Status) (payload : List Byte) :
    BooksKept s (t.assignPlayers.answer p status payload) := h.kept_assigned (State.answer_undisturbed _ p status payload)

/-! ## Commands that are no requests -/

/-- Pin reset leaves every bookkeeping value at its start. -/
theorem State.pinReset_booksKept (pending : List Instr) (freeCount : Nat) :
    BooksKept s { State.reset with pending := pending, freeCount := freeCount } where
  inBounds := ⟨fun _ => reset_storesBounded, fun _ => ⟨Nat.zero_le 16, List.nodup_nil⟩,
    fun _ => ⟨Nat.zero_le 16, fun running => nomatch running⟩, fun _ => reset_queuesBounded⟩
  sound _ _ := (State.fetchesSound_iff _).mp reset_fetchesSound

theorem State.startUpShifted_booksKept (word : Half) :
    BooksKept s { s.bothReady with phase := .preparing, startUp := startUpOf word } where
  inBounds := ⟨id, id, fun h => ⟨h.1, fun running => nomatch running⟩, id⟩
  sound h _ := by
    have alike : FetchesAlike s { s.bothReady with phase := .preparing, startUp := startUpOf word } := .of_parts rfl rfl rfl rfl
    exact alike.sound h

/-- Memory preparation empties the fetch queue and the bus, and puts the scrub pointer on page 0. -/
theorem State.prepared_booksKept (memory : Memory) (highway : Highway) :
    BooksKept s { s with phase := .running, arbiter := Arbiter.atReset, memory := memory, highway := highway } where
  inBounds := ⟨id, fun _ => ⟨Nat.zero_le 16, List.nodup_nil⟩,
    fun _ => ⟨Nat.zero_le 16, fun _ => memoryPages_pos s.startUp.memorySize⟩, id⟩
  sound h _ := h.shrunk (List.nil_sublist _) (fun _ member => nomatch member) (fun _ onBus => nomatch onBus) h.idle

end

/-! ## Every command -/

theorem exec_position_booksKept {c : Instr} {s t : State} (h : exec c s = .next t)
    (spared : ¬∀ x ∈ bookParts, x ∉ commandParts c) (position : .positions ∈ commandParts c) : BooksKept s t := by
  cases c with
  | pinReset =>
    cases h
    exact State.pinReset_booksKept s.pending s.freeCount
  | cycle trunkRx agentRx agentSig =>
    obtain e | ⟨-, e⟩ := cycle_next h <;> rw [e]
    · exact (Undisturbed.refl s).kept
    · exact (s.settle_steady.trans (Undisturbed.of_touches (State.cycled_touches _ _ _ _) (by decide)).steady).kept
  | frameCompletion =>
    cases h
    split
    · exact s.settle_steady.kept
    · exact (Undisturbed.refl s).kept
  | syncLossMissingPulse =>
    obtain e | e := syncLossMissingPulse_next h <;> rw [e]
    · exact (Undisturbed.refl s).kept
    · exact (s.settle_steady.trans (State.loseSync_undisturbed _ _ _).steady).kept
  | fsPulse bit =>
    obtain e | ⟨-, e⟩ := fsPulse_next h <;> rw [e]
    · exact (Undisturbed.refl s).kept
    · exact (s.settle_steady.trans (State.pulsed_undisturbed _ bit).steady).kept
  | resetPort port => exact BooksKept.of_request h fun u => u.resetTeardown_booksKept port _ _
  | closePosition port position =>
    exact BooksKept.of_request h fun u => State.withNumber_booksKept fun p => State.checked_booksKept fun _ =>
      (u.closing_withdraws p .close).assigned_answered port _ _
  | connect port position trunk prompt stream =>
    refine BooksKept.of_request h fun u => ?_
    split
    · refine State.checked_booksKept fun _ => ?_
      cases prompt with
      | none => exact (u.connecting_undisturbed _ _ _ _).answered port _ _
      | some x => exact State.checkEntry_booksKept fun room => (State.connectPrompt_steady room port _ _ _ _).kept
    · exact State.refuse_booksKept port _
  | hold port position stream =>
    refine BooksKept.of_request h fun u => ?_
    split
    · exact State.checked_booksKept fun _ => (((u.setPos_undisturbed _ _).trans (State.dropListener_undisturbed _ _)).trans
        (State.addListener_undisturbed _ _)).answered port _ _
    · exact State.refuse_booksKept port _
  | retrieve port position =>
    refine BooksKept.of_request h fun u => State.withNumber_booksKept fun p => State.checked_booksKept fun _ => ?_
    unfold State.retrieveAccepted
    dsimp only
    split
    · exact (u.setPos_undisturbed p _).answered port _ _
    · exact ((u.setPos_undisturbed p _).trans (State.dropListener_undisturbed _ _)).answered port _ _
  | release port position =>
    exact BooksKept.of_request h fun u => State.withNumber_booksKept fun p => State.checked_booksKept fun _ =>
      (u.releasing_withdraws (by decide) p).assigned_answered port _ _
  | offerPositionOffer port position choice =>
    exact BooksKept.of_request h fun u => State.withNumber_booksKept fun p => State.checked_booksKept fun _ =>
      State.checked_booksKept fun _ => ((u.setPos_undisturbed p _).trans
        (State.file_undisturbed _ _ _ _ _)).answered port _ _
  | offerPositionWithdraw port position =>
    exact BooksKept.of_request h fun u => State.withNumber_booksKept fun p => State.checked_booksKept fun _ =>
      ((u.setPos_undisturbed p _).trans (State.file_undisturbed _ _ _ _ _)).answered port _ _
  | acceptPosition port position =>
    exact BooksKept.of_request h fun u => State.withNumber_booksKept fun p => State.checked_booksKept fun _ =>
      ((u.passTo_undisturbed p port).trans (State.fileOwner_undisturbed _ _ _ _ _)).answered port _ _
  | cancelWhisper port position =>
    exact BooksKept.of_request h fun u => State.withNumber_booksKept fun p => State.checked_booksKept fun _ =>
      (u.flush_withdraws p .cancel _).assigned_answered port _ _
  | openPosition | setPosition | setTail | positionStats =>
    exact absurd (by simp [commandParts, bookParts]) spared
  | _ => exact absurd position (by simp [commandParts, grantParts])

theorem exec_rest_booksKept {c : Instr} {s t : State} (h : exec c s = .next t)
    (spared : ¬∀ x ∈ bookParts, x ∉ commandParts c) (position : .positions ∉ commandParts c) : BooksKept s t := by
  cases c with
  | startUpWordShifted word =>
    obtain rfl | ⟨-, rfl⟩ := startUpWordShifted_next h
    · exact (Undisturbed.refl _).kept
    · exact State.startUpShifted_booksKept word
  | startUpMemoryPreparationComplete =>
    obtain rfl | ⟨-, rfl⟩ := startUpMemoryPreparationComplete_next h
    · exact (Undisturbed.refl _).kept
    · exact State.prepared_booksKept _ _
  | debounceCountExpiry slot =>
    cases h
    exact (s.expireSlot_undisturbed slot).kept
  | refreshTimerExpiry =>
    obtain rfl | rfl := refreshTimerExpiry_next h
    · exact (Undisturbed.refl _).kept
    · exact (State.refreshed_undisturbed.steady.trans State.grant_steady).kept
  | pageFetchCompletion upsets =>
    obtain rfl | ⟨f, bus, rfl⟩ := pageFetchCompletion_next h
    · exact (Undisturbed.refl _).kept
    · exact (State.fetchCompleted_steady bus upsets).kept
  | portPageWriteCompletion =>
    obtain rfl | ⟨p, clip, index, page, codes, noted, -, rfl⟩ := portPageWriteCompletion_next h
    · exact (Undisturbed.refl _).kept
    · exact (State.writeCompleted_steady p clip index page codes noted).kept
  | portPageReadCompletion upsets =>
    obtain rfl | ⟨p, clip, index, page, -, rfl⟩ := portPageReadCompletion_next h
    · exact (Undisturbed.refl _).kept
    · exact (State.readCompleted_steady p clip index page upsets).kept
  | scrubStepCompletion upsets =>
    obtain rfl | ⟨-, rfl⟩ := scrubStepCompletion_next h
    · exact (Undisturbed.refl _).kept
    · exact (State.scrubCompleted_steady upsets).kept
  | addTap port listener target kind gain =>
    refine BooksKept.of_request h fun u => ?_
    split
    · exact State.checked_booksKept fun _ => State.addTapAccepted_booksKept port _
    · exact State.refuse_booksKept port _
  | removeTap port tap =>
    refine BooksKept.of_request h fun u => ?_
    split
    · split
      · refine State.checked_booksKept fun _ => Undisturbed.answered ?_ port _ _
        split
        · exact u.setTap_undisturbed _ _
        · exact u.dropTap_undisturbed _ _ _
      · exact State.refuse_booksKept port _
    · exact State.refuse_booksKept port _
  | writePage port clip index codes =>
    have marked := fun (u : State) c x => Undisturbed.of_touches (u.setClip_touches c x) (by decide)
    refine BooksKept.of_request h fun u => ?_
    dsimp only
    split
    · exact State.refuse_booksKept port _
    · split
      · exact State.refuseFault_booksKept port _ _ _ _
      · split
        · exact State.refuse_booksKept port _
        · exact ((marked u _ _).steady.trans (State.admitOp_steady port _)).kept
  | readPage port clip index =>
    refine BooksKept.of_request h fun u => ?_
    dsimp only
    split
    · exact State.refuse_booksKept port _
    · split
      · exact State.refuseFault_booksKept port _ _ _ _
      · exact ((u.note_undisturbed port _ _).steady.trans (State.admitOp_steady port _)).kept
  | startStream port stream playlist =>
    refine BooksKept.of_request h fun u => State.withNumber_booksKept fun k => State.checked_booksKept fun passed => ?_
    simp only [List.forall_mem_cons, decide_eq_false_iff_not, not_not] at passed
    obtain ⟨-, -, stopped, -⟩ := passed
    exact State.checkItems_booksKept (State.startAccepted_steady stopped port _).kept
  | loadStream port stream playlist =>
    refine BooksKept.of_request h fun u => State.withNumber_booksKept fun k => State.checked_booksKept fun passed => ?_
    simp only [List.forall_mem_cons, decide_eq_false_iff_not] at passed
    obtain ⟨-, going, -⟩ := passed
    exact State.checkItems_booksKept (State.loadAccepted_steady going port _).kept
  | stopStream port stream =>
    refine BooksKept.of_request h fun u => State.withNumber_booksKept fun k => State.checked_booksKept fun passed => ?_
    simp only [List.forall_mem_cons, decide_eq_false_iff_not, not_not] at passed
    obtain ⟨-, owned, -⟩ := passed
    have answered := State.answer_undisturbed (u.stopStream k) port .ok []
    exact (State.stopStream_withdrawn (by rw [owned]; rfl)).kept answered.steady answered.settled
  | streamInfo port stream clear =>
    refine BooksKept.of_request h fun u => State.withNumber_booksKept fun k => State.checked_booksKept fun _ => ?_
    have drawn : Undisturbed u (u.drawn 24) := .of_touches (u.drawn_touches 24) (by decide)
    dsimp only
    refine Undisturbed.answered ?_ port _ _
    split
    · refine drawn.trans ?_
      exact State.setStream_undisturbed _ k rfl id
    · exact drawn
  | whisper port position clip gain =>
    exact BooksKept.of_request h fun u => State.withNumber_booksKept fun p => State.checked_booksKept fun _ =>
      State.checkEntry_booksKept fun room => (State.queueEntry_steady room (.inl rfl) port).answered port _ _
  | readEvent port => exact BooksKept.of_request h fun u => (u.readEvent_undisturbed port).kept
  | routeEvent port kind cls =>
    refine BooksKept.of_request h fun u => ?_
    split
    · refine Undisturbed.answered ?_ port _ _
      exact u.setEvents_undisturbed port fun bounded => bounded
    · exact State.refuse_booksKept port _
  | maskEvents port mask =>
    refine BooksKept.of_request h fun u => Undisturbed.answered ?_ port _ _
    exact u.setEvents_undisturbed port fun bounded => bounded
  | pinReset | cycle | frameCompletion | syncLossMissingPulse | fsPulse | resetPort | closePosition | connect | hold
  | retrieve | release | offerPositionOffer | offerPositionWithdraw | acceptPosition | cancelWhisper =>
    exact absurd (by simp [commandParts, frameParts, closeParts]) position
  | _ => exact absurd (by simp [commandParts, bookParts]) spared

theorem exec_booksKept {c : Instr} {s t : State} (h : exec c s = .next t) : BooksKept s t := by
  by_cases spared : ∀ x ∈ bookParts, x ∉ commandParts c
  · exact (Undisturbed.of_touches (exec_touches h) spared).kept
  · by_cases position : .positions ∈ commandParts c
    · exact exec_position_booksKept h spared position
    · exact exec_rest_booksKept h spared position

theorem step_booksKept {s t : State} (h : step s = .next t) : BooksKept s t := by
  unfold step at h
  split at h
  · cases h
    exact (Undisturbed.refl s).kept
  · next c rest _ =>
    have popped : Undisturbed s { s with pending := rest } := ⟨⟨id, id, id, id⟩, .of_parts rfl rfl rfl rfl⟩
    exact popped.trans_kept (exec_booksKept h)

/-- Settles O53: requests are withdrawn only with a new generation, and everything else that a step does to the bookkeeping
leaves the fetch requests sound by itself. -/
theorem bookkeepingStaysInBounds : Obligations.BookkeepingStaysInBounds := by
  unfold Obligations.BookkeepingStaysInBounds
  intro s t h
  obtain ⟨⟨stores, badList, scrub, queues⟩, sound⟩ := step_booksKept h
  refine ⟨stores, badList, scrub, queues, fun fetches apart => ?_⟩
  rw [State.fetchesSound_iff] at fetches ⊢
  exact sound fetches apart

end Sys2Proof.Machine
end
